-- ==== Sys2Proof/Word.lean ====
section
/-! DEFINITION. The word types of the Skaha module (R2, R3, R7, R79, R101): bytes, 32-bit words, 64-bit words. -/

namespace Sys2Proof

/-- A byte, the smallest addressable unit (R3). -/
abbrev Byte := BitVec 8

/-- A 32-bit word: a code word, a cell of the matrix register file, a scratchpad word. -/
abbrev Word32 := BitVec 32

/-- A 64-bit word: a scalar register, a descriptor word, a micro-word. -/
abbrev Word64 := BitVec 64

end Sys2Proof
end

