-- ==== Sys2Proof/Syntax.lean ====
section
/-! DEFINITION. The instructions, micro-ops, events and commands of the Skaha module: one constructor of `Instr` for each
row of spec/opcode_table.json, and the operand types they carry. -/

namespace Sys2Proof

/-- A scalar register number s0-s31 (R101). -/
abbrev SReg := BitVec 5

/-- A predicate register number p0-p15 (R101). -/
abbrev PReg := BitVec 4

/-- A scalar operand (R81). -/
inductive SOp where
  | reg (r : SReg)
  | imm (v : BitVec 5)
  | pred (p : PReg)
  | lidx (l : BitVec 2)
  | lc
  | ec
  | rrb
  deriving DecidableEq, Repr

/-- A destination that is a scalar register or a predicate (R39, R140, R146). -/
inductive Dst where
  | reg (r : SReg)
  | pred (p : PReg)
  deriving DecidableEq, Repr

/-- The direction of a line operand (R80). -/
inductive Dir where
  | row
  | col
  | diag
  deriving DecidableEq, Repr

/-- A line operand of direction 00, 01 or 10 (R80): a logical tile and a line-index register. -/
structure Line where
  dir : Dir
  tile : BitVec 3
  l : BitVec 2
  deriving DecidableEq, Repr

/-- A V-slot source: a line operand or a broadcast register (R80, R162). -/
inductive VSrc where
  | line (l : Line)
  | bc (r : SReg)
  deriving DecidableEq, Repr

/-- The element formats of f3 in the V slot (R98). -/
inductive Fmt where
  | f32
  | bf16
  | f16
  | e4m3
  | e5m2
  | e2m1
  | i32
  | ni
  deriving DecidableEq, Repr

/-- The operand formats of MCALL (R210). -/
inductive MFmt where
  | f32
  | bf16
  | f16
  | e4m3
  | e5m2
  | e2m1
  | spt
  | ni
  deriving DecidableEq, Repr

/-- The types of FCVT (R147). -/
inductive STy where
  | f32
  | bf16
  | f16
  | i64
  | c64
  | i32
  | c32
  deriving DecidableEq, Repr

/-- Access sizes of 1, 2, 4 and 8 bytes (R236, R281). -/
inductive Sz where
  | b1
  | b2
  | b4
  | b8
  deriving DecidableEq, Repr

/-- Access sizes of the bitwise atomics: 1 to 16 bytes (R281). -/
inductive ASz where
  | b1
  | b2
  | b4
  | b8
  | b16
  deriving DecidableEq, Repr

/-- Conditions of CMP (R140). -/
inductive Cond where
  | eq
  | ne
  | lt
  | ge
  | ltu
  | geu
  | le
  | leu
  deriving DecidableEq, Repr

/-- Conditions of FCMP (R146). -/
inductive FCond where
  | eq
  | ne
  | lt
  | le
  | un
  | ord
  deriving DecidableEq, Repr

/-- Functions of PLOG (R141). -/
inductive PFun where
  | and
  | or
  | xor
  | andn
  | orn
  | nand
  | nor
  | xnor
  deriving DecidableEq, Repr

/-- Functions of BITC (R143). -/
inductive BFun where
  | clz
  | ctz
  | popc
  deriving DecidableEq, Repr

/-- The scale field of VQNT, VQSPT and VDQNT (R171): a part index and a c or z register. -/
inductive Scale where
  | tile (part : BitVec 3) (c : BitVec 3)
  | line (part : BitVec 3) (z : BitVec 2)
  deriving DecidableEq, Repr

/-- Source formats of KLD (R183). -/
inductive KFmt where
  | f32
  | bf16
  | f16
  | i32
  deriving DecidableEq, Repr

/-- Modes of EVICT (R247). -/
inductive EvMode where
  | writeInvalidate
  | writeKeep
  | drop
  deriving DecidableEq, Repr

/-- The system registers of R104, in table order. -/
inductive SysReg where
  | fmode
  | flags
  | lc
  | ec
  | rrb
  | stkptr
  | stkbase
  | stklim
  | efr
  | dpb
  | fewaitlim
  | latcnt
  | cycle
  | wid
  | vrank
  | ctxid
  | tvec
  | trappc
  | trapcause
  | trapaddr
  | trapinfo
  | heat
  | spwbase
  | csasize
  deriving DecidableEq, Repr

/-- A privileged command as it arrives (R374): its SEQ, whether the reserved bits of M0 are zero, and whether the Ed448
signature that follows it verifies under the bound hypervisor's key (the signature scheme is an external standard; whether
it verifies is a property of the input, see the log). -/
structure Cmd where
  seq : BitVec 32
  rsv : BitVec 16
  signed : Bool
  deriving DecidableEq, Repr

/-- The signed part of a hub firmware image (R377): its code, its version, the hypervisor's public key and the debug-readout enable that it carries. -/
structure FwImage where
  code : List Byte
  version : Nat
  hvKey : List Byte
  debug : Bool
  deriving DecidableEq, Repr

/-- A command code and where it comes from (R374, R375): the privileged path, or a management bus. -/
structure CmdCode where
  bus : Bool
  code : Byte
  deriving DecidableEq, Repr

/-- A unit that can be fenced (R343, R344 UNIT). -/
inductive FUnit where
  | core (n : Nat)
  | slice (die : Nat) (n : Nat)
  | crew (n : Nat)
  | port (n : Nat)
  | die (n : Nat)
  deriving DecidableEq, Repr

/-- A soft error and the storage it strikes (R342). -/
inductive SoftErr where
  /-- a parity error in MRF cell `cell` (64i + j) of a physical tile of a core -/
  | mrf (core tile cell : Nat)
  /-- a scratchpad word, by core and word index; corrected or not -/
  | spad (core word : Nat) (corrected : Bool)
  /-- an L2 line, by physical line index; corrected or not; dirty or clean; the rank slot whose data it holds -/
  | l2 (line : Nat) (corrected dirty : Bool)
  /-- a TLB entry of a core, by virtual address and slot -/
  | tlb (core slot : Nat) (va : Word64)
  /-- a control SRAM of a unit; corrected or not -/
  | control (u : FUnit) (corrected : Bool)
  deriving DecidableEq, Repr

/-- What a debugger writes in a halted stream (R338). -/
inductive DbgWrite where
  | s (r : SReg) (v : Word64)
  | p (r : PReg) (v : Bool)
  | l (r : BitVec 2) (v : BitVec 12)
  | c (r : BitVec 4) (v : Word32)
  | z (r : BitVec 2) (e : BitVec 6) (v : Word32)
  | q (r : BitVec 3) (v : Word64)
  | sys (r : SysReg) (v : Word64)
  | cell (tile : BitVec 3) (i j : BitVec 6) (v : Word32)
  | granule (va : Word64) (v : Byte)
  deriving DecidableEq, Repr

/-- The instructions, micro-ops, events and commands: one constructor per row of spec/opcode_table.json: the slot
instructions and micro-ops first, in its order, then the events and commands, in its order. -/
inductive Instr where
  -- S slot: integer and logic (R139-R144)
  | nop
  | add (u w : Bool) (d : SReg) (a b : SOp)
  | sub (u w : Bool) (d : SReg) (a b : SOp)
  | mul (u w : Bool) (d : SReg) (a b : SOp)
  | mulh (u w : Bool) (d : SReg) (a b : SOp)
  | div (u w : Bool) (d : SReg) (a b : SOp)
  | rem (u w : Bool) (d : SReg) (a b : SOp)
  | and (u w : Bool) (d : SReg) (a b : SOp)
  | or (u w : Bool) (d : SReg) (a b : SOp)
  | xor (u w : Bool) (d : SReg) (a b : SOp)
  | shl (u w : Bool) (d : SReg) (a b : SOp)
  | shr (u w : Bool) (d : SReg) (a b : SOp)
  | min (u w : Bool) (d : SReg) (a b : SOp)
  | max (u w : Bool) (d : SReg) (a b : SOp)
  | cmp (cond : Cond) (w : Bool) (d : Dst) (a b : SOp)
  | sel (p : PReg) (d : SReg) (a b : SOp)
  | movi (d : SReg) (v : BitVec 18)
  | movsh (d : SReg) (v : BitVec 18)
  | plog (fn : PFun) (d a b : PReg)
  | bfx (sx : Bool) (d : SReg) (a b : SOp)
  | bitc (fn : BFun) (w : Bool) (d : SReg) (a : SOp)
  | lea (k : BitVec 3) (d : SReg) (a b : SOp)
  | lix (l : BitVec 2) (a b : SOp)
  | lixstep (l : BitVec 2)
  | lixstepAll
  -- S slot: FP32 (R145-R147)
  | fadd (sub sat : Bool) (d a b : SReg)
  | fmul (sat : Bool) (d a b : SReg)
  | fma (sub sat : Bool) (d a b : SReg)
  | fcmp (cond : FCond) (d : Dst) (a b : SReg)
  | fcvt (dst src : STy) (sat : Bool) (d a : SReg)
  | fminmax (max : Bool) (d a b : SReg)
  -- S slot: control (R148-R150)
  | br (off : BitVec 25)
  | brp (neg : Bool) (p : PReg) (off : BitVec 17)
  | bri (a : SReg)
  | call (off : BitVec 25)
  | calli (a : SReg)
  | ret
  | loop (off : BitVec 25)
  | loopset (a b : SOp)
  -- S slot: system (R151-R160)
  | srd (d : SReg) (r : SysReg)
  | swr (r : SysReg) (a : SOp)
  | trap (code : BitVec 14)
  | eret
  | brk (code : BitVec 14)
  | tend
  | taskCatch
  | isync
  | evset (a : SOp)
  | evsetClr (a : SOp)
  | evtest (d : Dst) (a : SOp)
  | evtestTake (d : Dst) (a : SOp)
  | widf (k : BitVec 3) (d : SReg) (a : SOp)
  | widfPfx (k : BitVec 3) (d : SReg) (a : SOp)
  | widfW (d : SReg)
  | flagopClr (a : SOp)
  | flagopSet (a : SOp)
  | flagopRdclr (d : SReg) (a : SOp)
  | flagopTst (d : PReg) (a : SOp)
  | yield
  | qlaunch (d a : SReg) (b : SOp)
  -- V slot (R162)
  | vadd (f : Fmt) (sat : Bool) (d : Line) (a b : VSrc)
  | vsub (f : Fmt) (sat : Bool) (d : Line) (a b : VSrc)
  | vmul (f : Fmt) (sat : Bool) (d : Line) (a b : VSrc)
  | vmac (f : Fmt) (sat : Bool) (d : Line) (a b : VSrc)
  | vmsb (f : Fmt) (sat : Bool) (d : Line) (a b : VSrc)
  | vmin (f : Fmt) (d : Line) (a b : VSrc)
  | vmax (f : Fmt) (d : Line) (a b : VSrc)
  | vabs (f : Fmt) (sat : Bool) (d : Line) (a : VSrc)
  | vneg (f : Fmt) (sat : Bool) (d : Line) (a : VSrc)
  | vcpy (d : Line) (a : VSrc)
  | vsel (f : Fmt) (d : Line) (a b : VSrc)
  | vceq (f : Fmt) (d : Line) (a b : VSrc)
  | vclt (f : Fmt) (d : Line) (a b : VSrc)
  | vcle (f : Fmt) (d : Line) (a b : VSrc)
  | vcun (f : Fmt) (d : Line) (a b : VSrc)
  | vand (d : Line) (a b : VSrc)
  | vor (d : Line) (a b : VSrc)
  | vxor (d : Line) (a b : VSrc)
  | vshl (sat : Bool) (d : Line) (a b : VSrc)
  | vshr (arith : Bool) (d : Line) (a b : VSrc)
  | vcvt (dst src : Fmt) (sat : Bool) (part : BitVec 3) (d : Line) (a : VSrc)
  | vqnt (f : Fmt) (sat : Bool) (sc : Scale) (d : Line) (a : VSrc)
  | vqspt (sat : Bool) (sc : Scale) (d : Line) (a : VSrc)
  | vdqnt (f : Fmt) (sat : Bool) (sc : Scale) (d : Line) (a : VSrc)
  | vscalb (f : Fmt) (sat : Bool) (d : Line) (a b : VSrc)
  | vrcp (f : Fmt) (sat : Bool) (d : Line) (a : VSrc)
  | vrsq (f : Fmt) (sat : Bool) (d : Line) (a : VSrc)
  | vsqrt (f : Fmt) (sat : Bool) (d : Line) (a : VSrc)
  | vexp2 (f : Fmt) (sat : Bool) (d : Line) (a : VSrc)
  | vlog2 (f : Fmt) (sat : Bool) (d : Line) (a : VSrc)
  | vtanh (f : Fmt) (sat : Bool) (d : Line) (a : VSrc)
  | verf (f : Fmt) (sat : Bool) (d : Line) (a : VSrc)
  | vredadd (f : Fmt) (sat : Bool) (d : SReg) (a : VSrc)
  | vredmax (f : Fmt) (d : SReg) (a : VSrc)
  | vredmin (f : Fmt) (d : SReg) (a : VSrc)
  | vargmax (f : Fmt) (d : SReg) (a : VSrc)
  | vrot (d : Line) (a : VSrc) (b : SReg)
  | vshuf (d : Line) (a b : VSrc)
  | vrand (d : Line) (a b : SReg)
  | vgumb (sat : Bool) (d : Line) (a : VSrc)
  | vdrop (f : Fmt) (d : Line) (a : VSrc) (c : BitVec 4)
  | vnfchk (f : Fmt) (d : SReg) (a : VSrc)
  | viota (d : Line) (a : SReg)
  -- the reversible class (R188)
  | radd (f : Fmt) (sat : Bool) (d : Line) (a b : VSrc)
  | rsub (f : Fmt) (sat : Bool) (d : Line) (a b : VSrc)
  | rmul (f : Fmt) (sat : Bool) (d : Line) (a b : VSrc)
  | rnarw (f : Fmt) (sat : Bool) (part : BitVec 1) (d : Line) (a : VSrc)
  | rrelu (f : Fmt) (d : Line) (a : VSrc)
  | rscalb (f : Fmt) (sat : Bool) (d : Line) (a b : VSrc)
  | rshr (arith : Bool) (d : Line) (a b : VSrc)
  | uadd (f : Fmt) (d : Line) (y b : VSrc)
  | usub (f : Fmt) (d : Line) (y b : VSrc)
  | umul (f : Fmt) (d : Line) (y b : VSrc)
  | unarw (f : Fmt) (part : BitVec 1) (d : Line) (y : VSrc)
  | urelu (f : Fmt) (d : Line) (y : VSrc)
  | uscalb (f : Fmt) (d : Line) (y b : VSrc)
  | ushr (d : Line) (y b : VSrc)
  -- C slot: loads and stores, full/empty words (R236, R276)
  | ld (sz : Sz) (sx : Bool) (d a : SReg) (b : SOp)
  | st (sz : Sz) (v a : SReg) (b : SOp)
  | ldln (d : Line) (a : SReg) (b : SOp)
  | stln (v : Line) (a : SReg) (b : SOp)
  | lda (scope : BitVec 3) (w : Bool) (d a : SReg) (b : SOp)
  | strel (scope : BitVec 3) (w : Bool) (v a : SReg) (b : SOp)
  | ldw (dbl consume : Bool) (d a : SReg) (b : SOp)
  | stw (dbl : Bool) (v a : SReg) (b : SOp)
  | feclr (a : SReg) (b : SOp)
  | feset (a : SReg) (b : SOp)
  | fepoll (d : PReg) (a : SReg) (b : SOp)
  -- C slot: atomics (R281)
  | aadd (sz : Sz) (ord : Bool) (d a : SReg) (b : SOp)
  | amin (sx : Bool) (sz : Sz) (ord : Bool) (d a : SReg) (b : SOp)
  | amax (sx : Bool) (sz : Sz) (ord : Bool) (d a : SReg) (b : SOp)
  | aand (sz : ASz) (ord : Bool) (d a : SReg) (b : SOp)
  | aor (sz : ASz) (ord : Bool) (d a : SReg) (b : SOp)
  | axor (sz : ASz) (ord : Bool) (d a : SReg) (b : SOp)
  | aswap (sz : ASz) (ord : Bool) (d a : SReg) (b : SOp)
  | acas (sz : ASz) (ord : Bool) (d a : SReg) (b : SOp)
  | afadd (f32 : Bool) (ord : Bool) (d a : SReg) (b : SOp)
  -- C slot: deques, BKLOCK (R284, R287)
  | dqpush (d : PReg) (a : SReg) (b : SOp)
  | dqpop (d : SReg) (p : PReg) (b : SOp)
  | dqsteal (d : SReg) (p : PReg) (b : SOp)
  | bklock (mask : BitVec 16) (n : BitVec 4)
  -- C slot: load blocks, copies, rings, ownership (R236)
  | lblk (a : SReg) (b : SOp)
  | probe (k : BitVec 3) (d a : SReg) (b : SOp)
  | evict (mode : EvMode) (b : SOp)
  | cpy (a : SReg)
  | cpyt (f : Fmt) (tr : Bool) (d a b : SReg)
  | rgdef (r : BitVec 4) (a : SReg)
  | rgadvt (r : BitVec 4) (b : SOp)
  | rgadvh (r : BitVec 4) (b : SOp)
  | rgwaitf (r : BitVec 4) (b : SOp)
  | rgwaite (r : BitVec 4) (b : SOp)
  | owngive (a : SReg) (b : SOp)
  | ownqry (byAddr : Bool) (d : SReg) (a : SOp)
  -- C slot: Tulle, channels, collectives, near memory (R295, R304, R310, R313, R251)
  | tdep (r a : SReg) (b : SOp)
  | tcpy (nowait : Bool) (r a : SReg) (b : SOp)
  | ttak (nowait : Bool) (r a : SReg) (b : SOp)
  | tcan (r : SReg)
  | chsend (r a : SReg) (b : SOp)
  | chrecv (r a : SReg) (b : SOp)
  | coll (a : SReg)
  | bkarm (a : SReg) (b : SOp)
  | nmop (a : SReg)
  -- C slot: fences, code, decrements, remainder stack, prefetch (R266, R267, R43, R189, R240)
  | fenceAcq (n : BitVec 3)
  | fenceRel (n : BitVec 3)
  | fenceFull (n : BitVec 3)
  | fenceJoin (n : BitVec 3)
  | icinv (n : BitVec 3) (a : SReg) (b : SOp)
  | tkdec (a b : SOp)
  | rsmark (a : SOp)
  | rsdrop (a : SOp)
  | rsdropMark (d : SReg)
  | rssync
  | rssyncFlush
  | pref (replica : Bool) (a : SReg) (b : SOp)
  -- M slot (R209)
  | mcall (fa fb : MFmt) (ovw : Bool) (n : BitVec 7) (a : SOp)
  | mpset (q : BitVec 3) (a : SOp)
  | mpget (d : SReg) (q : BitVec 3)
  | mwait
  | mload (a : SReg) (b : SOp)
  | mzero (t : BitVec 3)
  | mtran (t : BitVec 3)
  -- K slot (R183, R186)
  | kld (f : KFmt) (c : BitVec 4) (a : SReg) (b : SOp)
  | kldz (bf16 : Bool) (z : BitVec 2) (a : SReg) (b : SOp)
  | kmovCFromOp (c : BitVec 4) (a : SOp)
  | kmovSFromC (d : SReg) (c : BitVec 4)
  | kmovCFromC (d c : BitVec 4)
  | kmovCFromZ (c : BitVec 4) (z : BitVec 2) (b : SOp)
  | kmovZFromC (z : BitVec 2) (c : BitVec 4) (b : SOp)
  | kst (c : BitVec 4) (a : SReg) (b : SOp)
  | kstZ (z : BitVec 2) (a : SReg) (b : SOp)
  | ksetef (a : SOp)
  | kgetef (d : SReg)
  -- micro-ops (R219)
  | unop
  | mac (ra rb : BitVec 4) (k0 kn : BitVec 10)
  | macs (ra rb : BitVec 4) (k0 kn : BitVec 10) (rm : BitVec 4) (ns : BitVec 2)
  | macw (ra rb : BitVec 4) (k0 kn : BitVec 10)
  | mact (rb : BitVec 4) (k0 kn : BitVec 10) (tile : BitVec 3) (dir : Bool)
  | macg (ra rb : BitVec 4) (k0 kn : BitVec 10) (g : Bool) (q : BitVec 3)
  | ringadv (ring count : BitVec 4)
  | waitring (ring : BitVec 4) (count : Byte)
  | setc (q : BitVec 3)
  | accscl (z : Bool) (reg : BitVec 4) (dir : Bool)
  | cvtout (ring : BitVec 4) (fmt : BitVec 3) (sat tr : Bool)
  | microLoop (ctr : BitVec 2) (q : BitVec 3) (target : BitVec 11)
  | exit
  -- messages on a queue pair (R33, R381)
  | launchMessage (ctx queue : Nat) (words : List Word64)
  | eventSetMessage (ctx queue : Nat) (words : List Word64)
  | eventClearMessage (ctx queue : Nat) (words : List Word64)
  | completionHeadMessage (ctx queue : Nat) (words : List Word64)
  | unrecognisedMessage (ctx queue len : Nat) (words : List Word64)
  | unboundQpRequest (qp : Nat)
  -- the Cox (R35-R49, R115, R346)
  | completionRecordWrite (ctx : Nat)
  | launchHead (ctx queue : Nat)
  | taskStart (ctx queue serial slot task : Nat)
  | predecessorDecrement (id : Nat)
  | taskRetire (key : Nat)
  | sliceEnd (key : Nat)
  | launchRetire (ctx queue serial : Nat)
  | starvationHold (core : Nat)
  -- fetch, scoreboard, translation, errors
  | bundleFetch (key : Nat)
  | scoreboardResultLands (key id : Nat)
  | pageWalk (core slot : Nat) (va : Word64)
  | shootdownAck (id : Nat)
  | hbmUncorrectableError (key : Option Nat) (slot : Nat) (va : Word64) (kind : BitVec 4)
  | softError (e : SoftErr)
  | bumpComplete (ctx : Nat) (buf : BitVec 24)
  -- the tier engine and held packets
  | evictionStart (slot : Nat)
  | evictionComplete (slot : Nat)
  | recallStart (slot : Nat)
  | recallComplete (slot : Nat)
  | packetHold (id : Nat)
  | heldPacketRelease (id : Nat)
  -- the remainder window
  | spill (key : Nat)
  | fill (key : Nat)
  | spillFillComplete (key : Nat)
  -- the matrix unit
  | matrixCallStart (core : Nat)
  | matrixCallComplete (core : Nat)
  | callCycleLimit (core : Nat)
  -- engines
  | copyComplete (id : Nat)
  | loadBlockFillComplete (id : Nat)
  | loadBlockEvictComplete (id : Nat)
  | nmopComplete (id : Nat)
  | refreshDue (stack pc bank : Nat)
  | owedRefreshPayment (stack pc : Nat)
  | refreshEnd (stack pc bank : Nat)
  | fewait (key : Nat)
  | bklockHoldEnd (key : Nat)
  | granuleDelivery (id : Nat)
  -- Tulle
  | tulleDepositProcess (id : Nat)
  | tulleMatchProcess (id : Nat)
  | tulleCancelProcess (id : Nat)
  | tulleWithdrawal (id : Nat)
  | detachedGranuleDelivery (slot gran : Nat)
  -- channels and collectives
  | channelArrival (id : Nat)
  | sendAcceptance (id : Nat)
  | heldArrivalRetry (slot : Nat)
  | collectiveContribution (id : Nat)
  | switchLateForward (id : Nat)
  | collectiveComplete (slot : Nat) (cid : Word32)
  | bucketFire (slot bucket : Nat)
  -- heats, steps, migration
  | heatCommit (ctx queue serial slot : Nat)
  | nextHeatStart (ctx queue serial slot : Nat)
  | caughtMessage (job step : Word32) (count : Nat)
  | commitMessage (job step : Word32)
  | deferralEnd (slot : Nat)
  | migrationWaitExpiry (slot : Nat)
  | migrationTransfer (slot : Nat)
  | mapupd (job : Word32) (rank node : Nat) (coord : Option Nat)
  | migrationComplete (slot : Nat)
  -- pre-emption and traps
  | preemptionRequest (key : Nat) (full : Bool)
  | preemptionStop (key : Nat)
  | dpbExpiry (key : Nat)
  | drainlimExpiry (key : Nat)
  | contextSave (key : Nat)
  | contextRestore (ctx area key : Nat)
  | asyncTrapDelivery (key : Nat)
  | abortLaunch (c : Cmd) (ctx queue serial : Nat)
  | debugHalt (key : Nat)
  | debugStep (key : Nat)
  | debugCont (key : Nat)
  -- management
  | weigh
  | scanReadout
  | weighResume
  | moduleReset
  | setPlimit (watts : Nat)
  | readTelemetry
  | fenceUnit (c : Cmd) (u : FUnit)
  | errorCountFence (u : FUnit) (count cycles : Nat) (control : Bool)
  -- the privileged path
  | writeRankRecord (c : Cmd) (slot : Nat) (w : List Word64)
  | writeSchedulingRecord (c : Cmd) (ctx : Nat) (x : List Word64)
  | writeJobRecord (c : Cmd) (idx : Nat) (jb : List Word64)
  | writeChannelRow (c : Cmd) (slot n : Nat) (h : List Word64)
  | writeTulleRegion (c : Cmd) (ctx handle : Nat) (u : Word64)
  | writeStreamRegister (c : Cmd) (slot handle : Nat) (j : List Word64)
  | writeDebugComparator (c : Cmd) (ctx idx : Nat) (w : Word64)
  | readRankRecord (c : Cmd) (slot : Nat)
  | readSchedulingRecord (c : Cmd) (ctx : Nat)
  | readJobRecord (c : Cmd) (idx : Nat)
  | readChannelRow (c : Cmd) (slot n : Nat)
  | readTulleRegion (c : Cmd) (ctx handle : Nat)
  | readStreamRegister (c : Cmd) (slot handle : Nat)
  | readDebugComparator (c : Cmd) (ctx idx : Nat)
  | shootdown (c : Cmd) (s0 s1 : Word64)
  | evictRank (c : Cmd) (slot : Nat)
  | recallRank (c : Cmd) (slot : Nat)
  | migrationOrder (c : Cmd) (mo0 mo1 mo2 : Word64)
  | versionBump (c : Cmd) (ctx : Nat) (buf : BitVec 24)
  | installContextKeys (c : Cmd) (ctx : Nat) (blob : List Word64)
  | installRank (c : Cmd) (m1 : Word64)
  | removeRank (c : Cmd) (m1 : Word64)
  | createContext (c : Cmd) (m1 m2 m3 m4 : Word64)
  | destroyContext (c : Cmd) (m1 : Word64)
  | readAndClearCounter (c : Cmd) (m1 : Word64)
  | readSaveAreaDescriptor (c : Cmd)
  | unknownCommand (c : Cmd) (code : CmdCode)
  | attestationRequest (nonce : List Word64)
  | standbyPowerOn (f : FwImage) (key sig : List Byte)
  | mainPowerOn (l4 l5 l6 : Byte)
  | finserLinkTraining (port gen : Nat) (node : BitVec 20)
  | ethernetLinkChange (port : Nat) (rate : Option Nat)
  | thermalReport (die : Nat) (celsius : Int)
  | powerWindow (watts : Nat)
  -- memory system and late rows
  | writePerformed (id : Nat)
  | incomingWriteApply (id : Nat)
  | bklockStallLimit (key : Nat)
  | queuePairBind (c : Cmd) (ctx queue : Nat)
  | poisonFilterRemove (c : Cmd) (die frame : Nat)
  | debuggerWrite (key : Nat) (w : DbgWrite)
  deriving DecidableEq, Repr

end Sys2Proof
end

