-- ==== Sys2Proof/Config.lean ====
section
/-! DEFINITION. What is fixed for every DWG-SKH8 module (R11, R12, R231, R333) and the free values: constants without a
body for what the spec leaves open. -/

namespace Sys2Proof.Config

/-- SPWBASE, the base of the scratchpad window (R231). -/
def spwbase : Nat := 0x00FFFFFFFFE00000

/-- One granule: 64 KiB (R31, R231). -/
def granule : Nat := 0x10000

/-- CSASIZE (R333). -/
def csasize : Nat := 0x0014E000

/-- Cores of the module (R11). -/
def cores : Nat := 512

/-- Rank-table slots (R53). -/
def slots : Nat := 1088

/-- Bytes of one HBM stack (R232). -/
def stackBytes : Nat := 96000000000

/-- FREE VALUE (log 5): which of the enabled actions a turn takes (R1, R384: any of them). -/
opaque freeSched : Nat → Nat

/-- FREE VALUE (log 5): how often an action that becomes enabled may be passed over (R384: any finite time). -/
opaque freeWait : Nat → Nat → Nat

/-- FREE VALUE (log 6): a byte of a line read under a key or tweak other than the one it was last written with (R70-R72): of the keys and tweaks
of both, the address and the byte written. -/
opaque garble : List Nat → Nat → Nat → BitVec 8

/-- FREE VALUE (log 51): the Finser Link switches on the route to a node, of the discovered hop table (R263). -/
opaque switches : Nat → Nat

/-- FREE VALUE (log 7): a choice between two outcomes that a rule leaves open. -/
opaque freePick : Nat → Bool

/-- FREE VALUE (log 12): a word to which the spec gives no value, such as TRAPADDR of a trap that has no address. -/
opaque freeWord : Nat → BitVec 64

/-- FREE VALUE (log 8): the 64 bytes of SHAKE256 (R377), of an external standard. -/
opaque shake256 : List (BitVec 8) → List (BitVec 8)

/-- FREE VALUE (log 8): whether an Ed448 signature of a digest verifies by a public key (R377). -/
opaque ed448Verify : List (BitVec 8) → List (BitVec 8) → List (BitVec 8) → Bool

/-- FREE VALUE (log 8): a byte of the Ed448 signature that the identity key makes of some bytes, and of the X448 public key of the module (R378). -/
opaque ed448Sign : List (BitVec 8) → Nat → BitVec 8

opaque x448Public : Nat → BitVec 8

/-- FREE VALUE (log 8): how a report packs the rollback counter and the debug enable into eight bytes (R378). -/
opaque packBoot : Nat → Bool → BitVec 64

/-- FREE VALUE (log 8): what AES-256 key unwrap makes of a blob for a context: its key pair, or nothing (R378, RFC 3394). -/
opaque unwrapKeys : List (BitVec 64) → Nat → Option (List (BitVec 64))

/-- FREE VALUE (log 8): a byte of the migration key that two security blocks agree (R378): of the agreement, both nodes and the order's SLOT. -/
opaque migrationKey : Nat × Nat × Nat × Nat → Nat → BitVec 8

/-- FREE VALUE (log 9): which free frame of a context's pool the tier and migration engines take next (R73, R352). -/
opaque freeFrame : Nat → Nat

/-- FREE VALUE (log 59): whether reading a page of an image from LP6 meets an uncorrectable error (R352). -/
opaque lp6Fails : Nat → Nat → Bool

end Sys2Proof.Config
end

