-- ==== Sys2Proof/WellFormed.lean ====
section
/-! DEFINITION. The format sets of R162 and R188, the operand pairs of R210, and `Instr.wf`: what the encoding admits
beyond the operand types (R82, R84 step 7, R219). -/

namespace Sys2Proof

/-- FP of R162: the six floating-point formats. -/
def Fmt.isFP : Fmt → Bool
  | .i32 => false
  | .ni => false
  | _ => true

/-- FW of R162: F32, BF16x2, F16x2. -/
def Fmt.isFW : Fmt → Bool
  | .f32 => true
  | .bf16 => true
  | .f16 => true
  | _ => false

/-- FW and I32: the formats of VREDADD, VDROP, RADD, RSUB (R162, R188). -/
def Fmt.isFWI : Fmt → Bool
  | .i32 => true
  | f => f.isFW

/-- F32 and I32: the formats of VARGMAX (R162). -/
def Fmt.isArg : Fmt → Bool
  | .f32 => true
  | .i32 => true
  | _ => false

/-- BF16x2 and F16x2: the formats of RNARW and UNARW (R188). -/
def Fmt.isHalf : Fmt → Bool
  | .bf16 => true
  | .f16 => true
  | _ => false

/-- The integer types of FCVT (R147). -/
def STy.isInt : STy → Bool
  | .f32 => false
  | .bf16 => false
  | .f16 => false
  | _ => true

/-- The six floating-point operand formats of MCALL (R210). -/
def MFmt.isFP : MFmt → Bool
  | .spt => false
  | .ni => false
  | _ => true

/-- The operand pairs R210 accepts. -/
def mcallPair (fa fb : MFmt) : Bool :=
  (fa.isFP && fb.isFP) || (fa == .e4m3 && fb == .spt) || (fa == .ni && fb == .ni)

/-- A per-line scale needs a line operand, whose line number picks the element (R171). -/
def scaleOk : Scale → VSrc → Bool
  | .line _ _, .bc _ => false
  | _, _ => true

/-- A 16-byte atomic names even registers in fD and fB, in register mode (R281). -/
def pairOk (sz : ASz) (d : SReg) (b : SOp) : Bool :=
  match sz with
  | .b16 => d.getLsbD 0 == false && (match b with | .reg r => r.getLsbD 0 == false | _ => false)
  | _ => true

/-- What the encodings admit beyond the operand types: `false` exactly where a word with these operands raises ILLOP at
decoding (R82) or, for a micro-op, where R380 step 1 stops the call with SUB 0x30. -/
def Instr.wf : Instr → Bool
  | .fcvt d s _ _ _ => !(d.isInt && s.isInt)
  | .widf k _ _ => decide (k.toNat ≤ 5)
  | .widfPfx k _ _ => decide (k.toNat ≤ 5)
  | .vcun f _ _ _ => f.isFP
  | .vqnt _ _ sc _ a => scaleOk sc a
  | .vqspt _ sc _ a => scaleOk sc a
  | .vdqnt _ _ sc _ a => scaleOk sc a
  | .vscalb f _ _ _ _ => f.isFP
  | .vrcp f _ _ _ => f.isFW
  | .vrsq f _ _ _ => f.isFW
  | .vsqrt f _ _ _ => f.isFW
  | .vexp2 f _ _ _ => f.isFW
  | .vlog2 f _ _ _ => f.isFW
  | .vtanh f _ _ _ => f.isFW
  | .verf f _ _ _ => f.isFW
  | .vredadd f _ _ _ => f.isFWI
  | .vargmax f _ _ => f.isArg
  | .vdrop f _ _ _ => f.isFWI
  | .vnfchk f _ _ => f.isFP
  | .radd f _ _ _ _ => f.isFWI
  | .rsub f _ _ _ _ => f.isFWI
  | .rmul f _ _ _ _ => f.isFW
  | .rnarw f _ _ _ _ => f.isHalf
  | .rrelu f _ _ => f.isFW
  | .rscalb f _ _ _ _ => f.isFW
  | .uadd f _ _ _ => f.isFWI
  | .usub f _ _ _ => f.isFWI
  | .umul f _ _ _ => f.isFW
  | .unarw f _ _ _ => f.isHalf
  | .urelu f _ _ => f.isFW
  | .uscalb f _ _ _ => f.isFW
  | .ld sz sx _ _ _ => !(sx && sz == .b8)
  | .ldw _ _ _ _ _ => true
  | .aand sz _ d _ b => pairOk sz d b
  | .aor sz _ d _ b => pairOk sz d b
  | .axor sz _ d _ b => pairOk sz d b
  | .aswap sz _ d _ b => pairOk sz d b
  | .acas sz _ d _ b => pairOk sz d b
  | .bklock m n => m != 0 && n != 0
  | .cpyt f _ _ _ _ => f != .ni
  | .mcall fa fb _ _ _ => mcallPair fa fb
  | .macs _ _ _ _ _ ns => ns != 3
  | .ringadv _ c => c != 0
  | .waitring _ c => c != 0
  | .accscl z r d => if z then r.toNat < 4 else !d
  | .cvtout _ f _ _ => f != 6
  | _ => true

end Sys2Proof
end

