-- ==== Sys2Proof/Decode.lean ====
section
/-! DEFINITION. Decoding and encoding: the slot word (R79-R83, R92-R95 and each instruction's entry), the micro-word (R219),
the bundle header (R78), and the MRF lines an instruction reads at issue (R86). -/

namespace Sys2Proof

/-- The slot kinds: each has its own opcode space (R79). -/
inductive SlotKind where
  | s
  | v
  | m
  | c
  | k
  deriving DecidableEq, Repr

/-- Why a slot word is rejected (R84 steps 6 and 7). -/
inductive DecErr where
  /-- SUB 0x10: the opcode is not assigned in this slot kind -/
  | noOp
  /-- SUB 0x11: an illegal field -/
  | field
  /-- SUB 0x12: a reserved special operand -/
  | special
  deriving DecidableEq, Repr

/-- The fields of a slot word, without its stop bit (R79). -/
structure Fields where
  op : BitVec 6
  f : BitVec 3
  b : Bool
  d : BitVec 7
  a : BitVec 7
  e : BitVec 7
  deriving DecidableEq, Repr

/-- The fields read out of a word (R79). -/
def Fields.of (w : Word32) : Fields :=
  { op := w.extractLsb' 25 6, f := w.extractLsb' 22 3, b := w.getLsbD 21, d := w.extractLsb' 14 7,
    a := w.extractLsb' 7 7, e := w.extractLsb' 0 7 }

/-- The word of the fields, with its stop bit (R79). -/
def Fields.word (F : Fields) (stop : Bool) : Word32 :=
  (BitVec.ofBool stop ++ (F.op ++ (F.f ++ (BitVec.ofBool F.b ++ (F.d ++ (F.a ++ F.e)))))).cast (by omega)

/-! Operand fields (R80-R82). -/

/-- A field or bit the instruction does not use must be zero (R82). -/
def dZero {n : Nat} (x : BitVec n) : Except DecErr Unit := if x = 0 then .ok () else .error .field

/-- An unassigned variant bit must be 0 (R82). -/
def dOff (b : Bool) : Except DecErr Unit := if b then .error .field else .ok ()

/-- A register-mode field (R81). -/
def dReg (x : BitVec 7) : Except DecErr SReg :=
  if x.extractLsb' 5 2 = 0 then .ok (x.extractLsb' 0 5) else .error .field

/-- A predicate-mode field (R81). -/
def dPred (x : BitVec 7) : Except DecErr PReg :=
  if x.extractLsb' 4 3 = 4 then .ok (x.extractLsb' 0 4) else .error .field

/-- A scalar operand (R81). -/
def dSop (x : BitVec 7) : Except DecErr SOp :=
  match (x.extractLsb' 5 2).toNat with
  | 0 => .ok (.reg (x.extractLsb' 0 5))
  | 1 => .ok (.imm (x.extractLsb' 0 5))
  | 2 => if x.extractLsb' 4 1 = 0 then .ok (.pred (x.extractLsb' 0 4)) else .error .field
  | _ =>
    if x.extractLsb' 2 3 = 0 then .ok (.lidx (x.extractLsb' 0 2))
    else if x.extractLsb' 0 5 = 16 then .ok .lc
    else if x.extractLsb' 0 5 = 17 then .ok .ec
    else if x.extractLsb' 0 5 = 18 then .ok .rrb
    else .error .special

/-- A destination that may be a register or a predicate (R39, R140, R146). -/
def dDst (x : BitVec 7) : Except DecErr Dst :=
  if x.extractLsb' 5 2 = 0 then .ok (.reg (x.extractLsb' 0 5))
  else if x.extractLsb' 4 3 = 4 then .ok (.pred (x.extractLsb' 0 4)) else .error .field

/-- A destination that must be one of l0-l3 in special mode (R144). -/
def dLidx (x : BitVec 7) : Except DecErr (BitVec 2) :=
  if x.extractLsb' 2 5 = 24 then .ok (x.extractLsb' 0 2) else .error .field

/-- A line operand of direction 00, 01 or 10 (R80). -/
def dLine (x : BitVec 7) : Except DecErr Line :=
  match (x.extractLsb' 5 2).toNat with
  | 0 => .ok ⟨.row, x.extractLsb' 2 3, x.extractLsb' 0 2⟩
  | 1 => .ok ⟨.col, x.extractLsb' 2 3, x.extractLsb' 0 2⟩
  | 2 => .ok ⟨.diag, x.extractLsb' 2 3, x.extractLsb' 0 2⟩
  | _ => .error .field

/-- A direction-11 field: a scalar destination or a broadcast source (R80, R161). -/
def dDir11 (x : BitVec 7) : Except DecErr SReg :=
  if x.extractLsb' 5 2 = 3 then .ok (x.extractLsb' 0 5) else .error .field

/-- A V-slot source (R80). -/
def dSrc (x : BitVec 7) : Except DecErr VSrc :=
  match dLine x with
  | .ok l => .ok (.line l)
  | .error _ => .ok (.bc (x.extractLsb' 0 5))

/-- A raw value in the low n bits, the bits above zero (R183, R209, R236). -/
def dRaw (n : Nat) (x : BitVec 7) : Except DecErr (BitVec n) :=
  if (x >>> n) = 0 then .ok (x.setWidth n) else .error .field

/-- The scale field (R171). -/
def dScale (x : BitVec 7) : Except DecErr Scale :=
  if x.getLsbD 6 = false then .ok (.tile (x.extractLsb' 3 3) (x.extractLsb' 0 3))
  else if x.getLsbD 2 then .error .field
  else .ok (.line (x.extractLsb' 3 3) (x.extractLsb' 0 2))

/-- A one-bit choice in f3: 000 or 001 (R137 and others). -/
def dFlag (f : BitVec 3) : Except DecErr Bool :=
  match f.toNat with
  | 0 => .ok false
  | 1 => .ok true
  | _ => .error .field

/-! Encoded operands. -/

def SReg.enc (r : SReg) : BitVec 7 := 0#2 ++ r
def PReg.enc (p : PReg) : BitVec 7 := 4#3 ++ p

/-- The field of a scalar operand (R81). -/
def SOp.enc : SOp → BitVec 7
  | .reg r => 0#2 ++ r
  | .imm v => 1#2 ++ v
  | .pred p => 4#3 ++ p
  | .lidx l => 24#5 ++ l
  | .lc => 112
  | .ec => 113
  | .rrb => 114

def Dst.enc : Dst → BitVec 7
  | .reg r => 0#2 ++ r
  | .pred p => 4#3 ++ p

def Line.enc (l : Line) : BitVec 7 :=
  (match l.dir with | .row => 0#2 | .col => 1#2 | .diag => 2#2) ++ (l.tile ++ l.l)

def VSrc.enc : VSrc → BitVec 7
  | .line l => l.enc
  | .bc r => 3#2 ++ r

def Scale.enc : Scale → BitVec 7
  | .tile p c => 0#1 ++ (p ++ c)
  | .line p z => 1#1 ++ (p ++ (0#1 ++ z))

def dir11 (r : SReg) : BitVec 7 := 3#2 ++ r
def flagF (b : Bool) : BitVec 3 := if b then 1 else 0

/-! Formats, conditions, functions, sizes. -/

def Fmt.bits : Fmt → BitVec 3
  | .f32 => 0
  | .bf16 => 1
  | .f16 => 2
  | .e4m3 => 3
  | .e5m2 => 4
  | .e2m1 => 5
  | .i32 => 6
  | .ni => 7

/-- The element format of f3 (R98). -/
def Fmt.of (f : BitVec 3) : Fmt :=
  match f.toNat with
  | 0 => .f32
  | 1 => .bf16
  | 2 => .f16
  | 3 => .e4m3
  | 4 => .e5m2
  | 5 => .e2m1
  | 6 => .i32
  | _ => .ni

/-- A format of a set; another raises ILLOP (R161). -/
def dFmt (ok : Fmt → Bool) (f : BitVec 3) : Except DecErr Fmt :=
  if ok (Fmt.of f) then .ok (Fmt.of f) else .error .field

def MFmt.bits : MFmt → BitVec 3
  | .f32 => 0
  | .bf16 => 1
  | .f16 => 2
  | .e4m3 => 3
  | .e5m2 => 4
  | .e2m1 => 5
  | .spt => 6
  | .ni => 7

/-- The operand format of MCALL (R210). -/
def MFmt.of (f : BitVec 3) : MFmt :=
  match f.toNat with
  | 0 => .f32
  | 1 => .bf16
  | 2 => .f16
  | 3 => .e4m3
  | 4 => .e5m2
  | 5 => .e2m1
  | 6 => .spt
  | _ => .ni

def STy.bits : STy → BitVec 3
  | .f32 => 0
  | .bf16 => 1
  | .f16 => 2
  | .i64 => 3
  | .c64 => 4
  | .i32 => 5
  | .c32 => 6

/-- The types of FCVT; code 111 is reserved (R147). -/
def dSTy (f : BitVec 3) : Except DecErr STy :=
  match f.toNat with
  | 0 => .ok .f32
  | 1 => .ok .bf16
  | 2 => .ok .f16
  | 3 => .ok .i64
  | 4 => .ok .c64
  | 5 => .ok .i32
  | 6 => .ok .c32
  | _ => .error .field

def Cond.bits : Cond → BitVec 3
  | .eq => 0
  | .ne => 1
  | .lt => 2
  | .ge => 3
  | .ltu => 4
  | .geu => 5
  | .le => 6
  | .leu => 7

/-- The conditions of CMP (R140). -/
def Cond.of (f : BitVec 3) : Cond :=
  match f.toNat with
  | 0 => .eq
  | 1 => .ne
  | 2 => .lt
  | 3 => .ge
  | 4 => .ltu
  | 5 => .geu
  | 6 => .le
  | _ => .leu

def FCond.bits : FCond → BitVec 3
  | .eq => 0
  | .ne => 1
  | .lt => 2
  | .le => 3
  | .un => 4
  | .ord => 5

/-- The conditions of FCMP (R146). -/
def dFCond (f : BitVec 3) : Except DecErr FCond :=
  match f.toNat with
  | 0 => .ok .eq
  | 1 => .ok .ne
  | 2 => .ok .lt
  | 3 => .ok .le
  | 4 => .ok .un
  | 5 => .ok .ord
  | _ => .error .field

def PFun.bits : PFun → BitVec 3
  | .and => 0
  | .or => 1
  | .xor => 2
  | .andn => 3
  | .orn => 4
  | .nand => 5
  | .nor => 6
  | .xnor => 7

/-- The functions of PLOG (R141). -/
def PFun.of (f : BitVec 3) : PFun :=
  match f.toNat with
  | 0 => .and
  | 1 => .or
  | 2 => .xor
  | 3 => .andn
  | 4 => .orn
  | 5 => .nand
  | 6 => .nor
  | _ => .xnor

def BFun.bits : BFun → BitVec 3
  | .clz => 0
  | .ctz => 1
  | .popc => 2

/-- The functions of BITC (R143). -/
def dBFun (f : BitVec 3) : Except DecErr BFun :=
  match f.toNat with
  | 0 => .ok .clz
  | 1 => .ok .ctz
  | 2 => .ok .popc
  | _ => .error .field

def Sz.bits : Sz → BitVec 3
  | .b1 => 0
  | .b2 => 1
  | .b4 => 2
  | .b8 => 3

/-- The access sizes of loads, stores and AADD (R236, R281). -/
def dSz (f : BitVec 3) : Except DecErr Sz :=
  match f.toNat with
  | 0 => .ok .b1
  | 1 => .ok .b2
  | 2 => .ok .b4
  | 3 => .ok .b8
  | _ => .error .field

def ASz.bits : ASz → BitVec 3
  | .b1 => 0
  | .b2 => 1
  | .b4 => 2
  | .b8 => 3
  | .b16 => 4

/-- The access sizes of the bitwise atomics (R281). -/
def dASz (f : BitVec 3) : Except DecErr ASz :=
  match f.toNat with
  | 0 => .ok .b1
  | 1 => .ok .b2
  | 2 => .ok .b4
  | 3 => .ok .b8
  | 4 => .ok .b16
  | _ => .error .field

/-- The full/empty sizes: 010 one word, 011 two (R276). -/
def dDbl (f : BitVec 3) : Except DecErr Bool :=
  match f.toNat with
  | 2 => .ok false
  | 3 => .ok true
  | _ => .error .field

def dblF (b : Bool) : BitVec 3 := if b then 3 else 2

def KFmt.bits : KFmt → BitVec 3
  | .f32 => 0
  | .bf16 => 1
  | .f16 => 2
  | .i32 => 3

/-- The source formats of KLD (R183). -/
def dKFmt (f : BitVec 3) : Except DecErr KFmt :=
  match f.toNat with
  | 0 => .ok .f32
  | 1 => .ok .bf16
  | 2 => .ok .f16
  | 3 => .ok .i32
  | _ => .error .field

def EvMode.bits : EvMode → BitVec 3
  | .writeInvalidate => 0
  | .writeKeep => 1
  | .drop => 2

/-- The modes of EVICT (R236, R247). -/
def dEvMode (f : BitVec 3) : Except DecErr EvMode :=
  match f.toNat with
  | 0 => .ok .writeInvalidate
  | 1 => .ok .writeKeep
  | 2 => .ok .drop
  | _ => .error .field

/-- The index of a system register (R152). -/
def SysReg.index : SysReg → BitVec 14
  | .fmode => 0x00
  | .flags => 0x01
  | .lc => 0x02
  | .ec => 0x03
  | .rrb => 0x04
  | .stkptr => 0x10
  | .stkbase => 0x11
  | .stklim => 0x12
  | .efr => 0x18
  | .dpb => 0x20
  | .fewaitlim => 0x21
  | .latcnt => 0x22
  | .cycle => 0x23
  | .wid => 0x30
  | .vrank => 0x31
  | .ctxid => 0x32
  | .tvec => 0x40
  | .trappc => 0x41
  | .trapcause => 0x42
  | .trapaddr => 0x43
  | .trapinfo => 0x44
  | .heat => 0x33
  | .spwbase => 0x34
  | .csasize => 0x35

/-- An index that R152 does not assign raises ILLOP with SUB 0x11 (R151). -/
def dSys (x : BitVec 14) : Except DecErr SysReg :=
  match x.toNat with
  | 0x00 => .ok .fmode
  | 0x01 => .ok .flags
  | 0x02 => .ok .lc
  | 0x03 => .ok .ec
  | 0x04 => .ok .rrb
  | 0x10 => .ok .stkptr
  | 0x11 => .ok .stkbase
  | 0x12 => .ok .stklim
  | 0x18 => .ok .efr
  | 0x20 => .ok .dpb
  | 0x21 => .ok .fewaitlim
  | 0x22 => .ok .latcnt
  | 0x23 => .ok .cycle
  | 0x30 => .ok .wid
  | 0x31 => .ok .vrank
  | 0x32 => .ok .ctxid
  | 0x33 => .ok .heat
  | 0x34 => .ok .spwbase
  | 0x35 => .ok .csasize
  | 0x40 => .ok .tvec
  | 0x41 => .ok .trappc
  | 0x42 => .ok .trapcause
  | 0x43 => .ok .trapaddr
  | 0x44 => .ok .trapinfo
  | _ => .error .field

/-! Joined immediates (R83). -/

def imm18 (F : Fields) : BitVec 18 := F.f ++ (BitVec.ofBool F.b ++ (F.a ++ F.e))
def off25 (F : Fields) : BitVec 25 := F.f ++ (BitVec.ofBool F.b ++ (F.d ++ (F.a ++ F.e)))
def off17 (F : Fields) : BitVec 17 := F.f ++ (F.a ++ F.e)
def code14 (F : Fields) : BitVec 14 := F.a ++ F.e

/-! Instruction shapes. -/

/-- Rejects an instruction whose operands its entry forbids (R82). -/
def checked (i : Instr) : Except DecErr Instr := if i.wf then .ok i else .error .field

def shInt (F : Fields) (k : Bool → Bool → SReg → SOp → SOp → Instr) : Except DecErr Instr := do
  let u ← dFlag F.f
  let d ← dReg F.d
  let a ← dSop F.a
  let e ← dSop F.e
  .ok (k u F.b d a e)

def shNone (F : Fields) (i : Instr) : Except DecErr Instr := do
  dZero F.f; dOff F.b; dZero F.d; dZero F.a; dZero F.e
  .ok i

def shFp (F : Fields) (k : Bool → Bool → SReg → SReg → SReg → Instr) : Except DecErr Instr := do
  let s ← dFlag F.f
  let d ← dReg F.d
  let a ← dReg F.a
  let e ← dReg F.e
  .ok (k s F.b d a e)

/-- The S-slot instructions (R92, R137 and their entries). -/
def decodeS (F : Fields) : Except DecErr Instr :=
  match F.op.toNat with
  | 0x00 => shNone F .nop
  | 0x01 => shInt F .add
  | 0x02 => shInt F .sub
  | 0x03 => shInt F .mul
  | 0x04 => shInt F .mulh
  | 0x05 => shInt F .div
  | 0x06 => shInt F .rem
  | 0x07 => shInt F .and
  | 0x08 => shInt F .or
  | 0x09 => shInt F .xor
  | 0x0A => shInt F .shl
  | 0x0B => shInt F .shr
  | 0x0C => shInt F .min
  | 0x0D => shInt F .max
  | 0x0E => do
    let d ← dDst F.d; let a ← dSop F.a; let e ← dSop F.e
    .ok (.cmp (Cond.of F.f) F.b d a e)
  | 0x0F => do
    let d ← dReg F.d; let a ← dSop F.a; let e ← dSop F.e
    .ok (.sel (F.f ++ BitVec.ofBool F.b) d a e)
  | 0x10 => do let d ← dReg F.d; .ok (.movi d (imm18 F))
  | 0x11 => do let d ← dReg F.d; .ok (.movsh d (imm18 F))
  | 0x12 => do
    dOff F.b
    let d ← dPred F.d; let a ← dPred F.a; let e ← dPred F.e
    .ok (.plog (PFun.of F.f) d a e)
  | 0x13 => do
    let s ← dFlag F.f; dOff F.b
    let d ← dReg F.d; let a ← dSop F.a; let e ← dSop F.e
    .ok (.bfx s d a e)
  | 0x14 => do
    let f ← dBFun F.f; let d ← dReg F.d; let a ← dSop F.a; dZero F.e
    .ok (.bitc f F.b d a)
  | 0x15 => do
    dOff F.b
    let d ← dReg F.d; let a ← dSop F.a; let e ← dSop F.e
    .ok (.lea F.f d a e)
  | 0x16 => do
    dZero F.f; dOff F.b
    let l ← dLidx F.d; let a ← dSop F.a; let e ← dSop F.e
    .ok (.lix l a e)
  | 0x17 => do
    dZero F.f
    if F.b then do dZero F.d; dZero F.a; dZero F.e; .ok .lixstepAll
    else do let l ← dLidx F.d; dZero F.a; dZero F.e; .ok (.lixstep l)
  | 0x18 => shFp F .fadd
  | 0x19 => do
    dZero F.f
    let d ← dReg F.d; let a ← dReg F.a; let e ← dReg F.e
    .ok (.fmul F.b d a e)
  | 0x1A => shFp F .fma
  | 0x1B => do
    let c ← dFCond F.f; dOff F.b
    let d ← dDst F.d; let a ← dReg F.a; let e ← dReg F.e
    .ok (.fcmp c d a e)
  | 0x1C => do
    let t ← dSTy F.f; let d ← dReg F.d; let a ← dReg F.a
    let s3 ← dRaw 3 F.e; let s ← dSTy s3
    checked (.fcvt t s F.b d a)
  | 0x1D => do
    let m ← dFlag F.f; dOff F.b
    let d ← dReg F.d; let a ← dReg F.a; let e ← dReg F.e
    .ok (.fminmax m d a e)
  | 0x20 => .ok (.br (off25 F))
  | 0x21 => do let p ← dRaw 4 F.d; .ok (.brp F.b p (off17 F))
  | 0x22 => do dZero F.f; dOff F.b; dZero F.d; let a ← dReg F.a; dZero F.e; .ok (.bri a)
  | 0x23 => .ok (.call (off25 F))
  | 0x24 => do dZero F.f; dOff F.b; dZero F.d; let a ← dReg F.a; dZero F.e; .ok (.calli a)
  | 0x25 => shNone F .ret
  | 0x26 => .ok (.loop (off25 F))
  | 0x27 => do
    dZero F.f; dOff F.b; dZero F.d
    let a ← dSop F.a; let e ← dSop F.e
    .ok (.loopset a e)
  | 0x28 => do
    dZero F.f; dOff F.b
    let d ← dReg F.d; let r ← dSys (code14 F)
    .ok (.srd d r)
  | 0x29 => do
    dZero F.f; dOff F.b
    let v ← dSop F.d; let r ← dSys (code14 F)
    .ok (.swr r v)
  | 0x2A => do dZero F.f; dOff F.b; dZero F.d; .ok (.trap (code14 F))
  | 0x2B => shNone F .eret
  | 0x2C => do dZero F.f; dOff F.b; dZero F.d; .ok (.brk (code14 F))
  | 0x2D => shNone F .tend
  | 0x2E => shNone F .taskCatch
  | 0x2F => shNone F .isync
  | 0x30 => do
    let c ← dFlag F.f; dOff F.b; dZero F.d
    let a ← dSop F.a; dZero F.e
    .ok (if c then .evsetClr a else .evset a)
  | 0x31 => do
    dZero F.f
    let d ← dDst F.d; let a ← dSop F.a; dZero F.e
    .ok (if F.b then .evtestTake d a else .evtest d a)
  | 0x32 =>
    if F.f = 6 then do
      dOff F.b; let d ← dReg F.d; dZero F.a; dZero F.e
      .ok (.widfW d)
    else do
      let d ← dReg F.d; let a ← dSop F.a; dZero F.e
      checked (if F.b then .widfPfx F.f d a else .widf F.f d a)
  | 0x33 =>
    match F.f.toNat with
    | 0 => do dOff F.b; dZero F.d; let a ← dSop F.a; dZero F.e; .ok (.flagopClr a)
    | 1 => do dOff F.b; dZero F.d; let a ← dSop F.a; dZero F.e; .ok (.flagopSet a)
    | 2 => do dOff F.b; let d ← dReg F.d; let a ← dSop F.a; dZero F.e; .ok (.flagopRdclr d a)
    | 3 => do dOff F.b; let d ← dPred F.d; let a ← dSop F.a; dZero F.e; .ok (.flagopTst d a)
    | _ => .error .field
  | 0x34 => shNone F .yield
  | 0x35 => do
    dZero F.f; dOff F.b
    let d ← dReg F.d; let a ← dReg F.a; let e ← dSop F.e
    .ok (.qlaunch d a e)
  | _ => .error .noOp

def shV3s (F : Fields) (ok : Fmt → Bool) (k : Fmt → Bool → Line → VSrc → VSrc → Instr) : Except DecErr Instr := do
  let f ← dFmt ok F.f; let d ← dLine F.d; let a ← dSrc F.a; let e ← dSrc F.e
  .ok (k f F.b d a e)

def shV3 (F : Fields) (ok : Fmt → Bool) (k : Fmt → Line → VSrc → VSrc → Instr) : Except DecErr Instr := do
  let f ← dFmt ok F.f; dOff F.b
  let d ← dLine F.d; let a ← dSrc F.a; let e ← dSrc F.e
  .ok (k f d a e)

def shV2s (F : Fields) (ok : Fmt → Bool) (k : Fmt → Bool → Line → VSrc → Instr) : Except DecErr Instr := do
  let f ← dFmt ok F.f; let d ← dLine F.d; let a ← dSrc F.a; dZero F.e
  .ok (k f F.b d a)

def shV2 (F : Fields) (ok : Fmt → Bool) (k : Fmt → Line → VSrc → Instr) : Except DecErr Instr := do
  let f ← dFmt ok F.f; dOff F.b
  let d ← dLine F.d; let a ← dSrc F.a; dZero F.e
  .ok (k f d a)

def shVbit (F : Fields) (k : Line → VSrc → VSrc → Instr) : Except DecErr Instr := do
  dZero F.f; dOff F.b
  let d ← dLine F.d; let a ← dSrc F.a; let e ← dSrc F.e
  .ok (k d a e)

def shVred (F : Fields) (ok : Fmt → Bool) (k : Fmt → SReg → VSrc → Instr) : Except DecErr Instr := do
  let f ← dFmt ok F.f; dOff F.b
  let d ← dDir11 F.d; let a ← dSrc F.a; dZero F.e
  .ok (k f d a)

/-- f3 is 110 (R162, R188). -/
def dI32 (f : BitVec 3) : Except DecErr Unit := if f = 6 then .ok () else .error .field

/-- The V-slot instructions (R93, R162, R188). -/
def decodeV (F : Fields) : Except DecErr Instr :=
  match F.op.toNat with
  | 0x01 => shV3s F (fun _ => true) .vadd
  | 0x02 => shV3s F (fun _ => true) .vsub
  | 0x03 => shV3s F (fun _ => true) .vmul
  | 0x04 => shV3s F (fun _ => true) .vmac
  | 0x05 => shV3s F (fun _ => true) .vmsb
  | 0x06 => shV3 F (fun _ => true) .vmin
  | 0x07 => shV3 F (fun _ => true) .vmax
  | 0x08 => shV2s F (fun _ => true) .vabs
  | 0x09 => shV2s F (fun _ => true) .vneg
  | 0x0A => do dZero F.f; dOff F.b; let d ← dLine F.d; let a ← dSrc F.a; dZero F.e; .ok (.vcpy d a)
  | 0x0B => shV3 F (fun _ => true) .vsel
  | 0x0C => shV3 F (fun _ => true) .vceq
  | 0x0D => shV3 F (fun _ => true) .vclt
  | 0x0E => shV3 F (fun _ => true) .vcle
  | 0x0F => shV3 F Fmt.isFP .vcun
  | 0x10 => shVbit F .vand
  | 0x11 => shVbit F .vor
  | 0x12 => shVbit F .vxor
  | 0x13 => do dI32 F.f; let d ← dLine F.d; let a ← dSrc F.a; let e ← dSrc F.e; .ok (.vshl F.b d a e)
  | 0x14 => do dI32 F.f; let d ← dLine F.d; let a ← dSrc F.a; let e ← dSrc F.e; .ok (.vshr F.b d a e)
  | 0x15 => do
    let d ← dLine F.d; let a ← dSrc F.a
    if F.e.getLsbD 6 then .error .field
    else .ok (.vcvt (Fmt.of F.f) (Fmt.of (F.e.extractLsb' 0 3)) F.b (F.e.extractLsb' 3 3) d a)
  | 0x16 => do
    let d ← dLine F.d; let a ← dSrc F.a; let sc ← dScale F.e
    checked (.vqnt (Fmt.of F.f) F.b sc d a)
  | 0x17 => do
    dZero F.f; let d ← dLine F.d; let a ← dSrc F.a; let sc ← dScale F.e
    checked (.vqspt F.b sc d a)
  | 0x18 => do
    let d ← dLine F.d; let a ← dSrc F.a; let sc ← dScale F.e
    checked (.vdqnt (Fmt.of F.f) F.b sc d a)
  | 0x19 => shV3s F Fmt.isFP .vscalb
  | 0x1A => shV2s F Fmt.isFW .vrcp
  | 0x1B => shV2s F Fmt.isFW .vrsq
  | 0x1C => shV2s F Fmt.isFW .vsqrt
  | 0x1D => shV2s F Fmt.isFW .vexp2
  | 0x1E => shV2s F Fmt.isFW .vlog2
  | 0x1F => shV2s F Fmt.isFW .vtanh
  | 0x20 => shV2s F Fmt.isFW .verf
  | 0x21 => do
    let f ← dFmt Fmt.isFWI F.f; let d ← dDir11 F.d; let a ← dSrc F.a; dZero F.e
    .ok (.vredadd f F.b d a)
  | 0x22 => shVred F (fun _ => true) .vredmax
  | 0x23 => shVred F (fun _ => true) .vredmin
  | 0x24 => shVred F Fmt.isArg .vargmax
  | 0x25 => do
    dZero F.f; dOff F.b
    let d ← dLine F.d; let a ← dSrc F.a; let e ← dDir11 F.e
    .ok (.vrot d a e)
  | 0x26 => shVbit F .vshuf
  | 0x27 => do
    dI32 F.f; dOff F.b
    let d ← dLine F.d; let a ← dDir11 F.a; let e ← dDir11 F.e
    .ok (.vrand d a e)
  | 0x28 => do dZero F.f; let d ← dLine F.d; let a ← dSrc F.a; dZero F.e; .ok (.vgumb F.b d a)
  | 0x29 => do
    let f ← dFmt Fmt.isFWI F.f; dOff F.b
    let d ← dLine F.d; let a ← dSrc F.a; let c ← dRaw 4 F.e
    .ok (.vdrop f d a c)
  | 0x2A => shVred F Fmt.isFP .vnfchk
  | 0x2B => do dI32 F.f; dOff F.b; let d ← dLine F.d; let a ← dDir11 F.a; dZero F.e; .ok (.viota d a)
  | 0x2C => shV3s F Fmt.isFWI .radd
  | 0x2D => shV3s F Fmt.isFWI .rsub
  | 0x2E => shV3s F Fmt.isFW .rmul
  | 0x2F => do
    let f ← dFmt Fmt.isHalf F.f; let d ← dLine F.d; let a ← dSrc F.a; let p ← dRaw 1 F.e
    .ok (.rnarw f F.b p d a)
  | 0x30 => shV2 F Fmt.isFW .rrelu
  | 0x31 => shV3s F Fmt.isFW .rscalb
  | 0x32 => do dI32 F.f; let d ← dLine F.d; let a ← dSrc F.a; let e ← dSrc F.e; .ok (.rshr F.b d a e)
  | 0x33 => shV3 F Fmt.isFWI .uadd
  | 0x34 => shV3 F Fmt.isFWI .usub
  | 0x35 => shV3 F Fmt.isFW .umul
  | 0x36 => do
    let f ← dFmt Fmt.isHalf F.f; dOff F.b
    let d ← dLine F.d; let a ← dSrc F.a; let p ← dRaw 1 F.e
    .ok (.unarw f p d a)
  | 0x37 => shV2 F Fmt.isFW .urelu
  | 0x38 => shV3 F Fmt.isFW .uscalb
  | 0x39 => do dI32 F.f; dOff F.b; let d ← dLine F.d; let a ← dSrc F.a; let e ← dSrc F.e; .ok (.ushr d a e)
  | _ => .error .noOp

def shAB (F : Fields) (k : SReg → SOp → Instr) : Except DecErr Instr := do
  dZero F.f; dOff F.b; dZero F.d
  let a ← dReg F.a; let e ← dSop F.e
  .ok (k a e)

def shAtom (F : Fields) (k : ASz → Bool → SReg → SReg → SOp → Instr) : Except DecErr Instr := do
  let sz ← dASz F.f; let d ← dReg F.d; let a ← dReg F.a; let e ← dSop F.e
  checked (k sz F.b d a e)

/-- The types of AMIN and AMAX: bit 2 of f3 is the sign, bits 1:0 the size (R281). -/
def shMinMax (F : Fields) (k : Bool → Sz → Bool → SReg → SReg → SOp → Instr) : Except DecErr Instr := do
  let sz ← dSz (0#1 ++ F.f.extractLsb' 0 2); let d ← dReg F.d; let a ← dReg F.a; let e ← dSop F.e
  .ok (k (F.f.getLsbD 2) sz F.b d a e)

def shDab (F : Fields) (k : SReg → SReg → SOp → Instr) : Except DecErr Instr := do
  dZero F.f; dOff F.b
  let d ← dReg F.d; let a ← dReg F.a; let e ← dSop F.e
  .ok (k d a e)

def shRing (F : Fields) (k : BitVec 4 → SOp → Instr) : Except DecErr Instr := do
  dZero F.f; dOff F.b
  let r ← dRaw 4 F.d; dZero F.a; let e ← dSop F.e
  .ok (k r e)

/-- The C-slot instructions (R94, R43, R189, R236, R266, R267, R276, R281, R284, R287, R295, R304, R310, R313). -/
def decodeC (F : Fields) : Except DecErr Instr :=
  match F.op.toNat with
  | 0x01 => do
    let sz ← dSz F.f; let d ← dReg F.d; let a ← dReg F.a; let e ← dSop F.e
    checked (.ld sz F.b d a e)
  | 0x02 => do
    let sz ← dSz F.f; dOff F.b
    let d ← dReg F.d; let a ← dReg F.a; let e ← dSop F.e
    .ok (.st sz d a e)
  | 0x03 => do dZero F.f; dOff F.b; let d ← dLine F.d; let a ← dReg F.a; let e ← dSop F.e; .ok (.ldln d a e)
  | 0x04 => do dZero F.f; dOff F.b; let d ← dLine F.d; let a ← dReg F.a; let e ← dSop F.e; .ok (.stln d a e)
  | 0x05 => do let d ← dReg F.d; let a ← dReg F.a; let e ← dSop F.e; .ok (.lda F.f F.b d a e)
  | 0x06 => do let d ← dReg F.d; let a ← dReg F.a; let e ← dSop F.e; .ok (.strel F.f F.b d a e)
  | 0x07 => do
    let w ← dDbl F.f; let d ← dReg F.d; let a ← dReg F.a; let e ← dSop F.e
    .ok (.ldw w F.b d a e)
  | 0x08 => do
    let w ← dDbl F.f; dOff F.b
    let d ← dReg F.d; let a ← dReg F.a; let e ← dSop F.e
    .ok (.stw w d a e)
  | 0x09 => shAB F .feclr
  | 0x0A => shAB F .feset
  | 0x0B => do dZero F.f; dOff F.b; let d ← dPred F.d; let a ← dReg F.a; let e ← dSop F.e; .ok (.fepoll d a e)
  | 0x0C => do let sz ← dSz F.f; let d ← dReg F.d; let a ← dReg F.a; let e ← dSop F.e; .ok (.aadd sz F.b d a e)
  | 0x0D => shMinMax F .amin
  | 0x0E => shMinMax F .amax
  | 0x0F => shAtom F .aand
  | 0x10 => shAtom F .aor
  | 0x11 => shAtom F .axor
  | 0x12 => shAtom F .aswap
  | 0x13 => shAtom F .acas
  | 0x14 =>
    match F.f.toNat with
    | 1 => do let d ← dReg F.d; let a ← dReg F.a; let e ← dSop F.e; .ok (.afadd false F.b d a e)
    | 2 => do let d ← dReg F.d; let a ← dReg F.a; let e ← dSop F.e; .ok (.afadd true F.b d a e)
    | _ => .error .field
  | 0x15 => do dZero F.f; dOff F.b; let d ← dPred F.d; let a ← dReg F.a; let e ← dSop F.e; .ok (.dqpush d a e)
  | 0x16 => do dZero F.f; dOff F.b; let d ← dReg F.d; let a ← dPred F.a; let e ← dSop F.e; .ok (.dqpop d a e)
  | 0x17 => do dZero F.f; dOff F.b; let d ← dReg F.d; let a ← dPred F.a; let e ← dSop F.e; .ok (.dqsteal d a e)
  | 0x18 => do
    dZero (F.f.extractLsb' 2 1); dOff F.b; let n ← dRaw 4 F.d
    checked (.bklock (F.f.extractLsb' 0 2 ++ (F.a ++ F.e)) n)
  | 0x19 => shAB F .lblk
  | 0x1A => do dOff F.b; let d ← dReg F.d; let a ← dReg F.a; let e ← dSop F.e; .ok (.probe F.f d a e)
  | 0x1B => do let m ← dEvMode F.f; dOff F.b; dZero F.d; dZero F.a; let e ← dSop F.e; .ok (.evict m e)
  | 0x1C => do dZero F.f; dOff F.b; dZero F.d; let a ← dReg F.a; dZero F.e; .ok (.cpy a)
  | 0x1D => do
    let d ← dReg F.d; let a ← dReg F.a; let e ← dReg F.e
    checked (.cpyt (Fmt.of F.f) F.b d a e)
  | 0x1E => do dZero F.f; dOff F.b; let r ← dRaw 4 F.d; let a ← dReg F.a; dZero F.e; .ok (.rgdef r a)
  | 0x1F => shRing F .rgadvt
  | 0x20 => shRing F .rgadvh
  | 0x21 => shRing F .rgwaitf
  | 0x22 => shRing F .rgwaite
  | 0x23 => shAB F .owngive
  | 0x24 => do
    let m ← dFlag F.f; dOff F.b
    let d ← dReg F.d; let a ← dSop F.a; dZero F.e
    .ok (.ownqry m d a)
  | 0x25 => shDab F .tdep
  | 0x26 => do dZero F.f; let d ← dReg F.d; let a ← dReg F.a; let e ← dSop F.e; .ok (.tcpy F.b d a e)
  | 0x27 => do dZero F.f; let d ← dReg F.d; let a ← dReg F.a; let e ← dSop F.e; .ok (.ttak F.b d a e)
  | 0x28 => do dZero F.f; dOff F.b; let d ← dReg F.d; dZero F.a; dZero F.e; .ok (.tcan d)
  | 0x29 => shDab F .chsend
  | 0x2A => shDab F .chrecv
  | 0x2B => do dZero F.f; dOff F.b; dZero F.d; let a ← dReg F.a; dZero F.e; .ok (.coll a)
  | 0x2C => shAB F .bkarm
  | 0x2D => do dZero F.f; dOff F.b; dZero F.d; let a ← dReg F.a; dZero F.e; .ok (.nmop a)
  | 0x2F => do
    dZero (F.d.extractLsb' 1 6); dZero F.a; dZero F.e
    .ok (match F.b, F.d.getLsbD 0 with
      | false, false => .fenceAcq F.f
      | false, true => .fenceRel F.f
      | true, false => .fenceFull F.f
      | true, true => .fenceJoin F.f)
  | 0x30 => do dOff F.b; dZero F.d; let a ← dReg F.a; let e ← dSop F.e; .ok (.icinv F.f a e)
  | 0x31 => do dZero F.f; dOff F.b; dZero F.d; let a ← dSop F.a; let e ← dSop F.e; .ok (.tkdec a e)
  | 0x32 => do dZero F.f; dOff F.b; dZero F.d; let a ← dSop F.a; dZero F.e; .ok (.rsmark a)
  | 0x33 =>
    match F.f.toNat with
    | 0 => do dOff F.b; dZero F.d; let a ← dSop F.a; dZero F.e; .ok (.rsdrop a)
    | 1 => do dOff F.b; let d ← dReg F.d; dZero F.a; dZero F.e; .ok (.rsdropMark d)
    | _ => .error .field
  | 0x34 => do
    let m ← dFlag F.f; dOff F.b; dZero F.d; dZero F.a; dZero F.e
    .ok (if m then .rssyncFlush else .rssync)
  | 0x35 => do
    let m ← dFlag F.f; dOff F.b; dZero F.d
    let a ← dReg F.a; let e ← dSop F.e
    .ok (.pref m a e)
  | _ => .error .noOp

/-- The M-slot instructions (R95, R209). -/
def decodeM (F : Fields) : Except DecErr Instr :=
  match F.op.toNat with
  | 0x01 => do
    let a ← dSop F.a; let g ← dRaw 3 F.e
    checked (.mcall (MFmt.of F.f) (MFmt.of g) F.b F.d a)
  | 0x02 => do dZero F.f; dOff F.b; let q ← dRaw 3 F.d; let a ← dSop F.a; dZero F.e; .ok (.mpset q a)
  | 0x03 => do dZero F.f; dOff F.b; let d ← dReg F.d; let q ← dRaw 3 F.a; dZero F.e; .ok (.mpget d q)
  | 0x04 => shNone F .mwait
  | 0x05 => shAB F .mload
  | 0x06 => do dZero F.f; dOff F.b; let t ← dRaw 3 F.d; dZero F.a; dZero F.e; .ok (.mzero t)
  | 0x07 => do dZero F.f; dOff F.b; let t ← dRaw 3 F.d; dZero F.a; dZero F.e; .ok (.mtran t)
  | _ => .error .noOp

/-- The K-slot instructions (R95, R183, R186). -/
def decodeK (F : Fields) : Except DecErr Instr :=
  match F.op.toNat with
  | 0x01 => do
    let f ← dKFmt F.f; dOff F.b
    let c ← dRaw 4 F.d; let a ← dReg F.a; let e ← dSop F.e
    .ok (.kld f c a e)
  | 0x02 => do
    let f ← dFlag F.f; dOff F.b
    let z ← dRaw 2 F.d; let a ← dReg F.a; let e ← dSop F.e
    .ok (.kldz f z a e)
  | 0x03 =>
    match F.f.toNat with
    | 0 => do dOff F.b; let c ← dRaw 4 F.d; let a ← dSop F.a; dZero F.e; .ok (.kmovCFromOp c a)
    | 1 => do dOff F.b; let d ← dReg F.d; let c ← dRaw 4 F.a; dZero F.e; .ok (.kmovSFromC d c)
    | 2 => do dOff F.b; let d ← dRaw 4 F.d; let c ← dRaw 4 F.a; dZero F.e; .ok (.kmovCFromC d c)
    | 3 => do dOff F.b; let c ← dRaw 4 F.d; let z ← dRaw 2 F.a; let e ← dSop F.e; .ok (.kmovCFromZ c z e)
    | 4 => do dOff F.b; let z ← dRaw 2 F.d; let c ← dRaw 4 F.a; let e ← dSop F.e; .ok (.kmovZFromC z c e)
    | _ => .error .field
  | 0x04 =>
    match F.f.toNat with
    | 0 => do dOff F.b; let c ← dRaw 4 F.d; let a ← dReg F.a; let e ← dSop F.e; .ok (.kst c a e)
    | 1 => do dOff F.b; let z ← dRaw 2 F.d; let a ← dReg F.a; let e ← dSop F.e; .ok (.kstZ z a e)
    | _ => .error .field
  | 0x05 => do dZero F.f; dOff F.b; dZero F.d; let a ← dSop F.a; dZero F.e; .ok (.ksetef a)
  | 0x06 => do dZero F.f; dOff F.b; let d ← dReg F.d; dZero F.a; dZero F.e; .ok (.kgetef d)
  | _ => .error .noOp

/-- The instruction of a slot word's fields by the opcode space of its slot kind (R79). -/
def decodeKind (sk : SlotKind) (F : Fields) : Except DecErr Instr :=
  match sk with
  | .s => decodeS F
  | .v => decodeV F
  | .m => decodeM F
  | .c => decodeC F
  | .k => decodeK F

/-- A field with a reserved special replaced by l0. -/
def unSpecial (x : BitVec 7) : BitVec 7 :=
  match dSop x with
  | .error .special => 96
  | _ => x

/-- The instruction of a slot word's fields (R84 steps 6 and 7). A word with both a field error and a reserved special raises
the lower SUB, 0x11 (log 11). -/
def decodeFields (sk : SlotKind) (F : Fields) : Except DecErr Instr :=
  match decodeKind sk F with
  | .error .special =>
    match decodeKind sk ⟨F.op, F.f, F.b, unSpecial F.d, unSpecial F.a, unSpecial F.e⟩ with
    | .error .field => .error .field
    | _ => .error .special
  | r => r

/-- The instruction of a slot word; its stop bit is checked with the bundle (R84 step 5). -/
def decodeSlot (sk : SlotKind) (w : Word32) : Except DecErr Instr := decodeFields sk (Fields.of w)

/-- The micro-op of a micro-word; `none` for a reserved UOP, a nonzero unused bit or a reserved code (R219, R380 step 1). -/
def decodeMicro (w : Word64) : Option Instr :=
  let ra : BitVec 4 := w.extractLsb' 54 4
  let rb : BitVec 4 := w.extractLsb' 50 4
  let k0 : BitVec 10 := w.extractLsb' 40 10
  let kn : BitVec 10 := w.extractLsb' 30 10
  let i : Option Instr :=
    match (w.extractLsb' 58 6).toNat with
    | 0x01 => if w.extractLsb' 0 58 = 0 then some .unop else none
    | 0x02 => if w.extractLsb' 0 30 = 0 then some (.mac ra rb k0 kn) else none
    | 0x03 => if w.extractLsb' 0 24 = 0 then
        some (.macs ra rb k0 kn (w.extractLsb' 26 4) (w.extractLsb' 24 2)) else none
    | 0x04 => if w.extractLsb' 0 30 = 0 then some (.macw ra rb k0 kn) else none
    | 0x05 => if w.extractLsb' 0 26 = 0 ∧ ra = 0 then
        some (.mact rb k0 kn (w.extractLsb' 27 3) (w.getLsbD 26)) else none
    | 0x06 => if w.extractLsb' 0 26 = 0 then
        some (.macg ra rb k0 kn (w.getLsbD 29) (w.extractLsb' 26 3)) else none
    | 0x08 => if w.extractLsb' 0 50 = 0 then some (.ringadv ra rb) else none
    | 0x09 => if w.extractLsb' 0 46 = 0 then some (.waitring ra (w.extractLsb' 46 8)) else none
    | 0x0A => if w.extractLsb' 0 55 = 0 then some (.setc (w.extractLsb' 55 3)) else none
    | 0x0B => if w.extractLsb' 0 52 = 0 then
        some (.accscl (w.getLsbD 57) (w.extractLsb' 53 4) (w.getLsbD 52)) else none
    | 0x0C => if w.extractLsb' 0 49 = 0 then
        some (.cvtout ra (w.extractLsb' 51 3) (w.getLsbD 50) (w.getLsbD 49)) else none
    | 0x10 => if w.extractLsb' 0 42 = 0 then
        some (.microLoop (w.extractLsb' 56 2) (w.extractLsb' 53 3) (w.extractLsb' 42 11)) else none
    | 0x11 => if w.extractLsb' 0 58 = 0 then some .exit else none
    | _ => none
  match i with
  | some i => if i.wf then some i else none
  | none => none

/-! Encoding. -/

/-- The fields of an instruction with its opcode and no others. -/
def fz (op : BitVec 6) : Fields := ⟨op, 0, false, 0, 0, 0⟩

def eInt (op : BitVec 6) (u w : Bool) (d : SReg) (a b : SOp) : Fields := ⟨op, flagF u, w, SReg.enc d, a.enc, b.enc⟩
def eFp (op : BitVec 6) (s t : Bool) (d a b : SReg) : Fields := ⟨op, flagF s, t, SReg.enc d, SReg.enc a, SReg.enc b⟩
def eOff (op : BitVec 6) (o : BitVec 25) : Fields :=
  ⟨op, o.extractLsb' 22 3, o.getLsbD 21, o.extractLsb' 14 7, o.extractLsb' 7 7, o.extractLsb' 0 7⟩
def eImm (op : BitVec 6) (d : SReg) (v : BitVec 18) : Fields :=
  ⟨op, v.extractLsb' 15 3, v.getLsbD 14, SReg.enc d, v.extractLsb' 7 7, v.extractLsb' 0 7⟩
def eV3 (op : BitVec 6) (f : Fmt) (s : Bool) (d : Line) (a b : VSrc) : Fields := ⟨op, f.bits, s, d.enc, a.enc, b.enc⟩
def eV2 (op : BitVec 6) (f : Fmt) (s : Bool) (d : Line) (a : VSrc) : Fields := ⟨op, f.bits, s, d.enc, a.enc, 0⟩
def eRed (op : BitVec 6) (f : Fmt) (s : Bool) (d : SReg) (a : VSrc) : Fields := ⟨op, f.bits, s, dir11 d, a.enc, 0⟩
def eC (op : BitVec 6) (f : BitVec 3) (b : Bool) (d a : SReg) (e : SOp) : Fields :=
  ⟨op, f, b, SReg.enc d, SReg.enc a, e.enc⟩
def eAB (op : BitVec 6) (a : SReg) (e : SOp) : Fields := ⟨op, 0, false, 0, SReg.enc a, e.enc⟩
def eRing (op : BitVec 6) (r : BitVec 4) (e : SOp) : Fields := ⟨op, 0, false, 0#3 ++ r, 0, e.enc⟩

/-- The slot kind and fields of a slot instruction; `none` for a micro-op, an event or a command, which have no slot word. -/
def encodeFields : Instr → Option (SlotKind × Fields)
  | .nop => some (.s, fz 0)
  | .add u w d a b => some (.s, eInt 0x01 u w d a b)
  | .sub u w d a b => some (.s, eInt 0x02 u w d a b)
  | .mul u w d a b => some (.s, eInt 0x03 u w d a b)
  | .mulh u w d a b => some (.s, eInt 0x04 u w d a b)
  | .div u w d a b => some (.s, eInt 0x05 u w d a b)
  | .rem u w d a b => some (.s, eInt 0x06 u w d a b)
  | .and u w d a b => some (.s, eInt 0x07 u w d a b)
  | .or u w d a b => some (.s, eInt 0x08 u w d a b)
  | .xor u w d a b => some (.s, eInt 0x09 u w d a b)
  | .shl u w d a b => some (.s, eInt 0x0A u w d a b)
  | .shr u w d a b => some (.s, eInt 0x0B u w d a b)
  | .min u w d a b => some (.s, eInt 0x0C u w d a b)
  | .max u w d a b => some (.s, eInt 0x0D u w d a b)
  | .cmp c w d a b => some (.s, ⟨0x0E, c.bits, w, d.enc, a.enc, b.enc⟩)
  | .sel p d a b => some (.s, ⟨0x0F, p.extractLsb' 1 3, p.getLsbD 0, SReg.enc d, a.enc, b.enc⟩)
  | .movi d v => some (.s, eImm 0x10 d v)
  | .movsh d v => some (.s, eImm 0x11 d v)
  | .plog f d a b => some (.s, ⟨0x12, f.bits, false, PReg.enc d, PReg.enc a, PReg.enc b⟩)
  | .bfx s d a b => some (.s, ⟨0x13, flagF s, false, SReg.enc d, a.enc, b.enc⟩)
  | .bitc f w d a => some (.s, ⟨0x14, f.bits, w, SReg.enc d, a.enc, 0⟩)
  | .lea k d a b => some (.s, ⟨0x15, k, false, SReg.enc d, a.enc, b.enc⟩)
  | .lix l a b => some (.s, ⟨0x16, 0, false, 24#5 ++ l, a.enc, b.enc⟩)
  | .lixstep l => some (.s, ⟨0x17, 0, false, 24#5 ++ l, 0, 0⟩)
  | .lixstepAll => some (.s, ⟨0x17, 0, true, 0, 0, 0⟩)
  | .fadd s t d a b => some (.s, eFp 0x18 s t d a b)
  | .fmul t d a b => some (.s, eFp 0x19 false t d a b)
  | .fma s t d a b => some (.s, eFp 0x1A s t d a b)
  | .fcmp c d a b => some (.s, ⟨0x1B, c.bits, false, d.enc, SReg.enc a, SReg.enc b⟩)
  | .fcvt t s sat d a => some (.s, ⟨0x1C, t.bits, sat, SReg.enc d, SReg.enc a, 0#4 ++ s.bits⟩)
  | .fminmax m d a b => some (.s, eFp 0x1D m false d a b)
  | .br o => some (.s, eOff 0x20 o)
  | .brp n p o => some (.s, ⟨0x21, o.extractLsb' 14 3, n, 0#3 ++ p, o.extractLsb' 7 7, o.extractLsb' 0 7⟩)
  | .bri a => some (.s, ⟨0x22, 0, false, 0, SReg.enc a, 0⟩)
  | .call o => some (.s, eOff 0x23 o)
  | .calli a => some (.s, ⟨0x24, 0, false, 0, SReg.enc a, 0⟩)
  | .ret => some (.s, fz 0x25)
  | .loop o => some (.s, eOff 0x26 o)
  | .loopset a b => some (.s, ⟨0x27, 0, false, 0, a.enc, b.enc⟩)
  | .srd d r => some (.s, ⟨0x28, 0, false, SReg.enc d, r.index.extractLsb' 7 7, r.index.extractLsb' 0 7⟩)
  | .swr r a => some (.s, ⟨0x29, 0, false, a.enc, r.index.extractLsb' 7 7, r.index.extractLsb' 0 7⟩)
  | .trap c => some (.s, ⟨0x2A, 0, false, 0, c.extractLsb' 7 7, c.extractLsb' 0 7⟩)
  | .eret => some (.s, fz 0x2B)
  | .brk c => some (.s, ⟨0x2C, 0, false, 0, c.extractLsb' 7 7, c.extractLsb' 0 7⟩)
  | .tend => some (.s, fz 0x2D)
  | .taskCatch => some (.s, fz 0x2E)
  | .isync => some (.s, fz 0x2F)
  | .evset a => some (.s, ⟨0x30, 0, false, 0, a.enc, 0⟩)
  | .evsetClr a => some (.s, ⟨0x30, 1, false, 0, a.enc, 0⟩)
  | .evtest d a => some (.s, ⟨0x31, 0, false, d.enc, a.enc, 0⟩)
  | .evtestTake d a => some (.s, ⟨0x31, 0, true, d.enc, a.enc, 0⟩)
  | .widf k d a => some (.s, ⟨0x32, k, false, SReg.enc d, a.enc, 0⟩)
  | .widfPfx k d a => some (.s, ⟨0x32, k, true, SReg.enc d, a.enc, 0⟩)
  | .widfW d => some (.s, ⟨0x32, 6, false, SReg.enc d, 0, 0⟩)
  | .flagopClr a => some (.s, ⟨0x33, 0, false, 0, a.enc, 0⟩)
  | .flagopSet a => some (.s, ⟨0x33, 1, false, 0, a.enc, 0⟩)
  | .flagopRdclr d a => some (.s, ⟨0x33, 2, false, SReg.enc d, a.enc, 0⟩)
  | .flagopTst d a => some (.s, ⟨0x33, 3, false, PReg.enc d, a.enc, 0⟩)
  | .yield => some (.s, fz 0x34)
  | .qlaunch d a b => some (.s, eC 0x35 0 false d a b)
  | .vadd f s d a b => some (.v, eV3 0x01 f s d a b)
  | .vsub f s d a b => some (.v, eV3 0x02 f s d a b)
  | .vmul f s d a b => some (.v, eV3 0x03 f s d a b)
  | .vmac f s d a b => some (.v, eV3 0x04 f s d a b)
  | .vmsb f s d a b => some (.v, eV3 0x05 f s d a b)
  | .vmin f d a b => some (.v, eV3 0x06 f false d a b)
  | .vmax f d a b => some (.v, eV3 0x07 f false d a b)
  | .vabs f s d a => some (.v, eV2 0x08 f s d a)
  | .vneg f s d a => some (.v, eV2 0x09 f s d a)
  | .vcpy d a => some (.v, eV2 0x0A .f32 false d a)
  | .vsel f d a b => some (.v, eV3 0x0B f false d a b)
  | .vceq f d a b => some (.v, eV3 0x0C f false d a b)
  | .vclt f d a b => some (.v, eV3 0x0D f false d a b)
  | .vcle f d a b => some (.v, eV3 0x0E f false d a b)
  | .vcun f d a b => some (.v, eV3 0x0F f false d a b)
  | .vand d a b => some (.v, eV3 0x10 .f32 false d a b)
  | .vor d a b => some (.v, eV3 0x11 .f32 false d a b)
  | .vxor d a b => some (.v, eV3 0x12 .f32 false d a b)
  | .vshl s d a b => some (.v, eV3 0x13 .i32 s d a b)
  | .vshr s d a b => some (.v, eV3 0x14 .i32 s d a b)
  | .vcvt t s sat p d a => some (.v, ⟨0x15, t.bits, sat, d.enc, a.enc, 0#1 ++ (p ++ s.bits)⟩)
  | .vqnt f s sc d a => some (.v, ⟨0x16, f.bits, s, d.enc, a.enc, sc.enc⟩)
  | .vqspt s sc d a => some (.v, ⟨0x17, 0, s, d.enc, a.enc, sc.enc⟩)
  | .vdqnt f s sc d a => some (.v, ⟨0x18, f.bits, s, d.enc, a.enc, sc.enc⟩)
  | .vscalb f s d a b => some (.v, eV3 0x19 f s d a b)
  | .vrcp f s d a => some (.v, eV2 0x1A f s d a)
  | .vrsq f s d a => some (.v, eV2 0x1B f s d a)
  | .vsqrt f s d a => some (.v, eV2 0x1C f s d a)
  | .vexp2 f s d a => some (.v, eV2 0x1D f s d a)
  | .vlog2 f s d a => some (.v, eV2 0x1E f s d a)
  | .vtanh f s d a => some (.v, eV2 0x1F f s d a)
  | .verf f s d a => some (.v, eV2 0x20 f s d a)
  | .vredadd f s d a => some (.v, eRed 0x21 f s d a)
  | .vredmax f d a => some (.v, eRed 0x22 f false d a)
  | .vredmin f d a => some (.v, eRed 0x23 f false d a)
  | .vargmax f d a => some (.v, eRed 0x24 f false d a)
  | .vrot d a b => some (.v, ⟨0x25, 0, false, d.enc, a.enc, dir11 b⟩)
  | .vshuf d a b => some (.v, eV3 0x26 .f32 false d a b)
  | .vrand d a b => some (.v, ⟨0x27, 6, false, d.enc, dir11 a, dir11 b⟩)
  | .vgumb s d a => some (.v, eV2 0x28 .f32 s d a)
  | .vdrop f d a c => some (.v, ⟨0x29, f.bits, false, d.enc, a.enc, 0#3 ++ c⟩)
  | .vnfchk f d a => some (.v, eRed 0x2A f false d a)
  | .viota d a => some (.v, ⟨0x2B, 6, false, d.enc, dir11 a, 0⟩)
  | .radd f s d a b => some (.v, eV3 0x2C f s d a b)
  | .rsub f s d a b => some (.v, eV3 0x2D f s d a b)
  | .rmul f s d a b => some (.v, eV3 0x2E f s d a b)
  | .rnarw f s p d a => some (.v, ⟨0x2F, f.bits, s, d.enc, a.enc, 0#6 ++ p⟩)
  | .rrelu f d a => some (.v, eV2 0x30 f false d a)
  | .rscalb f s d a b => some (.v, eV3 0x31 f s d a b)
  | .rshr s d a b => some (.v, eV3 0x32 .i32 s d a b)
  | .uadd f d a b => some (.v, eV3 0x33 f false d a b)
  | .usub f d a b => some (.v, eV3 0x34 f false d a b)
  | .umul f d a b => some (.v, eV3 0x35 f false d a b)
  | .unarw f p d a => some (.v, ⟨0x36, f.bits, false, d.enc, a.enc, 0#6 ++ p⟩)
  | .urelu f d a => some (.v, eV2 0x37 f false d a)
  | .uscalb f d a b => some (.v, eV3 0x38 f false d a b)
  | .ushr d a b => some (.v, eV3 0x39 .i32 false d a b)
  | .ld sz s d a b => some (.c, eC 0x01 sz.bits s d a b)
  | .st sz d a b => some (.c, eC 0x02 sz.bits false d a b)
  | .ldln d a b => some (.c, ⟨0x03, 0, false, d.enc, SReg.enc a, b.enc⟩)
  | .stln d a b => some (.c, ⟨0x04, 0, false, d.enc, SReg.enc a, b.enc⟩)
  | .lda n w d a b => some (.c, eC 0x05 n w d a b)
  | .strel n w d a b => some (.c, eC 0x06 n w d a b)
  | .ldw w c d a b => some (.c, eC 0x07 (dblF w) c d a b)
  | .stw w d a b => some (.c, eC 0x08 (dblF w) false d a b)
  | .feclr a b => some (.c, eAB 0x09 a b)
  | .feset a b => some (.c, eAB 0x0A a b)
  | .fepoll d a b => some (.c, ⟨0x0B, 0, false, PReg.enc d, SReg.enc a, b.enc⟩)
  | .aadd sz o d a b => some (.c, eC 0x0C sz.bits o d a b)
  | .amin s sz o d a b => some (.c, eC 0x0D (BitVec.ofBool s ++ sz.bits.extractLsb' 0 2) o d a b)
  | .amax s sz o d a b => some (.c, eC 0x0E (BitVec.ofBool s ++ sz.bits.extractLsb' 0 2) o d a b)
  | .aand sz o d a b => some (.c, eC 0x0F sz.bits o d a b)
  | .aor sz o d a b => some (.c, eC 0x10 sz.bits o d a b)
  | .axor sz o d a b => some (.c, eC 0x11 sz.bits o d a b)
  | .aswap sz o d a b => some (.c, eC 0x12 sz.bits o d a b)
  | .acas sz o d a b => some (.c, eC 0x13 sz.bits o d a b)
  | .afadd f o d a b => some (.c, eC 0x14 (if f then 2 else 1) o d a b)
  | .dqpush d a b => some (.c, ⟨0x15, 0, false, PReg.enc d, SReg.enc a, b.enc⟩)
  | .dqpop d p b => some (.c, ⟨0x16, 0, false, SReg.enc d, PReg.enc p, b.enc⟩)
  | .dqsteal d p b => some (.c, ⟨0x17, 0, false, SReg.enc d, PReg.enc p, b.enc⟩)
  | .bklock m n => some (.c, ⟨0x18, 0#1 ++ m.extractLsb' 14 2, false, 0#3 ++ n, m.extractLsb' 7 7, m.extractLsb' 0 7⟩)
  | .lblk a b => some (.c, eAB 0x19 a b)
  | .probe k d a b => some (.c, eC 0x1A k false d a b)
  | .evict m b => some (.c, ⟨0x1B, m.bits, false, 0, 0, b.enc⟩)
  | .cpy a => some (.c, ⟨0x1C, 0, false, 0, SReg.enc a, 0⟩)
  | .cpyt f t d a b => some (.c, ⟨0x1D, f.bits, t, SReg.enc d, SReg.enc a, SReg.enc b⟩)
  | .rgdef r a => some (.c, ⟨0x1E, 0, false, 0#3 ++ r, SReg.enc a, 0⟩)
  | .rgadvt r b => some (.c, eRing 0x1F r b)
  | .rgadvh r b => some (.c, eRing 0x20 r b)
  | .rgwaitf r b => some (.c, eRing 0x21 r b)
  | .rgwaite r b => some (.c, eRing 0x22 r b)
  | .owngive a b => some (.c, eAB 0x23 a b)
  | .ownqry m d a => some (.c, ⟨0x24, flagF m, false, SReg.enc d, a.enc, 0⟩)
  | .tdep r a b => some (.c, eC 0x25 0 false r a b)
  | .tcpy n r a b => some (.c, eC 0x26 0 n r a b)
  | .ttak n r a b => some (.c, eC 0x27 0 n r a b)
  | .tcan r => some (.c, ⟨0x28, 0, false, SReg.enc r, 0, 0⟩)
  | .chsend r a b => some (.c, eC 0x29 0 false r a b)
  | .chrecv r a b => some (.c, eC 0x2A 0 false r a b)
  | .coll a => some (.c, ⟨0x2B, 0, false, 0, SReg.enc a, 0⟩)
  | .bkarm a b => some (.c, eAB 0x2C a b)
  | .nmop a => some (.c, ⟨0x2D, 0, false, 0, SReg.enc a, 0⟩)
  | .fenceAcq n => some (.c, ⟨0x2F, n, false, 0, 0, 0⟩)
  | .fenceRel n => some (.c, ⟨0x2F, n, false, 1, 0, 0⟩)
  | .fenceFull n => some (.c, ⟨0x2F, n, true, 0, 0, 0⟩)
  | .fenceJoin n => some (.c, ⟨0x2F, n, true, 1, 0, 0⟩)
  | .icinv n a b => some (.c, ⟨0x30, n, false, 0, SReg.enc a, b.enc⟩)
  | .tkdec a b => some (.c, ⟨0x31, 0, false, 0, a.enc, b.enc⟩)
  | .rsmark a => some (.c, ⟨0x32, 0, false, 0, a.enc, 0⟩)
  | .rsdrop a => some (.c, ⟨0x33, 0, false, 0, a.enc, 0⟩)
  | .rsdropMark d => some (.c, ⟨0x33, 1, false, SReg.enc d, 0, 0⟩)
  | .rssync => some (.c, fz 0x34)
  | .rssyncFlush => some (.c, ⟨0x34, 1, false, 0, 0, 0⟩)
  | .pref m a b => some (.c, ⟨0x35, flagF m, false, 0, SReg.enc a, b.enc⟩)
  | .mcall fa fb o n a => some (.m, ⟨0x01, fa.bits, o, n, a.enc, 0#4 ++ fb.bits⟩)
  | .mpset q a => some (.m, ⟨0x02, 0, false, 0#4 ++ q, a.enc, 0⟩)
  | .mpget d q => some (.m, ⟨0x03, 0, false, SReg.enc d, 0#4 ++ q, 0⟩)
  | .mwait => some (.m, fz 0x04)
  | .mload a b => some (.m, eAB 0x05 a b)
  | .mzero t => some (.m, ⟨0x06, 0, false, 0#4 ++ t, 0, 0⟩)
  | .mtran t => some (.m, ⟨0x07, 0, false, 0#4 ++ t, 0, 0⟩)
  | .kld f c a b => some (.k, ⟨0x01, f.bits, false, 0#3 ++ c, SReg.enc a, b.enc⟩)
  | .kldz f z a b => some (.k, ⟨0x02, flagF f, false, 0#5 ++ z, SReg.enc a, b.enc⟩)
  | .kmovCFromOp c a => some (.k, ⟨0x03, 0, false, 0#3 ++ c, a.enc, 0⟩)
  | .kmovSFromC d c => some (.k, ⟨0x03, 1, false, SReg.enc d, 0#3 ++ c, 0⟩)
  | .kmovCFromC d c => some (.k, ⟨0x03, 2, false, 0#3 ++ d, 0#3 ++ c, 0⟩)
  | .kmovCFromZ c z b => some (.k, ⟨0x03, 3, false, 0#3 ++ c, 0#5 ++ z, b.enc⟩)
  | .kmovZFromC z c b => some (.k, ⟨0x03, 4, false, 0#5 ++ z, 0#3 ++ c, b.enc⟩)
  | .kst c a b => some (.k, ⟨0x04, 0, false, 0#3 ++ c, SReg.enc a, b.enc⟩)
  | .kstZ z a b => some (.k, ⟨0x04, 1, false, 0#5 ++ z, SReg.enc a, b.enc⟩)
  | .ksetef a => some (.k, ⟨0x05, 0, false, 0, a.enc, 0⟩)
  | .kgetef d => some (.k, ⟨0x06, 0, false, SReg.enc d, 0, 0⟩)
  | _ => none

/-- The micro-word of a micro-op (R219). -/
def encodeMicro : Instr → Option Word64
  | .unop => some (1#6 ++ 0#58)
  | .mac ra rb k0 kn => some (2#6 ++ (ra ++ (rb ++ (k0 ++ (kn ++ 0#30)))))
  | .macs ra rb k0 kn rm ns => some (3#6 ++ (ra ++ (rb ++ (k0 ++ (kn ++ (rm ++ (ns ++ 0#24)))))))
  | .macw ra rb k0 kn => some (4#6 ++ (ra ++ (rb ++ (k0 ++ (kn ++ 0#30)))))
  | .mact rb k0 kn t d => some (5#6 ++ (0#4 ++ (rb ++ (k0 ++ (kn ++ (t ++ (BitVec.ofBool d ++ 0#26)))))))
  | .macg ra rb k0 kn g q => some (6#6 ++ (ra ++ (rb ++ (k0 ++ (kn ++ (BitVec.ofBool g ++ (q ++ 0#26)))))))
  | .ringadv r c => some (8#6 ++ (r ++ (c ++ 0#50)))
  | .waitring r c => some (9#6 ++ (r ++ (c ++ 0#46)))
  | .setc q => some (10#6 ++ (q ++ 0#55))
  | .accscl z r d => some (11#6 ++ (BitVec.ofBool z ++ (r ++ (BitVec.ofBool d ++ 0#52))))
  | .cvtout r f s t => some (12#6 ++ (r ++ (f ++ (BitVec.ofBool s ++ (BitVec.ofBool t ++ 0#49)))))
  | .microLoop c q t => some (16#6 ++ (c ++ (q ++ (t ++ 0#42))))
  | .exit => some (17#6 ++ 0#58)
  | _ => none

/-- The words of an instruction: one slot word, or one micro-word as two 32-bit words, low first (R3, R79, R219); no word
for an event or a command. The slot kind says where the word may stand. -/
def encode (i : Instr) (stop : Bool) : List Word32 :=
  match encodeFields i with
  | some (_, F) => [F.word stop]
  | none =>
    match encodeMicro i with
    | some w => [w.extractLsb' 0 32, w.extractLsb' 32 32]
    | none => []

/-! The bundle header (R78). -/

/-- The slots of a bundle in mask order (R76). -/
inductive Slot where
  | s
  | v0
  | v1
  | m
  | c0
  | c1
  | k
  deriving DecidableEq, Repr

/-- The slot kind of a slot (R79). -/
def Slot.kind : Slot → SlotKind
  | .s => .s
  | .v0 => .v
  | .v1 => .v
  | .m => .m
  | .c0 => .c
  | .c1 => .c
  | .k => .k

/-- The SLOT code of TRAPINFO (R85). -/
def Slot.code : Slot → Nat
  | .s => 0
  | .v0 => 1
  | .v1 => 2
  | .m => 3
  | .c0 => 4
  | .c1 => 5
  | .k => 6

/-- The order in which results landing together stand: K, S, V0, V1, M, C0, C1 (R112). -/
def Slot.rank : Slot → Nat
  | .k => 0
  | .s => 1
  | .v0 => 2
  | .v1 => 3
  | .m => 4
  | .c0 => 5
  | .c1 => 6

/-- The slots in mask order (R76). -/
def maskOrder : List Slot := [.s, .v0, .v1, .m, .c0, .c1, .k]

/-- The slots in the order of R112. -/
def slotOrder : List Slot := [.k, .s, .v0, .v1, .m, .c0, .c1]

/-- The mask bit of a slot (R78). -/
def maskBit (h : Word32) : Slot → Bool
  | .s => h.getLsbD 25
  | .v0 => h.getLsbD 24
  | .v1 => h.getLsbD 23
  | .m => h.getLsbD 22
  | .c0 => h.getLsbD 21
  | .c1 => h.getLsbD 20
  | .k => h.getLsbD 19

/-- The MRF read ports a header allots to a slot (R78); S and K have none. -/
def allot (h : Word32) : Slot → Nat
  | .v0 => (h.extractLsb' 17 2).toNat
  | .v1 => (h.extractLsb' 15 2).toNat
  | .m => (h.extractLsb' 13 2).toNat
  | .c0 => (h.extractLsb' 12 1).toNat
  | .c1 => (h.extractLsb' 11 1).toNat
  | _ => 0

def allotSum (h : Word32) : Nat := allot h .v0 + allot h .v1 + allot h .m + allot h .c0 + allot h .c1

/-- The slots present in a header's mask, in mask order (R76, R78). -/
def present (h : Word32) : List Slot := maskOrder.filter (maskBit h)

/-- A header is told from any other word only by its mark (R77). -/
def isHeader (w : Word32) : Bool := w.extractLsb' 27 4 == 15

/-- The ILLBUNDLE code that a header raises on itself, steps 1 and 2 of R84; `none` when it passes both. -/
def headerFault (h : Word32) : Option Nat :=
  if h.getLsbD 31 then some 0x01
  else if h.extractLsb' 0 6 ≠ 0 then some 0x02
  else if present h = [] then some 0x03
  else if allotSum h > 4 then some 0x04
  else if [Slot.v0, .v1, .m, .c0, .c1].any (fun sl => !maskBit h sl && allot h sl != 0) then some 0x05
  else none

/-! Line operands (R86, R106). -/

def VSrc.tiles : VSrc → List (BitVec 3)
  | .line l => [l.tile]
  | .bc _ => []

/-- The tiles named by an instruction's line operands: the destination (if it is a line) and the sources. -/
def Instr.lineTiles : Instr → List (BitVec 3)
  | .vadd _ _ d a b => d.tile :: (a.tiles ++ b.tiles)
  | .vsub _ _ d a b => d.tile :: (a.tiles ++ b.tiles)
  | .vmul _ _ d a b => d.tile :: (a.tiles ++ b.tiles)
  | .vmac _ _ d a b => d.tile :: (a.tiles ++ b.tiles)
  | .vmsb _ _ d a b => d.tile :: (a.tiles ++ b.tiles)
  | .vmin _ d a b => d.tile :: (a.tiles ++ b.tiles)
  | .vmax _ d a b => d.tile :: (a.tiles ++ b.tiles)
  | .vabs _ _ d a => d.tile :: a.tiles
  | .vneg _ _ d a => d.tile :: a.tiles
  | .vcpy d a => d.tile :: a.tiles
  | .vsel _ d a b => d.tile :: (a.tiles ++ b.tiles)
  | .vceq _ d a b => d.tile :: (a.tiles ++ b.tiles)
  | .vclt _ d a b => d.tile :: (a.tiles ++ b.tiles)
  | .vcle _ d a b => d.tile :: (a.tiles ++ b.tiles)
  | .vcun _ d a b => d.tile :: (a.tiles ++ b.tiles)
  | .vand d a b => d.tile :: (a.tiles ++ b.tiles)
  | .vor d a b => d.tile :: (a.tiles ++ b.tiles)
  | .vxor d a b => d.tile :: (a.tiles ++ b.tiles)
  | .vshl _ d a b => d.tile :: (a.tiles ++ b.tiles)
  | .vshr _ d a b => d.tile :: (a.tiles ++ b.tiles)
  | .vcvt _ _ _ _ d a => d.tile :: a.tiles
  | .vqnt _ _ _ d a => d.tile :: a.tiles
  | .vqspt _ _ d a => d.tile :: a.tiles
  | .vdqnt _ _ _ d a => d.tile :: a.tiles
  | .vscalb _ _ d a b => d.tile :: (a.tiles ++ b.tiles)
  | .vrcp _ _ d a => d.tile :: a.tiles
  | .vrsq _ _ d a => d.tile :: a.tiles
  | .vsqrt _ _ d a => d.tile :: a.tiles
  | .vexp2 _ _ d a => d.tile :: a.tiles
  | .vlog2 _ _ d a => d.tile :: a.tiles
  | .vtanh _ _ d a => d.tile :: a.tiles
  | .verf _ _ d a => d.tile :: a.tiles
  | .vredadd _ _ _ a => a.tiles
  | .vredmax _ _ a => a.tiles
  | .vredmin _ _ a => a.tiles
  | .vargmax _ _ a => a.tiles
  | .vrot d a _ => d.tile :: a.tiles
  | .vshuf d a b => d.tile :: (a.tiles ++ b.tiles)
  | .vrand d _ _ => [d.tile]
  | .vgumb _ d a => d.tile :: a.tiles
  | .vdrop _ d a _ => d.tile :: a.tiles
  | .vnfchk _ _ a => a.tiles
  | .viota d _ => [d.tile]
  | .radd _ _ d a b => d.tile :: (a.tiles ++ b.tiles)
  | .rsub _ _ d a b => d.tile :: (a.tiles ++ b.tiles)
  | .rmul _ _ d a b => d.tile :: (a.tiles ++ b.tiles)
  | .rnarw _ _ _ d a => d.tile :: a.tiles
  | .rrelu _ d a => d.tile :: a.tiles
  | .rscalb _ _ d a b => d.tile :: (a.tiles ++ b.tiles)
  | .rshr _ d a b => d.tile :: (a.tiles ++ b.tiles)
  | .uadd _ d a b => d.tile :: (a.tiles ++ b.tiles)
  | .usub _ d a b => d.tile :: (a.tiles ++ b.tiles)
  | .umul _ d a b => d.tile :: (a.tiles ++ b.tiles)
  | .unarw _ _ d a => d.tile :: a.tiles
  | .urelu _ d a => d.tile :: a.tiles
  | .uscalb _ d a b => d.tile :: (a.tiles ++ b.tiles)
  | .ushr d a b => d.tile :: (a.tiles ++ b.tiles)
  | .ldln d _ _ => [d.tile]
  | .stln d _ _ => [d.tile]
  | _ => []

def VSrc.count : VSrc → Nat
  | .line _ => 1
  | .bc _ => 0

/-- The MRF lines an instruction reads at issue (R86, R162, R188, R236). -/
def Instr.lines : Instr → Nat
  | .vadd _ _ _ a b => a.count + b.count
  | .vsub _ _ _ a b => a.count + b.count
  | .vmul _ _ _ a b => a.count + b.count
  | .vmac _ _ _ a b => 1 + a.count + b.count
  | .vmsb _ _ _ a b => 1 + a.count + b.count
  | .vmin _ _ a b => a.count + b.count
  | .vmax _ _ a b => a.count + b.count
  | .vabs _ _ _ a => a.count
  | .vneg _ _ _ a => a.count
  | .vcpy _ a => a.count
  | .vsel _ _ a b => 1 + a.count + b.count
  | .vceq _ _ a b => a.count + b.count
  | .vclt _ _ a b => a.count + b.count
  | .vcle _ _ a b => a.count + b.count
  | .vcun _ _ a b => a.count + b.count
  | .vand _ a b => a.count + b.count
  | .vor _ a b => a.count + b.count
  | .vxor _ a b => a.count + b.count
  | .vshl _ _ a b => a.count + b.count
  | .vshr _ _ a b => a.count + b.count
  | .vcvt _ _ _ _ _ a => 1 + a.count
  | .vqnt _ _ _ _ a => 1 + a.count
  | .vqspt _ _ _ a => 1 + a.count
  | .vdqnt _ _ _ _ a => a.count
  | .vscalb _ _ _ a b => a.count + b.count
  | .vrcp _ _ _ a => a.count
  | .vrsq _ _ _ a => a.count
  | .vsqrt _ _ _ a => a.count
  | .vexp2 _ _ _ a => a.count
  | .vlog2 _ _ _ a => a.count
  | .vtanh _ _ _ a => a.count
  | .verf _ _ _ a => a.count
  | .vredadd _ _ _ a => a.count
  | .vredmax _ _ a => a.count
  | .vredmin _ _ a => a.count
  | .vargmax _ _ a => a.count
  | .vrot _ a _ => a.count
  | .vshuf _ a b => a.count + b.count
  | .vgumb _ _ a => a.count
  | .vdrop _ _ a _ => 1 + a.count
  | .vnfchk _ _ a => a.count
  | .radd _ _ _ a b => a.count + b.count
  | .rsub _ _ _ a b => a.count + b.count
  | .rmul _ _ _ a b => a.count + b.count
  | .rnarw _ _ _ _ a => 1 + a.count
  | .rrelu _ _ a => a.count
  | .rscalb _ _ _ a b => a.count + b.count
  | .rshr _ _ a b => a.count + b.count
  | .uadd _ _ a b => a.count + b.count
  | .usub _ _ a b => a.count + b.count
  | .umul _ _ a b => a.count + b.count
  | .unarw _ _ _ a => a.count
  | .urelu _ _ a => a.count
  | .uscalb _ _ a b => a.count + b.count
  | .ushr _ a b => a.count + b.count
  | .stln _ _ _ => 1
  | _ => 0

/-- A 4-tile task names t4-t7 in no line operand (R106). -/
def Instr.tilesOk (tiles4 : Bool) (i : Instr) : Bool :=
  !tiles4 || i.lineTiles.all (fun t => t.toNat < 4)

/-- The forward instructions of the reversible class (R188). -/
def Instr.isForward : Instr → Bool
  | .radd .. => true
  | .rsub .. => true
  | .rmul .. => true
  | .rnarw .. => true
  | .rrelu .. => true
  | .rscalb .. => true
  | .rshr .. => true
  | _ => false

/-- The undo instructions of the reversible class (R188). -/
def Instr.isUndo : Instr → Bool
  | .uadd .. => true
  | .usub .. => true
  | .umul .. => true
  | .unarw .. => true
  | .urelu .. => true
  | .uscalb .. => true
  | .ushr .. => true
  | _ => false

/-- What the host asks of the decoder: the instruction of a word, given without its place in a bundle. A 32-bit word is
read in the slot kinds S, V, C, M, K in turn, and the first that accepts it answers; a 64-bit word is a micro-word. -/
def decodeTableWord (nbits w : Nat) : Option Instr :=
  if nbits ≤ 32 then
    let w32 : Word32 := BitVec.ofNat 32 w
    match decodeSlot .s w32, decodeSlot .v w32, decodeSlot .c w32, decodeSlot .m w32, decodeSlot .k w32 with
    | .ok i, _, _, _, _ => some i
    | _, .ok i, _, _, _ => some i
    | _, _, .ok i, _, _ => some i
    | _, _, _, .ok i, _ => some i
    | _, _, _, _, .ok i => some i
    | _, _, _, _, _ => none
  else decodeMicro (BitVec.ofNat 64 w)

end Sys2Proof
end

