-- ==== Sys2Proof/Machine/State.lean ====
section
/-! DEFINITION. The state of the module, whole and as plain data: sparse maps in canonical form, the records of streams, cores,
crews, dies and slices, the Cox front, the fabric, the tier, management, and the state after reset. -/

namespace Sys2Proof.Machine

/-- A sparse map from a Nat key to w bits: keys strictly rising, no zero entry; an unlisted key reads as zero. -/
abbrev Cells (w : Nat) := List (Nat × BitVec w)

/-- A table of records by key: keys strictly rising. -/
abbrev Tbl (α : Type) := List (Nat × α)

/-- Memory as cells of one byte: an unlisted byte reads as zero (R379 step 3: memories zeroed). -/
abbrev Memory := List Host.Cell

/-- What a trap writes (R318-R320): cause, address, info, and, when the access met an address that no stack holds (R232), the
physical frame to contain and the virtual address that met it. -/
structure TrapRec where
  cause : Byte := 0
  addr : Word64 := 0
  info : Word64 := 0
  frame : Option (Nat × Nat) := none
  /-- flags of stopped calls, which join FLAGS at the boundary that raises the trap (R228) -/
  flags : BitVec 7 := 0
  deriving DecidableEq, Repr, Inhabited

/-- A ring (R243); a ring no RGDEF has defined is absent from its table. -/
structure Ring where
  base : Nat := 0
  slot : Nat := 0
  count : Nat := 0
  head : Nat := 0
  tail : Nat := 0
  filled : Nat := 0
  deriving DecidableEq, Repr, Inhabited

/-- A load-block entry (R245-R247). -/
structure LBlk where
  tag : Nat := 0
  slot : Nat := 0
  few : Nat := 0
  lines : Nat := 1
  wb : Bool := false
  valid : Bool := false
  filling : Bool := false
  /-- an EVICT that invalidates it is under way (R247) -/
  evicting : Bool := false
  deriving DecidableEq, Repr, Inhabited

/-- Where a result lands (R108, R111). -/
inductive Tgt where
  | flagsOnly
  | s (r : Nat) (v : Word64)
  | p (r : Nat) (v : Bool)
  | l (r : Nat) (v : BitVec 12)
  | c (r : Nat) (v : Word32)
  | z (r : Nat) (vs : List Word32)
  | ze (r e : Nat) (v : Word32)
  | q (r : Nat) (v : Word64)
  /-- cells by physical key tile × 4096 + 64 i + j -/
  | cells (cs : List (Nat × Word32))
  | sys (r : SysReg) (v : Word64)
  | srd (d : SReg) (r : SysReg)
  /-- EVTEST of a bit of a context, not yet served (R39) -/
  | ev (d : Dst) (c i : Nat)
  /-- EVTEST.TAKE of one, not yet served (R39) -/
  | evTake (d : Dst) (c i : Nat)
  | flagClr (m : BitVec 7)
  | flagSet (m : BitVec 7)
  /-- LOOP's: LC or EC, whichever it counted down, RRB and p8 to p15 -/
  | loop (lc ec : Option Word32) (rrb : BitVec 2) (ps : BitVec 8)
  | loopset (lc ec : Word32)
  deriving DecidableEq, Repr

/-- A result of the landing buffer: it lands at the boundary before bundle `due` (R108, R112). -/
structure Land where
  due : Nat
  rank : Nat
  pos : Nat
  tgt : Tgt
  flags : BitVec 7 := 0
  deriving DecidableEq, Repr

/-- A TLB entry: one leaf page of a slot with the fields of R59 (R56, R62). -/
structure Tlb where
  slot : Nat := 0
  vbase : Nat := 0
  size : Nat := 4096
  pa : Nat := 0
  home : BitVec 2 := 0
  psn : Bool := false
  lat : Bool := false
  hcore : Nat := 0
  buf : BitVec 24 := 0
  x : Bool := false
  w : Bool := false
  level : Nat := 0
  deriving DecidableEq, Repr, Inhabited

/-- A run of an access inside one 4 KiB page: its addresses, its leaf, and, where it lies in the window, its bytes. -/
structure RPart where
  va : Nat := 0
  pa : Nat := 0
  n : Nat := 0
  e : Tlb := {}
  win : Option (List Byte) := none
  deriving DecidableEq, Repr, Inhabited

/-- What a load makes of its bytes: an extended value in a register (R238), or the cells of a line (R239). -/
inductive RForm where
  | scalar (d n : Nat) (sx : Bool)
  | line (keys : List Nat)
  deriving DecidableEq, Repr

/-- A load that has not read yet (R258, R259): its parts and what becomes of them. -/
structure PRead where
  parts : List RPart
  form : RForm
  deriving DecidableEq, Repr

/-- A line that a load reads from DRAM, with LAT of its page: 0 on its way to the controller, 1 queued there, 2 in service at its bank, 3 served (R363). -/
structure DReq where
  pa : Nat
  lat : Bool := false
  stage : Nat := 0
  deriving DecidableEq, Repr

/-- A pending scoreboarded result (R111). -/
structure Pend where
  id : Nat
  pos : Nat
  tgts : List Tgt
  flags : BitVec 7 := 0
  /-- the lines it reads from DRAM (R254) -/
  dram : List DReq := []
  /-- the load whose bytes give `tgts`, while it has not read -/
  rd : Option PRead := none
  deriving DecidableEq, Repr

/-- A remainder record (R190): 64 cells and the tail words. -/
structure RRec where
  cells : List Word32 := []
  t0 : Word64 := 0
  t1 : Word64 := 0
  deriving DecidableEq, Repr, Inhabited

/-- A BKLOCK hold (R287-R289): group mask, bundles left, stall cycles spent. -/
structure Hold where
  mask : BitVec 16
  left : Nat
  stalls : Nat := 0
  deriving DecidableEq, Repr

/-- A bundle handed to issue: its header's address and word, its slots, and the address in sequence (R76). -/
structure Bundle where
  addr : Word64 := 0
  header : Word32 := 0
  slots : List (Slot × Instr) := []
  succ : Word64 := 0
  deriving DecidableEq, Repr, Inhabited

/-- What comes about although a bundle stalls: the hold of the remainder stack (R202), and its flush begun (R206); a cycle of the instruction's own stall
(R267, R277); a fault on list traffic (R303). -/
inductive Keep where
  | nothing
  | hold
  | flush
  | cycle
  | list (t : TrapRec)
  deriving DecidableEq, Repr, Inhabited

/-- What the bundle at issue met. -/
inductive Mark where
  | none
  | trapped (t : TrapRec)
  /-- a stall; `lat` says whether the cycle counts in LATCNT (R111, R214), `wait` is the trap that FEWAITLIM would raise, `keep` what comes about
  all the same -/
  | stalled (lat : Bool) (wait : Option TrapRec) (keep : Keep)
  deriving DecidableEq, Repr, Inhabited

/-- A received granule (R231, R241): where it lies and who gave it. -/
structure Recv where
  core : Nat := 0
  gran : Nat := 0
  giver : Nat := 0
  deriving DecidableEq, Repr, Inhabited

/-- What a release orders (R262): its level, and the writes that happen before it and have not reached every copy, by identity. -/
structure Rls where
  level : Nat := 0
  ids : List Nat := []
  deriving DecidableEq, Repr, Inhabited

/-- A release whose write stands in a copy of a location (R264): the copy (a die's, or 4 + the core whose pin pool holds the line), the bytes,
the core that issued it. -/
structure Heard where
  place : Nat := 0
  pa : Nat := 0
  n : Nat := 0
  core : Nat := 0
  rls : Rls := {}
  deriving DecidableEq, Repr, Inhabited

/-- A stream with the task it runs (R31, R101, R104 and the chapters' other per-task state). -/
structure Stream where
  ctx : Nat := 0
  slot : Nat := 0
  queue : Nat := 0
  serial : Nat := 0
  /-- the identity of its launch, which no later launch has -/
  lid : Nat := 0
  task : Nat := 0
  step : Word32 := 0
  tiles4 : Bool := false
  pair : Bool := false
  grans : Nat := 0
  widths : BitVec 42 := 0
  codebase : Word64 := 0
  compat : Bool := false
  sl : Bool := false
  det : Bool := false
  s : Cells 64 := []
  p : BitVec 16 := 1
  l : Cells 12 := []
  c : Cells 32 := []
  z : Cells 32 := []
  q : Cells 64 := []
  fmode : BitVec 8 := 0
  flags : BitVec 7 := 0
  lc : Word32 := 0
  ec : Word32 := 0
  rrb : BitVec 2 := 0
  efr : BitVec 12 := 0
  fewaitlim : Word32 := 0
  latcnt : Word64 := 0
  trappc : BitVec 56 := 0
  trapcause : Byte := 0
  trapaddr : Word64 := 0
  trapinfo : Word64 := 0
  tvec : BitVec 56 := 0
  dpb : BitVec 13 := 4096
  wid : Word64 := 0
  vrank : BitVec 16 := 0
  ctxid : BitVec 6 := 0
  heat : BitVec 16 := 0
  pc : Word64 := 0
  npc : Word64 := 0
  pos : Nat := 0
  bundle : Option Bundle := none
  land : List Land := []
  pend : List Pend := []
  code : List (Nat × List Word32) := []
  handler : Bool := false
  async : List TrapRec := []
  btrap : Option TrapRec := none
  /-- 0 running, 1 TEND issued, 2 CATCH issued -/
  ending : Nat := 0
  mark : Mark := .none
  /-- local granule number to physical granule of the core -/
  lgran : Tbl Nat := []
  recv : Tbl Recv := []
  rings : Tbl Ring := []
  blks : Tbl LBlk := []
  hold : Option Hold := none
  winHeld : Bool := false
  /-- the window's records, top first -/
  win : List RRec := []
  /-- the window's agent: 0 idle, 1 spilling, 2 filling, 3 stopped by a fault -/
  winAgent : Nat := 0
  /-- records not yet spilled of a flush that RSSYNC.FLUSH or retirement started -/
  flushing : Bool := false
  waitCyc : Nat := 0
  /-- the cycles of the stall that an instruction of the bundle at issue has by itself (R267, R277) that have passed -/
  fixed : Nat := 0
  refused : Nat := 0
  halted : Bool := false
  haltReq : Bool := false
  stepOne : Bool := false
  /-- the debugger let the next bundle pass its own breakpoint -/
  skipBp : Bool := false
  /-- pre-emption: 0 none, 1 light, 2 full -/
  pre : Nat := 0
  preSince : Nat := 0
  stopped : Bool := false
  atDrain : Bool := false
  stopAt : Nat := 0
  sliceAt : Nat := 0
  /-- the successors its entry lists (R28) -/
  succ : List Nat := []
  /-- as a primary: held for the next cycle (R115) -/
  starved : Bool := false
  /-- writes that it has observed, or that happen before those, and that have not reached every copy (R261) -/
  obs : List Nat := []
  /-- releases that its loads have returned, which a FENCE.ACQ may synchronise with, and those of its fences, which its later stores carry (R264) -/
  heard : List Heard := []
  fences : List Rls := []
  deriving DecidableEq, Repr, Inhabited

/-- A call, MZERO or MTRAN of the call queue (R211, R212, R217). -/
inductive CallKind where
  | routine (n : Nat)
  | mzero
  | mtran
  deriving DecidableEq, Repr, Inhabited

/-- A queued or running call with its snapshot (R211, R221, R225). -/
structure Call where
  key : Nat := 0
  kind : CallKind := .mzero
  fa : MFmt := .f32
  fb : MFmt := .f32
  ovw : Bool := false
  /-- physical tiles held -/
  mask : List Nat := []
  /-- physical tile of each logical name -/
  tiles : List Nat := []
  q : Cells 64 := []
  c : Cells 32 := []
  z : Cells 32 := []
  rmm : BitVec 2 := 0
  efr : BitVec 12 := 0
  issued : Nat := 0
  running : Bool := false
  upc : Nat := 0
  loops : Cells 16 := []
  acc : Nat := 0
  /-- held tiles into which no chunk has been added yet -/
  first : List Nat := []
  /-- the MACG copy of the word at `upc`, and of the word after it, has been made (R221) -/
  fetched : Bool := false
  ahead : Bool := false
  cycles : Nat := 0
  flags : BitVec 7 := 0
  deriving DecidableEq, Repr, Inhabited

/-- A line held in a core's pin pool (R234, R235): the slot whose translation pinned it, its context and buffer, the virtual
address of its first byte, its bytes, and which of them are dirty. -/
structure PinLine where
  /-- the granule of the core that holds it -/
  gran : Nat := 0
  slot : Nat := 0
  ctx : Nat := 0
  buf : BitVec 24 := 0
  va : Nat := 0
  bytes : List Byte := []
  dirty : BitVec 128 := 0
  deriving DecidableEq, Repr, Inhabited

/-- A core's state beside its streams (R12). -/
structure Core where
  mrf : Cells 32 := []
  /-- physical keys of MRF cells whose parity failed (R342) -/
  parity : List Nat := []
  store : Cells 64 := []
  calls : List Call := []
  /-- flags of completed calls not yet joined, by stream key (R214) -/
  done : Cells 7 := []
  tlb : List Tlb := []
  fenced : Bool := false
  /-- L7 to L0 (R263) -/
  scope : Word64 := 0xFF06050403020100
  /-- the pin pool: lines of HOME = 11 pages by physical line (R234, R235) -/
  pins : Tbl PinLine := []
  deriving DecidableEq, Repr, Inhabited

/-- A deque of a crew engine (R284). -/
structure Deque where
  elems : Cells 64 := []
  n : Nat := 0
  bottom : Nat := 0
  top : Nat := 0
  ctx : Nat := 0
  rank : Nat := 0
  /-- what each push released, by place (R286) -/
  rls : Tbl (List Nat) := []
  deriving DecidableEq, Repr, Inhabited

/-- A crew: its deques, its TLB, its fenced bit (R62, R284). -/
structure Crew where
  deques : Tbl Deque := []
  tlb : List Tlb := []
  fenced : Bool := false
  deriving DecidableEq, Repr, Inhabited

/-- A write issued and not yet performed at its home (R257). -/
structure PWrite where
  id : Nat
  key : Nat
  va : Nat
  pa : Nat
  bytes : List Byte
  home : BitVec 2 := 0
  ctx : Nat := 0
  slot : Nat := 0
  buf : BitVec 24 := 0
  /-- context, queue, serial, rank, heat of a tagged heat (R273) -/
  tag : Option (List Nat) := none
  wid : Word64 := 0
  /-- whether the buckets of its rank count it (R314) -/
  cnt : Bool := true
  sent : Bool := false
  /-- the releases it carries: its own, and those of the fences before it (R264); whether it is an atomic's -/
  rls : List Rls := []
  atom : Bool := false
  /-- LAT of its page (R254) -/
  lat : Bool := false
  /-- the address of the store it belongs to (R383), that store's first piece, and whether HEATDROP has counted the store (R273) -/
  addr : Nat := 0
  grp : Nat := 0
  dropped : Bool := false
  deriving DecidableEq, Repr

/-- A write on its way to another die (R260): source and destination die, its clock, and either the pending write it
performs there or the line whose replica it updates. -/
structure RWrite where
  id : Nat
  /-- the stream whose write it carries -/
  key : Option Nat := none
  src : Nat
  dst : Nat
  clock : List Nat
  wr : Option Nat := none
  pa : Nat := 0
  bytes : List Byte := []
  /-- the write that it makes visible, the core that issued that, the releases it carries, and whether it is an atomic's (R264) -/
  orig : Option Nat := none
  core : Nat := 0
  rls : List Rls := []
  atom : Bool := false
  deriving DecidableEq, Repr

/-- A heat tag record of a line (R273): its key, the written mask and the byte WIDs. -/
structure HTag where
  key : List Nat := []
  mask : BitVec 128 := 0
  wids : Cells 64 := []
  deriving DecidableEq, Repr, Inhabited

/-- Which encryption a line was last written with (R70-R72): the context and its key pair, and what its tweak is made of. -/
structure Enc where
  ctx : Nat := 0
  key : Option (List Word64) := none
  buf : BitVec 24 := 0
  ver : Word32 := 0
  deriving DecidableEq, Repr, Inhabited

/-- A DRAM pseudo-channel (R254, R255). -/
structure PChan where
  owed : List Nat := []
  busy : List Nat := []
  /-- banks whose refresh, and whether the refresh of all banks, begins when the accesses in service have ended -/
  due : List Nat := []
  allDue : Bool := false
  /-- each bank's open row, plus 1 (R363) -/
  rows : Cells 16 := []
  /-- the cycle of the last LAT = 1 request that left service -/
  lastLat : Nat := 0
  deriving DecidableEq, Repr, Inhabited

/-- Memory, scratchpads, replicas and what travels between them. -/
structure MemSys where
  /-- HBM by physical address (R232) -/
  hbm : Memory := []
  /-- the encryption of each written line, by line index (R70) -/
  enc : Tbl Enc := []
  /-- scratchpad bytes by core × 2^20 + offset (R231) -/
  spad : Memory := []
  /-- full/empty bits by core × 2^18 + word (R276) -/
  fe : Cells 1 := []
  /-- scratchpad words with an uncorrectable error (R342) -/
  bad : List Nat := []
  wq : List PWrite := []
  rq : List RWrite := []
  /-- read replicas: line index × 4 + die, with the line's bytes (R258) -/
  reps : Tbl (List Byte) := []
  /-- die clocks, by die × 4 + entry (R260) -/
  clocks : Cells 32 := []
  /-- the clock of the last write to each written line, by line index (R260) -/
  lclk : Tbl (List Nat) := []
  /-- the releases that stand in the copies of locations (R264) -/
  rels : List Heard := []
  /-- poisoned 4 KiB frames (R69) -/
  poison : List Nat := []
  tags : Tbl HTag := []
  /-- pinned lines of HOME = 10 pages: line index, the slot whose translation pinned it, and its virtual address (R234) -/
  pins : List (Nat × Nat × Nat) := []
  /-- pseudo-channels by stack × 64 + channel (R254) -/
  chans : Tbl PChan := []
  deriving DecidableEq, Repr, Inhabited

/-- A decrement's target: the launch (context, queue, identity), or the step launch of the current step, the rank slot and the task index (R40). -/
structure TaskRef where
  ctx : Nat := 0
  queue : Nat := 0
  lid : Nat := 0
  slot : Nat := 0
  task : Nat := 0
  /-- the reference has a nonzero reserved bit (R42) -/
  drop : Bool := false
  /-- L = 1: the step launch of the rank in the current step is meant -/
  sl : Bool := false
  deriving DecidableEq, Repr, Inhabited

/-- A copy's geometry (R248, R250). `nib` is an E2M1 tile, whose elements are nibbles. -/
structure Copy where
  src : Nat := 0
  dst : Nat := 0
  rows : Nat := 1
  rowbytes : Nat := 1
  sstride : Nat := 0
  dstride : Nat := 0
  layout : Nat := 0
  esz : Nat := 1
  nib : Bool := false
  fe : Option Nat := none
  tref : Option TaskRef := none
  deriving DecidableEq, Repr, Inhabited

/-- A near-memory command (R251). -/
structure Nm where
  op : Nat := 0
  bf16 : Bool := false
  w : Nat := 0
  x : Nat := 0
  count : Nat := 0
  a : Word32 := 0
  b : Word32 := 0
  stat : Nat := 0
  /-- the stack of W's first byte, from the first piece on -/
  stack : Option Nat := none
  deriving DecidableEq, Repr, Inhabited

/-- A collective's descriptor (R310). -/
structure CollD where
  src : Nat := 0
  dst : Nat := 0
  cid : Word32 := 0
  first : Nat := 0
  last : Nat := 0
  root : Nat := 0
  count : Nat := 0
  kind : Nat := 0
  op : Nat := 0
  fmt : Nat := 0
  stat : Option Nat := none
  tref : Option TaskRef := none
  /-- a bucket has fired it: its read follows every counted write (R314) -/
  fresh : Bool := false
  deriving DecidableEq, Repr, Inhabited

/-- What an engine operation does. -/
inductive OpKind where
  | copy (c : Copy)
  /-- a fill of an entry as recorded; an old block is first written back (R245, R246) -/
  | fill (e : Nat) (b : LBlk) (old : Option LBlk)
  /-- EVICT of an entry as it stood (R247) -/
  | evict (e : Nat) (mode : EvMode) (b : LBlk)
  | nm (n : Nm)
  /-- CHSEND: channel, sequence number, source buffer, status word (R305) -/
  | send (ch : Nat) (seq : Word32) (src : Nat) (stat : Option Nat)
  | coll (d : CollD)
  /-- OWNGIVE in transit: core, physical granule, giver task (R241) -/
  | gran (core gran giver : Nat) (dest : TaskRef)
  /-- a decrement on its way to an agent (R41); TKDEC's stands in the agent's command queue for its core (R43) -/
  | dec (dest : TaskRef) (amount : Nat) (cmd : Option Nat)
  /-- a piece of spill (true) or fill (false) (R200) -/
  | spill (out : Bool)
  /-- its completion object is written, and its trap is on its way to the stream (R321, R366) -/
  | trap
  deriving DecidableEq, Repr

/-- An engine operation of a stream, in the order of issue. -/
structure Op where
  id : Nat
  key : Nat
  ctx : Nat := 0
  slot : Nat := 0
  core : Nat := 0
  task : Nat := 0
  kind : OpKind
  /-- 4 KiB pieces performed -/
  piece : Nat := 0
  /-- bytes or elements completed -/
  moved : Nat := 0
  flags : BitVec 7 := 0
  /-- status once it has stopped moving data -/
  status : Option Nat := none
  /-- the trap it raises after its completion object is written (R321) -/
  trap : Option TrapRec := none
  started : Bool := true
  /-- cut by DRAINLIM or an abort: it makes no further piece (R328, R336) -/
  cut : Bool := false
  /-- the highest level from 4 to 7 of a release that has followed its issue (R265) -/
  rel : Nat := 0
  /-- heat tag and WID of its writes (R273) -/
  tag : Option (List Nat) := none
  wid : Word64 := 0
  /-- the window bytes of a send whose task has ended (R336) -/
  data : Option (List Byte) := none
  deriving DecidableEq, Repr

/-- The three Tulle requests (R295). -/
inductive TKind where
  | dep
  | copy
  | take
  deriving DecidableEq, Repr

/-- A Tulle request (R293, R296, R297): its owner, instance (context, rank slot, and job for a job instance; handle), home, block
words, result area (address and physical places), and where it stands: 0 travelling, 1 parked, 2 arrived and not yet processed, 3 in a
packet to the module that holds rank 0, 4 withdrawn and kept for the restore, 5 sent to another module, 6 parked there. -/
structure TReq where
  id : Nat
  key : Nat
  ctx : Nat
  slot : Nat
  task : Nat := 0
  job : Option Word32 := none
  handle : Nat
  cap : Nat := 0
  kind : TKind
  nowait : Bool := false
  keyed : Bool := false
  home : Nat
  words : List Word64
  /-- the address of its block, and that of its result area -/
  pat : Nat := 0
  res : Nat
  place : List (Nat × Nat)
  tref : TaskRef := {}
  detach : Bool := false
  state : Nat := 0
  /-- a TCAN for it is under way: the identity of that TCAN (R299) -/
  cancel : Option Nat := none
  /-- a request that came from another module: its node, its identity there, and the issuer's rank (R290) -/
  org : Option (Nat × Nat × Nat) := none
  /-- a withdrawal of it is under way (R300) -/
  withdraw : Bool := false
  /-- the highest level from 4 to 7 of a release that has followed its issue, 1 for one below (R265, R298) -/
  rel : Nat := 0
  deriving DecidableEq, Repr

/-- A stored tuple (R292, R297): its instance, sequence number and fields. -/
structure Tup where
  ctx : Nat
  slot : Nat
  job : Option Word32 := none
  handle : Nat
  seq : Word32
  f : List Word64
  deriving DecidableEq, Repr

/-- A home slice's Tulle partition (R297). -/
structure Slice where
  tuples : List Tup := []
  seq : Word32 := 0
  /-- ids of the requests that have arrived, and of the parked ones, each in order of arrival -/
  arrived : List Nat := []
  parked : List Nat := []
  fenced : Bool := false
  deriving DecidableEq, Repr, Inhabited

/-- A posted receive (R305, R307): its stream and core, whether it names a window address, the heat tag and WID of its writes. -/
structure Post where
  seq : Word32
  buf : Nat
  stat : Option Nat
  tref : Option TaskRef
  key : Nat
  window : Bool
  core : Nat := 0
  tag : Option (List Nat) := none
  wid : Word64 := 0
  deriving DecidableEq, Repr

/-- A channel row (R302) with its posted receives. -/
structure Row where
  valid : Bool := false
  fmt : BitVec 3 := 0
  bytes : Nat := 0
  peer : Nat := 0
  depth : Nat := 0
  sseq : Word32 := 0
  rseq : Word32 := 0
  ackseq : Word32 := 0
  posted : List Post := []
  deriving DecidableEq, Repr, Inhabited

/-- An armed gradient bucket (R313): descriptor, latched scale, counter, total. -/
structure Bucket where
  d : CollD := {}
  bytes : Nat := 0
  scale : Word32 := 0
  n : Nat := 0
  total : Nat := 0
  key : Nat := 0
  task : Nat := 0
  full : Bool := false
  /-- disarmed, and its status word not yet written (R315, R288) -/
  off : Bool := false
  tag : Option (List Nat) := none
  wid : Word64 := 0
  deriving DecidableEq, Repr, Inhabited

/-- A waiting granule of a rank (R301). -/
structure WGran where
  core : Nat := 0
  gran : Nat := 0
  giver : Nat := 0
  dest : TaskRef := {}
  deriving DecidableEq, Repr, Inhabited

/-- Residency states (R54). -/
inductive RState where
  | free
  | active
  | evicting
  | cold
  | recalling
  | departing
  | arriving
  deriving DecidableEq, Repr, Inhabited

/-- A rank-table slot (R53) with what moves with it. -/
structure Rank where
  state : RState := .free
  /-- CMD 0x01 has written its RW fields (R376) -/
  written : Bool := false
  ctx : Nat := 0
  homedie : Nat := 0
  vrank : BitVec 16 := 0
  job : Word32 := 0
  ptroot : Nat := 0
  stkbase : Word64 := 0
  stklim : Word64 := 0
  stkptr : Word64 := 0
  ovfhead : Word64 := 0
  image : Word64 := 0
  w7 : Word64 := 0
  rows : Tbl Row := []
  /-- Calico stream registers: J0, J1, J2 at handle × 3 + i (R316) -/
  calico : Cells 64 := []
  buckets : Tbl Bucket := []
  cids : List Word32 := []
  /-- the stream key that holds the rank's stack (R202) -/
  stkHold : Option Nat := none
  waiting : List WGran := []
  caughtExec : Bool := false
  caught : Bool := false
  /-- it has been counted in a CAUGHT message (R350) -/
  reported : Bool := false
  chanStop : Bool := false
  lastLaunch : Nat := 0
  /-- a recall or an eviction is due (R54, R55, R351) -/
  recallDue : Bool := false
  evictDue : Bool := false
  deriving DecidableEq, Repr, Inhabited

/-- A launch's progress on one rank (R41, R44, R347). -/
structure LRank where
  slot : Nat := 0
  /-- tasks discarded because the rank is caught (R349) -/
  caught : Bool := false
  decs : Tbl Nat := []
  started : List Nat := []
  retired : List Nat := []
  discarded : Bool := false
  /-- in deterministic mode, the highest heat whose start has been allowed (R44, R347), and whether it has committed -/
  heat : Nat := 0
  heatDone : Bool := false
  /-- a faulty entry has been read (R27) -/
  bad : Bool := false
  deriving DecidableEq, Repr, Inhabited

/-- A launch in a queue (R34, R37, R38). -/
structure Launch where
  d : List Word64 := []
  serial : Nat := 0
  /-- an identity that no later launch has, while serial numbers come again after 128 launches -/
  lid : Nat := 0
  origin : Bool := false
  checked : Bool := false
  started : Bool := false
  ranks : List LRank := []
  /-- status other than OK that the launch will retire with (R346), and its FCAUSE -/
  status : Nat := 0
  fcause : Byte := 0
  /-- it has retired or been refused, and its completion record is held (R35) -/
  done : Bool := false
  deriving DecidableEq, Repr, Inhabited

/-- A saved stream (R327-R335): the save area's number, the stream as saved, its core, its tiles (key: own tile × 4,096 + cell) and
microprogram part (key: micro address), its granules by local number (full saves), its operations to be made again, withdrawn requests and
receives. -/
structure Saved where
  area : Nat := 0
  stream : Stream := {}
  full : Bool := false
  core : Nat := 0
  mrf : Cells 32 := []
  store : Cells 64 := []
  grans : Memory := []
  fe : Cells 1 := []
  ops : List Op := []
  treqs : List TReq := []
  posts : List (Nat × Post) := []
  /-- completion writes held until the restore: window address and bytes (R330) -/
  helds : List (Nat × List Byte) := []
  deriving DecidableEq, Repr, Inhabited

/-- A context (R34-R37, R72, R290, R326, R376). -/
structure Ctx where
  qweight : Word64 := 0
  dpb : BitVec 13 := 4096
  quantum : BitVec 12 := 0
  cqbase : Word64 := 0
  cqrkey : Word32 := 0
  cqlog : BitVec 5 := 9
  lostdec : Word64 := 0
  dbgen : Bool := false
  csaslots : BitVec 16 := 0
  drainlim : BitVec 16 := 1024
  csapool : BitVec 52 := 0
  ev : BitVec 256 := 0
  queues : Tbl (List Launch) := []
  serials : Tbl Nat := []
  vt : Tbl Nat := []
  cqWritten : Nat := 0
  cqConsumed : Word32 := 0
  /-- completion records formed and not written: K0, K1, K2 (R35) -/
  cqHeld : List (List Word64) := []
  qps : List Nat := []
  /-- the Ethernet port of each bound queue pair, and those in the error state (R373) -/
  qpPort : Tbl Nat := []
  qpErr : List Nat := []
  /-- the hypervisor has installed a rank: step 6 of R379 has ended for it -/
  up : Bool := false
  keys : Option (List Word64) := none
  vers : Cells 32 := []
  bumps : List Nat := []
  verbase : Nat := 0
  poolbase : Nat := 0
  pooln : Nat := 0
  /-- the free 2 MiB frames of the context's pool, as physical addresses (R352, R376) -/
  pool : List Nat := []
  tulle : Cells 64 := []
  dbg : Cells 64 := []
  heatdrop : Word64 := 0
  heatspill : Word64 := 0
  saved : List Saved := []
  deriving DecidableEq, Repr, Inhabited

/-- The job's state (R348). -/
inductive JState where
  | committed
  | running
  | caught
  deriving DecidableEq, Repr, Inhabited

/-- A job record (R348). -/
structure Job where
  job : Word32 := 0
  ctx : Nat := 0
  v : Nat := 0
  next : Word32 := 0
  state : JState := .committed
  cmten : Bool := false
  cmtev : Byte := 0
  mapbase : Nat := 0
  coord : BitVec 20 := 0
  /-- COORD of the next step, which a map update has brought (R16, R357) -/
  coordNext : Option (BitVec 20) := none
  /-- the ranks that a map update has named on another node (R357, R382) -/
  updated : List Nat := []
  caught : Nat := 0
  deriving DecidableEq, Repr, Inhabited

/-- A formed node of a collective's tree (R308) over one piece of at most 1,024 elements (R309): piece, level, index, values; a broadcast's node that
does not cover ROOT has none. -/
structure CNode where
  piece : Nat := 0
  level : Nat := 0
  index : Nat := 0
  vals : List Word32 := []
  deriving DecidableEq, Repr, Inhabited

/-- What a fabric packet carries (R74, R305, R309, R350, R357). -/
inductive PktKind where
  /-- channel message: sender rank, channel, sequence number, payload bytes, the sending operation -/
  | msg (src ch : Nat) (seq : Word32) (bytes : List Byte) (op : Nat)
  /-- acceptance or refusal of a message: channel, sequence number, bytes delivered, status code, the sending operation -/
  | ack (ch : Nat) (seq : Word32) (n code op : Nat)
  /-- a Tulle request of a stream of this module -/
  | tulle (req : Nat)
  /-- a Tulle request of a stream of another module, with its node (R290) -/
  | tulleReq (node : Nat) (t : TReq)
  /-- the answer to a request: the tuple's fields, the status word; no status when the request is parked, and none that is written (R300) when
  the code is 2^64 -/
  | tulleAns (req : Nat) (f : Option (List Word64)) (status : Option Nat)
  /-- a TCAN or a withdrawal on its way to the module that holds the home slice, with the request's node and identity there -/
  | tulleEnd (node req : Nat) (withdraw : Bool)
  /-- a node result on its way to the node's home: the descriptor it was formed under, the node, its flags; `late` as a switch marks it -/
  | node (d : CollD) (v : CNode) (flags : BitVec 7) (late : Bool)
  /-- a collective's result, or its failure -/
  | result (d : CollD) (vals : List Word32) (flags : BitVec 7) (status : Nat)
  /-- ranks whose DST has been written, on their way to the root's home, and that home's word that every one has (R312) -/
  | written (d : CollD) (n : Nat)
  | final (d : CollD)
  | caught (step : Word32) (count : Nat)
  | commit (step : Word32)
  | mapupd (rank node : Nat) (coord : Option Nat)
  /-- a node has written the word of its map (R357) -/
  | mapack (node : Nat)
  deriving DecidableEq, Repr

/-- A fabric packet addressed to a rank of a job: `held` at the port (R74), `full` held for lack of overflow space (R303). -/
structure Pkt where
  id : Nat
  /-- the node that the map named when the packet was sent (R382) -/
  node : Option Nat := none
  ctx : Nat := 0
  job : Word32 := 0
  rank : Nat := 0
  kind : PktKind
  held : Bool := false
  full : Bool := false
  deriving DecidableEq, Repr

/-- A collective that has met a contribution (R308-R312): its descriptor, the nodes it holds, the slots that have contributed with the
status each met, merged flags, a failure's status, the result. -/
structure Coll where
  ctx : Nat := 0
  job : Word32 := 0
  d : CollD := {}
  nodes : List CNode := []
  parts : List (Nat × Nat) := []
  flags : BitVec 7 := 0
  status : Nat := 0
  /-- the roots of the pieces that are done, and the whole result -/
  roots : Tbl (List Word32) := []
  result : Option (List Word32) := none
  /-- ranks whose DST has been written, at the root's home, and whether every one has (R312) -/
  written : Nat := 0
  final : Bool := false
  deriving DecidableEq, Repr, Inhabited

/-- A tier operation in progress (R351): slot, recall or eviction. -/
structure Tier where
  slot : Nat := 0
  isRecall : Bool := false
  /-- the LP6 space that an eviction fills: first address and bytes -/
  base : Nat := 0
  size : Nat := 0
  deriving DecidableEq, Repr, Inhabited

/-- A table of page-table entries as an image holds it: its old address, level, first virtual address, and its nonzero entries (R73). -/
structure Tab where
  addr : Nat := 0
  level : Nat := 0
  va : Nat := 0
  es : List (Nat × Word64 × Word64) := []
  deriving DecidableEq, Repr, Inhabited

/-- A rank's image, cold in LP6 or on its way to another module (R73, R356): the root's old address, the tables, and the pages' bytes and
encryptions by virtual address and virtual line; where it lies in LP6, its length, and how its tables and its record are encrypted there. -/
structure Image where
  slot : Nat := 0
  base : Nat := 0
  size : Nat := 0
  key : Enc := {}
  root : Nat := 0
  tabs : List Tab := []
  cells : Memory := []
  enc : Tbl Enc := []
  deriving DecidableEq, Repr, Inhabited

/-- A rank on its way between modules (R356 steps 1 to 7): the node and slot it goes to, its record with its rows and streams, its image, its
tuples in the order in which they are deposited, and its job's NEXT. -/
structure Moving where
  node : Nat := 0
  dslot : Nat := 0
  rank : Rank := {}
  image : Image := {}
  tups : List Tup := []
  next : Word32 := 0
  /-- the migration key that the two security blocks agree (R356, R378) -/
  mkey : List Byte := []
  deriving DecidableEq, Repr, Inhabited

/-- A migration order in progress (R354-R357). -/
structure Migr where
  slot : Nat := 0
  dnode : BitVec 20 := 0
  dslot : Nat := 0
  waitus : Nat := 0
  since : Nat := 0
  seq : BitVec 32 := 0
  /-- 0 deferred, 1 to be transferred, 2 transferred (R355-R357) -/
  phase : Nat := 0
  /-- the nodes that have not acknowledged the map update (R357) -/
  waits : List Nat := []
  deriving DecidableEq, Repr, Inhabited

/-- A shootdown not yet acknowledged (R65, R66): slot, first virtual address, byte length (0 = whole slot), SEQ of its command. -/
structure Shoot where
  id : Nat := 0
  slot : Nat := 0
  va : Nat := 0
  len : Nat := 0
  seq : BitVec 32 := 0
  deriving DecidableEq, Repr, Inhabited

/-- The Cox front, the fabric port and the tier. -/
structure Front where
  ctxs : Tbl Ctx := []
  ranks : Tbl Rank := []
  jobs : Tbl Job := []
  pkts : List Pkt := []
  colls : List Coll := []
  tiers : List Tier := []
  images : List Image := []
  migrs : List Migr := []
  /-- ranks on their way here from other modules -/
  arrivals : List Moving := []
  /-- shootdowns not yet acknowledged -/
  shoots : List Shoot := []
  /-- version bumps not yet acknowledged: context, buffer, SEQ of the command -/
  bumpSeqs : List (Nat × Nat × BitVec 32) := []
  /-- tasks retired on a core, by core, latest first: context, queue, the launch's identity, slot, WID (R48 class 1) -/
  lastRun : List (Nat × Nat × Nat × Nat × Nat × Word64) := []
  deriving DecidableEq, Repr, Inhabited

/-- Power phases (R377, R379). -/
inductive Power where
  | off
  | standby
  | recovery
  | on
  deriving DecidableEq, Repr, Inhabited

/-- Management, boot, ports and containment (R339-R344, R371-R379). -/
structure Mgmt where
  power : Power := .off
  rollback : Nat := 0
  /-- the fuses' digest of the firmware key (R377) -/
  fwKey : List Byte := []
  fwver : Nat := 0
  /-- the digest of the running firmware, and the public key of the hypervisor that its image carries (R377, R378) -/
  fwHash : List Byte := []
  hvKey : List Byte := []
  /-- the hypervisor has attested the module (R379) -/
  attested : Bool := false
  dbgReadout : Bool := false
  clock : Nat := 800
  plimit : Nat := 4400
  temps : Tbl Int := []
  thermtrip : Bool := false
  weighed : Bool := false
  lastSeq : BitVec 32 := 0
  anySeq : Bool := false
  node : BitVec 20 := 0
  /-- Finser Link ports that have trained: generation (R373) -/
  links : Tbl Nat := []
  /-- Ethernet ports with a link: rate in Gb/s -/
  eth : Tbl Nat := []
  /-- units whose fence is due, and whether an error of control state makes it so (R69, R343) -/
  fenceDue : List (FUnit × Bool) := []
  /-- fenced ports, dies (R343) -/
  fports : List Nat := []
  fdies : List Nat := []
  /-- corrected errors of the last 2^30 cycles: unit and cycle (R343) -/
  corr : List (FUnit × Nat) := []
  deriving DecidableEq, Repr, Inhabited

/-- What has left the module. -/
structure Outs where
  /-- completion records by RDMA WRITE: context, address, words (R34, R35) -/
  host : List (Nat × Nat × List Word64) := []
  /-- responses on the privileged path and of management: SEQ, status, data (R374) -/
  resp : List (BitVec 32 × Byte × List Word64) := []
  /-- containment events: CE0 to CE3 (R344) -/
  cevents : List (List Word64) := []
  /-- commit records on the privileged queue pair: context, words (R375) -/
  commits : List (Nat × List Word64) := []
  /-- packets sent to other modules: node and packet (R309, R350, R357) -/
  fabric : List (Nat × Pkt) := []
  /-- ranks sent to other modules (R356) -/
  moved : List Moving := []
  /-- words put out at the scan port (R340) -/
  scan : List Word64 := []
  deriving DecidableEq, Repr, Inhabited

/-- What the slots of the bundle at issue see as it stood before the bundle: the scratchpad, full/empty bits and rings (R231, R278), and, for a fence
of its C1 slot (R266), the counter of identities, the pending loads and writes, the operations, requests, calls and the window's agent. -/
structure View where
  spad : Memory := []
  fe : Cells 1 := []
  rings : Tbl Ring := []
  next : Nat := 0
  pend : List Pend := []
  wq : List PWrite := []
  rq : List RWrite := []
  ops : List Op := []
  treqs : List TReq := []
  calls : List Call := []
  win : List RRec := []
  agent : Nat := 0
  deriving DecidableEq, Repr, Inhabited

/-- Why the model stops. -/
inductive Fault where
  /-- Raised by nobody: every exception the spec describes is taken (a next state), and every value it leaves open is a
  free value. Safe. -/
  | never
  deriving DecidableEq, Repr

/-- Why the model refuses. -/
inductive Refusal where
  /-- Raised by an arm of exec whose instruction has no meaning yet, with its mnemonic. Safe. -/
  | notModelled (mnemonic : String)
  deriving DecidableEq, Repr

/-! What may happen next. -/

/-- What may happen in a step (R1, R384). -/
inductive Act where
  | input
  | core (n : Nat)
  | unit (n : Nat)
  | land (key id : Nat)
  /-- a DRAM request of a load moves on; a refresh begins (R254, R363) -/
  | dram (key id n : Nat)
  | refreshGo (ch : Nat)
  /-- a held code line's word is fetched again, and another line ahead of issue (R91) -/
  | refetch (key line : Nat)
  | ahead (key : Nat)
  | serveEv (key : Nat)
  /-- a trap that an engine has raised becomes pending (R366) -/
  | trapIn (key : Nat)
  | spill (key : Nat)
  | fill (key : Nat)
  | windowEnd (key : Nat)
  | retire (key : Nat)
  | drainlim (key : Nat)
  | save (key : Nat)
  | restore (ctx area key : Nat)
  | toFull (key : Nat)
  | sliceEnd (key : Nat)
  | piece (id : Nat)
  | opEnd (id : Nat)
  | send (id : Nat)
  | contribute (id : Nat)
  | collEnd (slot : Nat) (cid : Word32)
  | decrement (id : Nat)
  | granule (id : Nat)
  | deposit (id : Nat)
  | matchReq (id : Nat)
  | cancelReq (id : Nat)
  | withdrawReq (id : Nat)
  | sendEnd (id : Nat)
  | waiting (slot gran : Nat)
  | bucket (slot n : Nat)
  | disarmed (slot n : Nat)
  | caught (slot : Nat)
  | arrival (id : Nat)
  | retry (slot : Nat)
  | acceptance (id : Nat)
  | hold (id : Nat)
  | release (id : Nat)
  | message (id : Nat)
  | record (ctx : Nat)
  | head (ctx queue : Nat)
  | start (ctx queue serial slot task : Nat)
  | launchEnd (ctx queue serial : Nat)
  | heatCommit (ctx queue serial slot : Nat)
  | nextHeat (ctx queue serial slot : Nat)
  | write (id : Nat)
  | apply (id : Nat)
  | refreshEnd (stack pc bank : Nat)
  | payOwed (stack pc : Nat)
  | shootAck (id : Nat)
  | bumpEnd (ctx : Nat) (buf : BitVec 24)
  | evictStart (slot : Nat)
  | evictEnd (slot : Nat)
  | recallStart (slot : Nat)
  | recallEnd (slot : Nat)
  | deferralEnd (slot : Nat)
  | waitExpiry (slot : Nat)
  | transfer (slot : Nat)
  | migrated (slot : Nat)
  /-- another module answers: a map update, a Tulle request, a message (R384) -/
  | mapAck (slot node : Nat)
  | foreignTulle (id : Nat)
  | foreignAck (id : Nat)
  | fence (u : FUnit) (control : Bool)
  deriving DecidableEq, Repr

/-- The module. -/
structure State where
  /-- the counter behind every free value -/
  tick : Nat := 0
  /-- CYCLE (R104) -/
  cycle : Word64 := 0
  nextId : Nat := 0
  /-- the enabled actions that have been passed over, each with how often that may happen again (R384, log 5) -/
  late : List (Act × Nat) := []
  /-- inputs that have not arrived yet, in arrival order -/
  inbox : List Instr := []
  /-- the stream the next slot instruction belongs to: core × 2 + (0 primary, 1 secondary); held apart with its core -/
  curKey : Nat := 0
  curLive : Bool := false
  cur : Stream := {}
  core : Core := {}
  /-- the rank and TILES of the slot of the bundle at issue -/
  slotRank : Nat := 1
  view : Option View := none
  streams : Tbl Stream := []
  cores : Tbl Core := []
  mem : MemSys := {}
  crews : Tbl Crew := []
  ops : List Op := []
  slices : Tbl Slice := []
  treqs : List TReq := []
  front : Front := {}
  mgmt : Mgmt := {}
  outs : Outs := {}
  deriving DecidableEq, Repr, Inhabited

/-- The module right after module reset: nothing bound, nothing installed, power off; every register at its reset value
(R53, R302, R316, R348: 0) or the value of log entry 2. -/
def State.reset : State := {}

end Sys2Proof.Machine
end

