-- ==== Sys2Proof/Machine/Map.lean ====
section
/-! DEFINITION. Sparse maps in canonical form: reading, writing, byte ranges, and tables of records. -/

namespace Sys2Proof.Machine

/-- The value at a key; zero when the map does not list it. -/
def Cells.get {w : Nat} : Cells w → Nat → BitVec w
  | [], _ => 0
  | (k, v) :: r, a => if a = k then v else if a < k then 0 else Cells.get r a

/-- Writes a value; writing zero removes the entry. -/
def Cells.set {w : Nat} : Cells w → Nat → BitVec w → Cells w
  | [], a, x => if x = 0 then [] else [(a, x)]
  | (k, v) :: r, a, x =>
    if a < k then (if x = 0 then (k, v) :: r else (a, x) :: (k, v) :: r)
    else if a = k then (if x = 0 then r else (a, x) :: r)
    else (k, v) :: Cells.set r a x

/-- Every key is at least `lo`, keys rise strictly, no entry is zero. -/
def Cells.wfFrom {w : Nat} (lo : Nat) : Cells w → Bool
  | [] => true
  | (k, v) :: r => decide (lo ≤ k) && decide (v ≠ 0) && Cells.wfFrom (k + 1) r

/-- The canonical form. -/
def Cells.wf {w : Nat} (m : Cells w) : Bool := Cells.wfFrom 0 m

/-- The canonical form of a memory (R379: an unlisted byte reads as zero). -/
def Memory.wf (m : Memory) : Bool := Cells.wf (w := 8) m

/-- The byte at an address. -/
def Memory.get (m : Memory) (a : Nat) : Byte := Cells.get (w := 8) m a

/-- Writes one byte. -/
def Memory.set (m : Memory) (a : Nat) (v : Byte) : Memory := Cells.set (w := 8) m a v

/-- n bytes from an address upward. -/
def Memory.bytes (m : Memory) : (n : Nat) → (a : Nat) → List Byte
  | 0, _ => []
  | n + 1, a => m.get a :: Memory.bytes m n (a + 1)

/-- Writes bytes from an address upward. -/
def Memory.put (m : Memory) (a : Nat) : List Byte → Memory
  | [] => m
  | v :: r => Memory.put (m.set a v) (a + 1) r

/-- Drops every byte of [a, a + n). -/
def Memory.zero (m : Memory) (a n : Nat) : Memory := m.filter (fun c => decide (c.1 < a) || decide (a + n ≤ c.1))

/-- Drops every cell of [a, a + n). -/
def Cells.zero {w : Nat} (m : Cells w) (a n : Nat) : Cells w := m.filter (fun c => decide (c.1 < a) || decide (a + n ≤ c.1))

/-- Writes the same value at n keys from a upward. -/
def Cells.fill {w : Nat} (m : Cells w) (a : Nat) (v : BitVec w) : Nat → Cells w
  | 0 => m
  | n + 1 => Cells.fill (m.set a v) (a + 1) v n

/-- Writes a list of cells. -/
def Cells.puts {w : Nat} (m : Cells w) : List (Nat × BitVec w) → Cells w
  | [] => m
  | (k, v) :: r => Cells.puts (m.set k v) r

/-- The little-endian number of a byte list (R3). -/
def leNat : List Byte → Nat
  | [] => 0
  | v :: r => v.toNat + 256 * leNat r

/-- n bytes of a number, little-endian (R3). -/
def leBytes (x : Nat) : Nat → List Byte
  | 0 => []
  | n + 1 => BitVec.ofNat 8 x :: leBytes (x / 256) n

/-- The 32-bit words of a byte list. -/
def words32 : List Byte → List Word32
  | a :: b :: c :: d :: r => BitVec.ofNat 32 (leNat [a, b, c, d]) :: words32 r
  | _ => []

/-- The 64-bit words of a byte list. -/
def words64 : List Byte → List Word64
  | a :: b :: c :: d :: e :: f :: g :: h :: r => BitVec.ofNat 64 (leNat [a, b, c, d, e, f, g, h]) :: words64 r
  | _ => []

/-- The record at a key. -/
def Tbl.find {α : Type} : Tbl α → Nat → Option α
  | [], _ => none
  | (k, v) :: r, a => if a = k then some v else if a < k then none else Tbl.find r a

/-- The record at a key, or the given one. -/
def Tbl.at {α : Type} (t : Tbl α) (a : Nat) (d : α) : α := (t.find a).getD d

/-- Writes the record at a key. -/
def Tbl.put {α : Type} : Tbl α → Nat → α → Tbl α
  | [], a, x => [(a, x)]
  | (k, v) :: r, a, x =>
    if a < k then (a, x) :: (k, v) :: r else if a = k then (a, x) :: r else (k, v) :: Tbl.put r a x

/-- Removes the record at a key. -/
def Tbl.del {α : Type} (t : Tbl α) (a : Nat) : Tbl α := t.filter (fun e => e.1 != a)

/-- Whether a key has a record. -/
def Tbl.has {α : Type} (t : Tbl α) (a : Nat) : Bool := (t.find a).isSome

/-- The word at an index of a list of words; zero past its end. -/
def wordAt (l : List Word64) (i : Nat) : Word64 := l.getD i 0

/-- Bits hi:lo of a word, as a number (R2). -/
def fld (w : Word64) (hi lo : Nat) : Nat := (w.toNat >>> lo) % 2 ^ (hi + 1 - lo)

/-- Numbers lo, lo + 1, … of a count. -/
def upto (lo : Nat) : Nat → List Nat
  | 0 => []
  | n + 1 => lo :: upto (lo + 1) n

/-- Replaces the elements of a list that satisfy a test. -/
def mapIf {α : Type} (p : α → Bool) (f : α → α) (l : List α) : List α := l.map (fun x => if p x then f x else x)

end Sys2Proof.Machine
end

