-- ==== Sys2Proof/Machine/Num.lean ====
section
/-! DEFINITION. Numbers: the formats bit by bit (R117-R125), exact values, Round (R127), Narrow (R129), packed cells (R121)
and exact arithmetic with the NaN and invalid rules (R120). -/

namespace Sys2Proof.Machine

/-- The sticky flags, in the layout of FLAGS (R104). -/
abbrev Flags := BitVec 7

def flNV : Flags := 0x01
def flDZ : Flags := 0x02
def flOF : Flags := 0x04
def flUF : Flags := 0x08
def flNX : Flags := 0x10
def flNF : Flags := 0x20
def flRL : Flags := 0x40

/-- A flag when a condition holds. -/
def flIf (b : Bool) (f : Flags) : Flags := if b then f else 0

/-- A floating-point format (R117, R118): fraction bits, bias, width, +max, +infinity and canonical NaN if it has them, and
the quiet bit. -/
structure FF where
  mb : Nat
  bias : Nat
  width : Nat
  maxBits : Nat
  inf : Option Nat
  nan : Option Nat
  quiet : Option Nat
  deriving DecidableEq, Repr

def fp32 : FF := ⟨23, 127, 32, 0x7F7FFFFF, some 0x7F800000, some 0x7FC00000, some 22⟩
def bf16 : FF := ⟨7, 127, 16, 0x7F7F, some 0x7F80, some 0x7FC0, some 6⟩
def fp16 : FF := ⟨10, 15, 16, 0x7BFF, some 0x7C00, some 0x7E00, some 9⟩
def e4m3 : FF := ⟨3, 7, 8, 0x7E, none, some 0x7F, none⟩
def e5m2 : FF := ⟨2, 15, 8, 0x7B, some 0x7C, some 0x7E, some 1⟩
def e2m1 : FF := ⟨1, 1, 4, 0x7, none, none, none⟩

/-- An exact value: a NaN (signalling or quiet), an infinity, or ± n/d × 2^e; a zero keeps its sign. -/
inductive Ex where
  | nan (signalling : Bool)
  | inf (neg : Bool)
  | fin (neg : Bool) (n d : Nat) (e : Int)
  deriving DecidableEq, Repr

def Ex.zero (neg : Bool) : Ex := .fin neg 0 1 0
def Ex.ofInt (v : Int) : Ex := .fin (decide (v < 0)) v.natAbs 1 0

def Ex.isNan : Ex → Bool
  | .nan _ => true
  | _ => false

def Ex.isSig : Ex → Bool
  | .nan b => b
  | _ => false

def Ex.isZero : Ex → Bool
  | .fin _ 0 _ _ => true
  | _ => false

def Ex.isFin : Ex → Bool
  | .fin _ _ _ _ => true
  | _ => false

def Ex.isNeg : Ex → Bool
  | .fin s _ _ _ => s
  | .inf s => s
  | .nan _ => false

def Ex.neg : Ex → Ex
  | .nan b => .nan b
  | .inf s => .inf (!s)
  | .fin s n d e => .fin (!s) n d e

def Ex.abs : Ex → Ex
  | .nan b => .nan b
  | .inf _ => .inf false
  | .fin _ n d e => .fin false n d e

/-- The value of a floating-point encoding (R117, R118, R120). -/
def FF.value (F : FF) (b : Nat) : Ex :=
  let sgn := (b >>> (F.width - 1)) % 2 == 1
  let mag := b % 2 ^ (F.width - 1)
  match F.inf, F.nan with
  | some i, _ =>
    if mag == i then .inf sgn
    else if mag > i then .nan (match F.quiet with | some q => (b >>> q) % 2 == 0 | none => false)
    else fin sgn mag
  | none, some n => if mag == n then .nan false else fin sgn mag
  | none, none => fin sgn mag
where
  fin (sgn : Bool) (mag : Nat) : Ex :=
    let e := mag / 2 ^ F.mb
    let f := mag % 2 ^ F.mb
    if e = 0 then .fin sgn f 1 (1 - (F.bias : Int) - F.mb)
    else .fin sgn (2 ^ F.mb + f) 1 ((e : Int) - F.bias - F.mb)

/-- The rounding modes of FMODE (R104, R127). -/
inductive RMode where
  | rne
  | rz
  | ru
  | rd
  deriving DecidableEq, Repr

def RMode.of (b : BitVec 2) : RMode :=
  match b.toNat with
  | 0 => .rne
  | 1 => .rz
  | 2 => .ru
  | _ => .rd

/-- n/d × 2^e as a quotient of naturals. -/
def shiftQ (n d : Nat) (e : Int) : Nat × Nat :=
  if 0 ≤ e then (n <<< e.toNat, d) else (n, d <<< (-e).toNat)

/-- The floor of log2 of n/d, for n and d not zero. -/
def log2Q (n d : Nat) : Int :=
  let k : Int := (n.log2 : Int) - d.log2
  let (a, b) := shiftQ n d (-k)
  if b ≤ a then k else k - 1

/-- Rounds n/d to an integer by a mode (R127), and says whether it was exact. -/
def roundQ (m : RMode) (neg : Bool) (n d : Nat) : Nat × Bool :=
  let q := n / d
  let r := n % d
  let up := match m with
    | .rne => decide (d < 2 * r) || (decide (2 * r = d) && decide (q % 2 = 1))
    | .rz => false
    | .ru => decide (r ≠ 0) && !neg
    | .rd => decide (r ≠ 0) && neg
  (if up then q + 1 else q, decide (r = 0))

/-- Round of R127 into a floating-point format: the magnitude encoding continued above +max as if the exponent range had
no end, and whether it is exact. `below` leaves the range unbounded below as well (for UF, R129): the result is then the
exponent of the last place and the significand. -/
def FF.roundMag (F : FF) (m : RMode) (below : Bool) (neg : Bool) (n d : Nat) (e : Int) : Nat × Int × Bool :=
  if n = 0 then (0, 1 - (F.bias : Int) - F.mb, true)
  else
    let E := log2Q n d + e
    let qmin : Int := 1 - (F.bias : Int) - F.mb
    let q := if below then E - F.mb else max (E - F.mb) qmin
    if q - E > F.mb + 4 then
      let (v, _) := roundQ m neg 1 16
      (v, q, false)
    else
      let (a, b) := shiftQ n d (e - q)
      let (v, ex) := roundQ m neg a b
      (v, q, ex)

/-- Where a result is narrowed to: a floating-point format, or an integer format with its limits and width. -/
inductive NT where
  | fp (F : FF)
  | int (lo hi : Int) (w : Nat)
  deriving DecidableEq, Repr

/-- The bits of an integer in w bits. -/
def intBits (v : Int) (w : Nat) : Nat := (v % (2 ^ w : Int)).toNat

def signBit (F : FF) (neg : Bool) : Nat := if neg then 2 ^ (F.width - 1) else 0

/-- Narrow of R129: the one step by which an exact value reaches a format. -/
def narrow (t : NT) (x : Ex) (m : RMode) (sat : Bool) : Nat × Flags :=
  match t, x with
  | .fp F, .nan _ =>
    match F.nan with
    | some c => (c, flNF)
    | none => (0, flNV)
  | .int _ _ _, .nan _ => (0, flNV)
  | .fp F, .inf s =>
    if sat then (signBit F s + F.maxBits, 0)
    else match F.inf, F.nan with
      | some i, _ => (signBit F s + i, flNF)
      | none, some c => (c, flNV ||| flNF)
      | none, none => (signBit F s + F.maxBits, flNV)
  | .int lo hi w, .inf s => (intBits (if s then lo else hi) w, if sat then 0 else flNV)
  | .int lo hi w, .fin s n d e =>
    let (a, b) := shiftQ n d e
    let (v, ex) := roundQ m s a b
    let y : Int := if s then -(v : Int) else v
    if hi < y then (intBits hi w, (if sat then flOF else flNV) ||| flNX)
    else if y < lo then (intBits lo w, (if sat then flOF else flNV) ||| flNX)
    else (intBits y w, flIf (!ex) flNX)
  | .fp F, .fin s n d e =>
    let (v, q, ex) := F.roundMag m false s n d e
    let qmin : Int := 1 - (F.bias : Int) - F.mb
    let mag := (q - qmin).toNat * 2 ^ F.mb + v
    if F.maxBits < mag then
      let toMax := sat || (F.nan.isNone && F.inf.isNone) || m == .rz || (m == .ru && s) || (m == .rd && !s)
      if toMax then (signBit F s + F.maxBits, flOF ||| flNX)
      else match F.inf, F.nan with
        | some i, _ => (signBit F s + i, flOF ||| flNX ||| flNF)
        | none, some c => (c, flOF ||| flNX ||| flNF)
        | none, none => (signBit F s + F.maxBits, flOF ||| flNX)
    else
      let (v', q', _) := F.roundMag m true s n d e
      let tiny := decide (n ≠ 0) && decide (log2Q (max v' 1) 1 + q' < 1 - (F.bias : Int))
      (signBit F s + mag, flIf (!ex) flNX ||| flIf (tiny && !ex) flUF)

/-- Whether the bits of a result in a format are an infinity or a NaN (R129: NF). -/
def FF.nonFinite (F : FF) (b : Nat) : Bool := !(F.value b).isFin

/-! Exact arithmetic. -/

/-- The operands of an operation: a NaN result, with NV for a signalling operand (R120). -/
def nanOf (xs : List Ex) : Option (Ex × Flags) :=
  if xs.any Ex.isNan then some (.nan false, flIf (xs.any Ex.isSig) flNV) else none

/-- x + y with the sign rule of an exact zero sum (R127). -/
def exAdd (m : RMode) (x y : Ex) : Ex × Flags :=
  match nanOf [x, y] with
  | some r => r
  | none =>
    match x, y with
    | .inf s, .inf t => if s == t then (.inf s, 0) else (.nan false, flNV)
    | .inf s, _ => (.inf s, 0)
    | _, .inf t => (.inf t, 0)
    | .fin s n d e, .fin t k c f =>
      let lo := min e f
      let a := n * c * 2 ^ (e - lo).toNat
      let b := k * d * 2 ^ (f - lo).toNat
      if s == t then (.fin s (a + b) (d * c) lo, 0)
      else if a = b then (.zero (m == .rd), 0)
      else if b < a then (.fin s (a - b) (d * c) lo, 0)
      else (.fin t (b - a) (d * c) lo, 0)
    | _, _ => (.nan false, 0)

/-- x × y; 0 × infinity is invalid (R120). -/
def exMul (x y : Ex) : Ex × Flags :=
  match nanOf [x, y] with
  | some r => r
  | none =>
    match x, y with
    | .fin s n d e, .fin t k c f => (.fin (s != t) (n * k) (d * c) (e + f), 0)
    | a, b => if a.isZero || b.isZero then (.nan false, flNV) else (.inf (a.isNeg != b.isNeg), 0)

/-- x / y; 0/0 and infinity/infinity are invalid, a finite nonzero value by zero sets DZ (R120, R129). -/
def exDiv (x y : Ex) : Ex × Flags :=
  match nanOf [x, y] with
  | some r => r
  | none =>
    match x, y with
    | .inf s, .fin t _ _ _ => (.inf (s != t), 0)
    | .inf _, _ => (.nan false, flNV)
    | .fin s _ _ _, .inf t => (.zero (s != t), 0)
    | .fin s n d e, .fin t k c f =>
      if k = 0 then (if n = 0 then (.nan false, flNV) else (.inf (s != t), flDZ))
      else (.fin (s != t) (n * c) (d * k) (e - f), 0)
    | a, _ => (a, 0)

/-- x × 2^n. -/
def exScale (x : Ex) (n : Int) : Ex :=
  match x with
  | .fin s a d e => if a = 0 then x else .fin s a d (e + n)
  | _ => x

/-- w ± x × y, fused (R145, R164). -/
def exFma (m : RMode) (w x y : Ex) (sub : Bool) : Ex × Flags :=
  match nanOf [w, x, y] with
  | some (r, f) =>
    -- an invalid product beside a NaN addend is still an invalid operation
    let (_, g) := exMul x y
    (r, f ||| g)
  | none =>
    let (p, f) := exMul x y
    let (r, g) := exAdd m w (if sub then p.neg else p)
    (r, f ||| g)

/-- The order of two finite or infinite values: -1, 0, 1, with −0 equal to +0. -/
def exCmp (x y : Ex) : Int :=
  match x, y with
  | .inf s, .inf t => if s == t then 0 else if s then -1 else 1
  | .inf s, _ => if s then -1 else 1
  | _, .inf t => if t then 1 else -1
  | .fin s n d e, .fin t k c f =>
    let lo := min e f
    let a : Int := (n * c * 2 ^ (e - lo).toNat : Nat)
    let b : Int := (k * d * 2 ^ (f - lo).toNat : Nat)
    let p := if s then -a else a
    let q := if t then -b else b
    if p < q then -1 else if q < p then 1 else 0
  | _, _ => 0

/-- The order that puts −0 below +0 (R145, R165). -/
def exCmpZ (x y : Ex) : Int :=
  let c := exCmp x y
  if c = 0 && x.isZero && y.isZero then
    (if x.isNeg && !y.isNeg then -1 else if !x.isNeg && y.isNeg then 1 else 0)
  else c

/-! Elements and cells (R121-R124). -/

/-- The width of an NI element under EFR (R105, R123). -/
def niWidth (efr : BitVec 12) : Nat :=
  match (efr.extractLsb' 1 2).toNat with
  | 0 => 2
  | 1 => 3
  | 2 => 4
  | _ => 6

def niSigned (efr : BitVec 12) : Bool := efr.getLsbD 0
def niSubE (efr : BitVec 12) : Bool := efr.getLsbD 3
def niSubV (efr : BitVec 12) : Int := (efr.extractLsb' 4 8).toInt

/-- The value of an NI code: SUBV for the reserved code when SUBE = 1 (R123, R124). -/
def niValue (efr : BitVec 12) (b : Nat) : Int :=
  let w := niWidth efr
  let sg := niSigned efr
  let rsv := if sg then 2 ^ (w - 1) else 2 ^ w - 1
  if niSubE efr && b == rsv then niSubV efr
  else if sg && decide (2 ^ (w - 1) ≤ b) then (b : Int) - 2 ^ w
  else b

/-- The writable range of NI (R124). -/
def niRange (efr : BitVec 12) : Int × Int :=
  let w := niWidth efr
  match niSigned efr, niSubE efr with
  | true, false => (-(2 ^ (w - 1)), 2 ^ (w - 1) - 1)
  | true, true => (-(2 ^ (w - 1) - 1), 2 ^ (w - 1) - 1)
  | false, false => (0, 2 ^ w - 1)
  | false, true => (0, 2 ^ w - 2)

/-- The value of an SPT weight byte (R125). A weight of zero has the sign + in a product (DESIGN CHOICE, log 62: R125 gives it none, R134 asks the
sign of each zero product). -/
def sptValue (b : Nat) : Ex :=
  let t (sg : Nat) (c : Nat) : Int := if c = 7 then 0 else (if sg = 1 then -1 else 1) * 2 ^ (6 - c)
  let v := t ((b >>> 7) % 2) ((b >>> 4) % 8) + t ((b >>> 3) % 2) (b % 8)
  .fin (decide (v < 0)) v.natAbs 1 (-6)

def Fmt.ff : Fmt → Option FF
  | .f32 => some fp32
  | .bf16 => some bf16
  | .f16 => some fp16
  | .e4m3 => some e4m3
  | .e5m2 => some e5m2
  | .e2m1 => some e2m1
  | .i32 => none
  | .ni => none

/-- The width of an element (R121). -/
def Fmt.width (f : Fmt) (efr : BitVec 12) : Nat :=
  match f with
  | .f32 => 32
  | .bf16 => 16
  | .f16 => 16
  | .e4m3 => 8
  | .e5m2 => 8
  | .e2m1 => 4
  | .i32 => 32
  | .ni => niWidth efr

/-- Elements per cell (R121). -/
def Fmt.count (f : Fmt) (efr : BitVec 12) : Nat := 32 / Fmt.width f efr

/-- Where results of a format are narrowed to (R122-R124). -/
def Fmt.nt (f : Fmt) (efr : BitVec 12) : NT :=
  match Fmt.ff f with
  | some F => .fp F
  | none =>
    match f with
    | .ni => let (lo, hi) := niRange efr; .int lo hi (niWidth efr)
    | _ => .int (-(2 ^ 31)) (2 ^ 31 - 1) 32

/-- The value of an element's bits (R117, R122-R124). -/
def Fmt.val (f : Fmt) (efr : BitVec 12) (b : Nat) : Ex :=
  match Fmt.ff f with
  | some F => F.value b
  | none =>
    match f with
    | .ni => .ofInt (niValue efr b)
    | _ => .ofInt (BitVec.ofNat 32 b).toInt

/-- Element k of a cell (R121). -/
def elem (f : Fmt) (efr : BitVec 12) (cell : Word32) (k : Nat) : Nat :=
  (cell.toNat >>> (Fmt.width f efr * k)) % 2 ^ Fmt.width f efr

/-- The elements of a cell, element 0 first. -/
def elems (f : Fmt) (efr : BitVec 12) (cell : Word32) : List Nat := (upto 0 (Fmt.count f efr)).map (elem f efr cell)

/-- A cell of elements, unoccupied bits zero (R121). -/
def pack (f : Fmt) (efr : BitVec 12) (es : List Nat) : Word32 :=
  BitVec.ofNat 32 (es.foldr (fun x acc => x % 2 ^ Fmt.width f efr + 2 ^ Fmt.width f efr * acc) 0)

/-- Narrow into an element format (R129). -/
def toFmt (f : Fmt) (efr : BitVec 12) (x : Ex) (m : RMode) (sat : Bool) : Nat × Flags := narrow (Fmt.nt f efr) x m sat

/-- A result of an arithmetic instruction: floats and NI by Narrow, I32 by wrap or clamp (R122, R161). -/
def arith (f : Fmt) (efr : BitVec 12) (x : Ex) (m : RMode) (sat : Bool) : Nat × Flags :=
  match f, x with
  | .i32, .fin s n d e =>
    let v : Int := (if s then -1 else 1) * ((shiftQ n d e).1 / (shiftQ n d e).2 : Nat)
    if sat then
      if (2 ^ 31 - 1 : Int) < v then (intBits (2 ^ 31 - 1) 32, flOF)
      else if v < -(2 ^ 31) then (intBits (-(2 ^ 31)) 32, flOF)
      else (intBits v 32, 0)
    else (intBits v 32, 0)
  | _, _ => toFmt f efr x m sat

/-- The bits of the canonical NaN of a format, or what R129 gives where it has none. -/
def canonical (f : Fmt) (efr : BitVec 12) : Nat × Flags := toFmt f efr (.nan false) .rne false

/-- The exact sum of a list of values, as a chunk of the matrix unit takes it (R133, R134). -/
def chunkSum (ps : List (Ex × Flags)) : Ex × Flags :=
  let fl := ps.foldl (fun a p => a ||| p.2) 0
  let xs := ps.map (fun p => p.1)
  if xs.any (fun x => x == .inf false) && xs.any (fun x => x == .inf true) then (.nan false, fl ||| flNV)
  else if xs.any Ex.isNan then (.nan false, fl)
  else if xs.any (fun x => x == .inf false) then (.inf false, fl)
  else if xs.any (fun x => x == .inf true) then (.inf true, fl)
  else
    let z := xs.foldl (fun a x => (exAdd .rne a x).1) (.zero true)
    if z.isZero then (.zero (!xs.isEmpty && xs.all (fun x => x.isZero && x.isNeg)), fl) else (z, fl)

end Sys2Proof.Machine
end

