-- ==== Sys2Proof/Machine/Mem.lean ====
section
/-! DEFINITION. Access to the records of the state; physical memory and home slices (R232, R233); page walks, TLBs and the
checks of a translation (R57-R68); the containment of a frame (R69). -/

namespace Sys2Proof.Machine

/-! Records. -/

/-- The stream with a key, wherever it is held. -/
def State.stream (s : State) (k : Nat) : Option Stream :=
  if s.curLive && k == s.curKey then some s.cur else s.streams.find k

/-- Writes a stream. -/
def State.putStream (s : State) (k : Nat) (x : Stream) : State :=
  if s.curLive && k == s.curKey then { s with cur := x } else { s with streams := s.streams.put k x }

/-- Changes a stream, if there is one. -/
def State.modStream (s : State) (k : Nat) (f : Stream → Stream) : State :=
  match s.stream k with
  | some x => s.putStream k (f x)
  | none => s

/-- The core that holds the focused stream is held apart. -/
def State.coreOf (s : State) (c : Nat) : Core := if c = s.curKey / 2 then s.core else s.cores.at c {}

def State.putCore (s : State) (c : Nat) (x : Core) : State :=
  if c = s.curKey / 2 then { s with core := x } else { s with cores := s.cores.put c x }

/-- Puts the focused stream and its core back into their tables. -/
def State.unfocus (s : State) : State :=
  let s := { s with cores := s.cores.put (s.curKey / 2) s.core }
  if s.curLive then { s with streams := s.streams.put s.curKey s.cur, curLive := false, cur := {} } else s

/-- Brings a stream and its core into focus. -/
def State.focus (s : State) (k : Nat) : State :=
  if s.curLive && k == s.curKey then s
  else
    let s := s.unfocus
    { s with
      curKey := k, curLive := s.streams.has k, cur := s.streams.at k {},
      streams := s.streams.del k, core := s.cores.at (k / 2) {} }

/-- Every bound stream with its key. -/
def State.allStreams (s : State) : List (Nat × Stream) :=
  if s.curLive then s.streams.put s.curKey s.cur else s.streams

/-- Every core with its number. -/
def State.allCores (s : State) : List (Nat × Core) := s.cores.put (s.curKey / 2) s.core

def State.rank (s : State) (i : Nat) : Rank := s.front.ranks.at i {}
def State.putRank (s : State) (i : Nat) (r : Rank) : State := { s with front := { s.front with ranks := s.front.ranks.put i r } }
def State.ctxAt (s : State) (c : Nat) : Ctx := s.front.ctxs.at c {}
def State.putCtx (s : State) (c : Nat) (x : Ctx) : State := { s with front := { s.front with ctxs := s.front.ctxs.put c x } }

/-- Changes a context, if it exists. -/
def State.modCtx (s : State) (c : Nat) (f : Ctx → Ctx) : State :=
  match s.front.ctxs.find c with
  | some x => s.putCtx c (f x)
  | none => s

/-- The index and record of a job of a context (R24, R348). -/
def State.jobOf (s : State) (c : Nat) (j : Word32) : Option (Nat × Job) :=
  s.front.jobs.find? (fun e => e.2.ctx == c && e.2.job == j && e.2.v != 0)

/-- The rank slots of a job. -/
def State.jobSlots (s : State) (c : Nat) (j : Word32) : List Nat :=
  (s.front.ranks.filter (fun e => e.2.state != .free && e.2.ctx == c && e.2.job == j)).map (fun e => e.1)

/-- Whether a stack holds the byte (R232). -/
def hbmExists (pa : Nat) : Bool := decide (pa < 2 ^ 41) && decide (pa % 2 ^ 37 < Config.stackBytes)

/-- The node of the module that holds a rank of a job, as the rank map names it (R348). A word with a reserved bit set (R5), or at an address that no
stack holds (R232), names none. -/
def State.mapNode (s : State) (c : Nat) (j : Word32) (rank : Nat) : Option Nat :=
  match s.jobOf c j with
  | some (_, b) =>
    let w := leNat (s.mem.hbm.bytes 4 (b.mapbase + 4 * rank))
    if w / 2 ^ 20 = 2 ^ 11 && hbmExists (b.mapbase + 4 * rank) then some (w % 2 ^ 20) else none
  | none => none

/-- The slot of a rank of a job in this module's rank table. -/
def State.slotOfRank (s : State) (c : Nat) (j : Word32) (rank : Nat) : Option Nat :=
  (s.jobSlots c j).find? (fun i => (s.rank i).vrank.toNat == rank)

/-- The slot to which a packet for a rank that has reached this module may be delivered now: the rank is ACTIVE here (R74, R382). -/
def State.deliverTo (s : State) (c : Nat) (j : Word32) (rank : Nat) : Option Nat :=
  (s.slotOfRank c j rank).filter (fun i => (s.rank i).state == .active)

/-- A fresh identity. -/
def State.fresh (s : State) : Nat × State := (s.nextId, { s with nextId := s.nextId + 1 })

/-- The counter of the free values, and the next. -/
def State.draw (s : State) : Nat × State := (s.tick, { s with tick := s.tick + 1 })

/-- The states that hold HBM pages (R54). -/
def RState.isH : RState → Bool
  | .active => true
  | .evicting => true
  | .recalling => true
  | .departing => true
  | .arriving => true
  | _ => false

/-- The compute die of a core: 16 crews of 8 cores (R11). -/
def coreDie (c : Nat) : Nat := c / 128

/-! Physical memory. -/

/-- The die of a physical address (R232). -/
def paDie (pa : Nat) : Nat := pa / 2 ^ 37 / 4 % 4

/-- The slice index of R233, before any slice is fenced. -/
def sliceIndex (pa : Nat) : Nat :=
  let n := pa / 128
  let six (k : Nat) : BitVec 6 := BitVec.ofNat 6 (n / 2 ^ (6 * k))
  (six 0 ^^^ six 1 ^^^ six 2 ^^^ six 3 ^^^ six 4 ^^^ six 5 ^^^ six 6 ^^^ BitVec.ofNat 6 (n / 2 ^ 42 % 8)).toNat

/-- The home slice of a line: die × 64 + index, index i replaced by a survivor when slices of the die are fenced (R233). -/
def State.homeSlice (s : State) (pa : Nat) : Nat :=
  let d := paDie pa
  let i := sliceIndex pa
  let live := (upto 0 64).filter (fun k => !(s.slices.at (64 * d + k) {}).fenced)
  if live.length = 64 then 64 * d + i else 64 * d + live.getD (i % live.length) i

/-- Whether the poison filter of the frame's die names the frame, or its die is fenced (R69, R343). -/
def State.poisoned (s : State) (pa : Nat) : Bool :=
  s.mem.poison.contains (pa / 4096) || s.mgmt.fdies.contains (paDie pa)

/-! Encryption (R70-R72). -/

/-- The version of a buffer of a context (R72). -/
def State.ver (s : State) (ctx : Nat) (buf : BitVec 24) : Word32 := (s.ctxAt ctx).vers.get buf.toNat

/-- The tweak of a line (R71). -/
def tweak (pa : Nat) (ver : Word32) (buf : BitVec 24) : BitVec 128 :=
  BitVec.ofNat 128 (pa / 128 % 2 ^ 45 + ver.toNat * 2 ^ 64 + buf.toNat * 2 ^ 96)

/-- What a line of a buffer of a context is encrypted with now (R70, R71). -/
def State.encNow (s : State) (ctx : Nat) (buf : BitVec 24) : Enc := { ctx := ctx, key := (s.ctxAt ctx).keys, buf := buf, ver := s.ver ctx buf }

/-- Whether two encryptions have the same key. -/
def Enc.sameKey (w r : Enc) : Bool := w.ctx == r.ctx && w.key == r.key

/-- Whether a line at an address written with `w` is read back with `r`: the same key and the same tweak. -/
def Enc.reads (w r : Enc) (pa : Nat) : Bool := w.sameKey r && tweak pa w.ver w.buf == tweak pa r.ver r.buf

/-- What a byte reads as under another key or tweak: open. -/
def Enc.garbled (w r : Enc) (pa : Nat) (raw : Byte) : Byte :=
  let part (e : Enc) : List Nat := e.ctx :: (tweak pa e.ver e.buf).toNat :: (e.key.getD []).map (fun k => k.toNat)
  Config.garble (part w ++ part r) pa raw.toNat

/-- A byte of HBM as read through the security block under a context and buffer (R70-R72). -/
def State.homeByte (s : State) (ctx : Nat) (buf : BitVec 24) (pa : Nat) : Byte :=
  let raw := s.mem.hbm.get pa
  match s.mem.enc.find (pa / 128) with
  | none => raw
  | some t => if t.reads (s.encNow ctx buf) pa then raw else t.garbled (s.encNow ctx buf) pa raw

/-- A byte of a table or of another record that no BUF covers: under the context's key, whatever its buffer (R70). -/
def State.tabByte (s : State) (ctx : Nat) (pa : Nat) : Byte :=
  let raw := s.mem.hbm.get pa
  match s.mem.enc.find (pa / 128) with
  | none => raw
  | some t => if t.sameKey (s.encNow ctx t.buf) then raw else t.garbled (s.encNow ctx t.buf) pa raw

/-! Containment (R69, R344). -/

/-- A containment event to the hypervisor (R344). -/
def State.cevent (s : State) (kind cause ctx unit addr vrank : Nat) : State :=
  let ce0 := kind * 2 ^ 56 + cause * 2 ^ 48 + ctx * 2 ^ 32 + unit
  { s with outs := { s.outs with
      cevents := s.outs.cevents ++ [[BitVec.ofNat 64 ce0, BitVec.ofNat 64 addr, s.cycle, BitVec.ofNat 64 vrank]] } }

/-- UNIT of a containment event (R344). -/
def unitWord (die kind index : Nat) : Nat := die * 2 ^ 30 + kind * 2 ^ 26 + index

/-- Writes a frame into the poison filter of its die; the 257th frame has the die fenced (R69). -/
def State.poisonFrame (s : State) (frame : Nat) : State :=
  let m := s.mem
  if m.poison.contains frame then s
  else if 256 ≤ (m.poison.filter (fun f => paDie (f * 4096) == paDie (frame * 4096))).length then
    { s with mgmt := { s.mgmt with fenceDue := s.mgmt.fenceDue ++ [(.die (paDie (frame * 4096)), false)] } }
  else { s with mem := { m with poison := m.poison ++ [frame] } }

/-- The event of a poisoned frame that no rank maps: whose it is is open (R344). -/
def State.orphanEvent (s : State) (frame : Nat) : State :=
  let (t, s) := s.draw
  let d := paDie (frame * 4096)
  s.cevent 2 0x08 (fld (Config.freeWord t) 5 0) (unitWord d 4 d) (frame * 4096) (fld (Config.freeWord t) 31 16)

/-- An agent's own access to a physical address that no stack holds: an uncorrectable error of its frame, which no rank made (R232, R69). -/
def State.badAgent (s : State) (pa : Nat) : State := (s.poisonFrame (pa / 4096)).orphanEvent (pa / 4096)

/-- Removes the TLB entries of a slot that overlap [va, va + len); len 0 means the whole slot (R65). -/
def Tlb.hit (slot va len : Nat) (e : Tlb) : Bool :=
  e.slot == slot && (len == 0 || (decide (e.vbase < va + len) && decide (va < e.vbase + e.size)))

def State.shoot (s : State) (slot va len : Nat) : State :=
  let keep (l : List Tlb) : List Tlb := l.filter (fun e => !e.hit slot va len)
  { s with
    core := { s.core with tlb := keep s.core.tlb },
    cores := s.cores.map (fun e => (e.1, { e.2 with tlb := keep e.2.tlb })),
    crews := s.crews.map (fun e => (e.1, { e.2 with tlb := keep e.2.tlb })) }

/-! Page walks (R58-R60). -/

/-- Access kinds of R68. -/
inductive AKind where
  | fetch
  | load
  | store
  | atomic
  | eread
  | ewrite
  deriving DecidableEq, Repr

def AKind.code : AKind → Nat
  | .fetch => 0
  | .load => 1
  | .store => 2
  | .atomic => 3
  | .eread => 4
  | .ewrite => 5

def AKind.writes : AKind → Bool
  | .store => true
  | .atomic => true
  | .ewrite => true
  | _ => false

def AKind.engine : AKind → Bool
  | .eread => true
  | .ewrite => true
  | _ => false

/-- TRAPINFO of R68. -/
def info68 (level : Nat) (k : AKind) (sub : Nat) : Word64 := BitVec.ofNat 64 (level * 4096 + k.code * 256 + sub)

def trap68 (cause : Byte) (va level : Nat) (k : AKind) (sub : Nat) (frame : Option Nat := none) : TrapRec :=
  { cause := cause, addr := BitVec.ofNat 64 va, info := info68 level k sub, frame := frame.map (fun f => (f, va)) }

/-- The index field of a level (R58). -/
def walkIndex (level va : Nat) : Nat := if level = 4 then va / 2 ^ 48 % 256 else va / 2 ^ (12 + 9 * level) % 512

/-- The page size of an SZ code (R59). -/
def szBytes : Nat → Nat
  | 1 => 2 ^ 12
  | 2 => 2 ^ 16
  | 3 => 2 ^ 21
  | 4 => 2 ^ 25
  | 5 => 2 ^ 30
  | _ => 0

/-- The leaf sizes a level allows (R58). -/
def szAllowed (level sz : Nat) : Bool :=
  match level with
  | 0 => sz == 1 || sz == 2
  | 1 => sz == 3 || sz == 4
  | 2 => sz == 5
  | _ => false

/-- ADDR of an entry, as the physical address it names (R59). -/
def pteAddr (p0 : Word64) : Nat := fld p0 51 12 * 4096

/-- Whether a core is fenced (R343). -/
def State.coreFenced (s : State) (c : Nat) : Bool := (s.coreOf c).fenced || (s.crews.at (c / 8) {}).fenced

/-- BADENTRY of an entry with V = 1 (R60). -/
def State.pteBad (s : State) (level : Nat) (p0 p1 : Word64) : Bool :=
  let sz := fld p0 11 9
  fld p0 63 52 != 0 || fld p0 8 5 != 0 || fld p0 2 1 != 0 ||
  (if sz = 0 then level == 0 || pteAddr p0 % 8192 != 0
   else
    !szAllowed level sz || pteAddr p0 % szBytes sz != 0 || fld p1 59 41 != 0 || fld p1 31 24 != 0 ||
    (if fld p1 63 62 = 3 then s.coreFenced (fld p1 40 32) else fld p1 40 32 != 0))

/-- The leaf fields that a TLB entry holds (R62). -/
def Tlb.of (slot va level : Nat) (p0 p1 : Word64) : Tlb :=
  let size := szBytes (fld p0 11 9)
  { slot := slot, vbase := va / size * size, size := size, pa := pteAddr p0, home := p1.extractLsb' 62 2,
    psn := p1.getLsbD 61, lat := p1.getLsbD 60, hcore := fld p1 40 32, buf := p1.extractLsb' 0 24,
    x := p0.getLsbD 4, w := p0.getLsbD 3, level := level }

/-- One entry of a table, decrypted under a rank's context: two little-endian words (R59, R70). -/
def State.pte (s : State) (ctx a : Nat) : Word64 × Word64 :=
  (BitVec.ofNat 64 (leNat ((upto a 8).map (s.tabByte ctx))), BitVec.ofNat 64 (leNat ((upto (a + 8) 8).map (s.tabByte ctx))))

/-- A walk from a table down (R60): the leaf and the address of its entry, or the trap. -/
def State.walkFrom (s : State) (slot va : Nat) (k : AKind) : (level : Nat) → (table : Nat) → Except TrapRec (Tlb × Nat)
  | level, table =>
    let i := walkIndex level va
    let a := table + 16 * i
    if !(hbmExists a && hbmExists (a + 15)) then .error (trap68 0x08 va level k 0x20 (some (a / 4096)))
    else
      let (p0, p1) := s.pte (s.rank slot).ctx a
      if !p0.getLsbD 0 then .error (trap68 0x05 va level k 0x02)
      else if s.pteBad level p0 p1 then .error (trap68 0x05 va level k 0x03)
      else
        let sz := fld p0 11 9
        if sz = 0 then
          match level with
          | 0 => .error (trap68 0x05 va 0 k 0x03)
          | l + 1 => s.walkFrom slot va k l (pteAddr p0)
        else if sz = 2 || sz = 4 then
          let g := table + 16 * (i / 16 * 16)
          let (h0, h1) := s.pte (s.rank slot).ctx g
          if !h0.getLsbD 0 || fld h0 11 9 != sz then .error (trap68 0x05 va level k 0x04)
          else if s.pteBad level h0 h1 then .error (trap68 0x05 va level k 0x03)
          else .ok (Tlb.of slot va level h0 h1, g)
        else .ok (Tlb.of slot va level p0 p1, a)

/-- The walk of a rank's address (R57, R60). -/
def State.walk (s : State) (slot va : Nat) (k : AKind) : Except TrapRec (Tlb × Nat) :=
  s.walkFrom slot va k 4 (s.rank slot).ptroot

/-! TLBs (R62). -/

def tlbFind (l : List Tlb) (slot va : Nat) : Option Tlb :=
  l.find? (fun e => e.slot == slot && decide (e.vbase ≤ va) && decide (va < e.vbase + e.size))

/-- Adds an entry to a TLB of a capacity; which entry a full TLB gives up is open (R62). -/
def tlbFill (cap pick : Nat) (l : List Tlb) (e : Tlb) : List Tlb :=
  if l.length < cap then l ++ [e] else l.eraseIdx (pick % l.length) ++ [e]

/-- Fills the core TLB, and the crew TLB when `walked`. An engine operation uses the crew TLB only (R62). -/
def State.tlbAdd (s : State) (core : Nat) (eng walked : Bool) (e : Tlb) : State :=
  let s := if eng then s else
    let c := s.coreOf core
    s.putCore core { c with tlb := tlbFill 256 (Config.freeSched s.tick) c.tlb e }
  if walked then
    let c := s.crews.at (core / 8) {}
    { s with crews := s.crews.put (core / 8) { c with tlb := tlbFill 2048 (Config.freeSched s.tick) c.tlb e } }
  else s

/-- The leaf of an address: core TLB, crew TLB, walk (R62); `walked` says whether a walk was made. -/
def State.leaf (s : State) (core slot va : Nat) (k : AKind) : Except TrapRec (Tlb × Bool × State) :=
  match (if k.engine then none else tlbFind (s.coreOf core).tlb slot va) with
  | some e => .ok (e, false, s)
  | none =>
    match tlbFind (s.crews.at (core / 8) {}).tlb slot va with
    | some e => .ok (e, false, s.tlbAdd core k.engine false e)
    | none =>
      match s.walk slot va k with
      | .error t => .error t
      | .ok (e, _) => .ok (e, true, s.tlbAdd core k.engine true e)

/-- The physical address of an address under a leaf. -/
def Tlb.phys (e : Tlb) (va : Nat) : Nat := e.pa + (va - e.vbase)

/-- Translation with the checks of R67 in their order: NONCANON, walk, poison, protection, ownership of HOME = 11. -/
def State.xlat (s : State) (core slot va : Nat) (k : AKind) : Except TrapRec (Tlb × State) :=
  if 2 ^ 56 ≤ va then .error (trap68 0x05 va 0xF k 0x01)
  else
    match s.leaf core slot va k with
    | .error t => .error t
    | .ok (e, walked, s') =>
      let level := if walked then e.level else 0xF
      let pa := e.phys va
      if e.psn || s.poisoned pa then .error (trap68 0x08 va level k 0x20)
      else if k.writes && !e.w then .error (trap68 0x06 va level k 0x10)
      else if k == .fetch && !e.x then .error (trap68 0x06 va level k 0x11)
      else if e.home == 3 && e.hcore != core then .error (trap68 0x07 va 0xF k 0x42)
      else if !hbmExists pa then .error (trap68 0x08 va level k 0x20 (some (pa / 4096)))
      else .ok (e, s')

/-- The containment agent's part of R69 for the rank whose access met the error: the filter, PSN in its leaf, the
shootdown of the page, and the containment event. -/
def State.contain (s : State) (slot va frame : Nat) : State :=
  let r := s.rank slot
  let s := s.poisonFrame frame
  let s := match s.walk slot va .load with
    | .error _ => s
    | .ok (e, a) =>
      let (_, p1) := s.pte r.ctx a
      let s := { s with mem := { s.mem with hbm := s.mem.hbm.put (a + 8) (leBytes (p1 ||| BitVec.ofNat 64 (2 ^ 61)).toNat 8) } }
      s.shoot slot e.vbase e.size
  s.cevent 2 0x08 r.ctx (unitWord (paDie (frame * 4096)) 4 (paDie (frame * 4096))) (frame * 4096) r.vrank.toNat

end Sys2Proof.Machine
end

