-- ==== Sys2Proof/Machine/Access.lean ====
section
/-! DEFINITION. Access to bytes: where each byte of an access lies (R231, R237), reading and writing window and global bytes,
the location order and clocks of R258-R260, heat tags (R273, R274), bucket counts (R314), the pin pool (R235). -/

namespace Sys2Proof.Machine

/-- Where a byte lies: a scratchpad key (core × 2^20 + offset), or a physical address under a leaf. -/
inductive Place where
  | win (key : Nat)
  | glob (pa : Nat) (e : Tlb)
  deriving DecidableEq, Repr

/-- A run of bytes of an access inside one 4 KiB page, with the place of the first. -/
structure Piece where
  va : Nat
  n : Nat
  pl : Place
  deriving DecidableEq, Repr

/-- Cuts n bytes from a upward at the multiples of a step. -/
def chunks (step : Nat) : (fuel a n : Nat) → List (Nat × Nat)
  | 0, _, _ => []
  | f + 1, a, n =>
    if n = 0 then []
    else
      let k := min n (step - a % step)
      (a, k) :: chunks step f (a + k) (n - k)

def cut (step a n : Nat) : List (Nat × Nat) := chunks step (n / step + 2) a n

/-- Whether an address lies in the scratchpad window (R231). -/
def inWindow (va : Nat) : Bool := decide (Config.spwbase ≤ va) && decide (va < 2 ^ 56)

/-- The scratchpad key of a window address, or SUB 0x40 or 0x41 of R237. -/
def Stream.winKey (x : Stream) (core va : Nat) : Except Nat Nat :=
  let off := va - Config.spwbase
  if off < 2 ^ 20 then
    match x.lgran.find (off / 65536) with
    | some g => .ok (core * 2 ^ 20 + g * 65536 + off % 65536)
    | none => .error 0x40
  else
    match x.recv.find ((off - 2 ^ 20) / 65536) with
    | some r => .ok (r.core * 2 ^ 20 + r.gran * 65536 + off % 65536)
    | none => .error 0x41

def ownTrap (va : Nat) (k : AKind) (sub : Nat) : TrapRec := trap68 0x07 va 0xF k sub

/-- The place of one address for a stream (R231, R67). -/
def State.place (s : State) (x : Stream) (core va : Nat) (k : AKind) : Except TrapRec (Place × State) :=
  if inWindow va then
    match x.winKey core va with
    | .ok key => .ok (.win key, s)
    | .error sub => .error (ownTrap va k sub)
  else
    match s.xlat core x.slot va k with
    | .ok (e, s') => .ok (.glob (e.phys va) e, s')
    | .error t => .error t

/-- Places a list of runs, each translated on its own (R237). -/
def State.placeAll (s : State) (x : Stream) (core : Nat) (k : AKind) : List (Nat × Nat) → Except TrapRec (List Piece × State)
  | [] => .ok ([], s)
  | (va, n) :: r =>
    match s.place x core va k with
    | .error t => .error t
    | .ok (p, s) =>
      match s.placeAll x core k r with
      | .error t => .error t
      | .ok (ps, s) => .ok (⟨va, n, p⟩ :: ps, s)

/-- The pieces of an access of n bytes at va, or its first fault (R237 step 2). -/
def State.pieces (s : State) (x : Stream) (core va n : Nat) (k : AKind) : Except TrapRec (List Piece × State) :=
  s.placeAll x core k (cut 4096 va n)

/-- The scratchpad words of a window piece that hold an uncorrectable error (R342). -/
def Piece.bad (m : MemSys) (p : Piece) : Bool :=
  match p.pl with
  | .win key => m.bad.any (fun w => decide (key / 4 ≤ w) && decide (w ≤ (key + p.n - 1) / 4))
  | .glob _ _ => false

/-- Whether a piece lies in a page whose buffer is being bumped (R72). -/
def State.bumping (s : State) (ctx : Nat) (p : Piece) : Bool :=
  match p.pl with
  | .win _ => false
  | .glob _ e => (s.ctxAt ctx).bumps.contains e.buf.toNat

/-- Places window runs; an address outside the window is a granule not held (SUB 0x40). -/
def Stream.winAll (x : Stream) (core : Nat) (k : AKind) : List (Nat × Nat) → Except TrapRec (List Piece)
  | [] => .ok []
  | (va, n) :: r =>
    match (if inWindow va then x.winKey core va else .error 0x40) with
    | .error sub => .error (ownTrap va k sub)
    | .ok key =>
      match x.winAll core k r with
      | .error t => .error t
      | .ok ps => .ok (⟨va, n, .win key⟩ :: ps)

/-- The pieces of an access that must lie wholly in held granules (R184, R248). -/
def Stream.winPieces (x : Stream) (core va n : Nat) (k : AKind) : Except TrapRec (List Piece) := x.winAll core k (cut 4096 va n)

/-- The bytes of window pieces. -/
def winBytes (spad : Memory) (ps : List Piece) : List Byte :=
  (ps.map (fun p => match p.pl with | .win k => spad.bytes p.n k | .glob _ _ => [])).flatten

/-- Writes bytes over window pieces. -/
def winKeys (ps : List Piece) : List (Nat × Nat) :=
  ps.filterMap (fun p => match p.pl with | .win k => some (k, p.n) | .glob _ _ => none)

/-! Clocks (R260). -/

/-- The four entries of a die's clock. -/
def MemSys.clock (m : MemSys) (d : Nat) : List Nat := (upto 0 4).map (fun e => (m.clocks.get (4 * d + e)).toNat)

/-- a ≤ b in serial-number arithmetic modulo 2^32 (R260). -/
def serialLe (a b : Nat) : Bool := decide ((b + 2 ^ 32 - a) % 2 ^ 32 < 2 ^ 31)

/-- Whether a die may send one more write: none of the others has 2^30 of its writes unapplied (R260). -/
def MemSys.maySend (m : MemSys) (d : Nat) : Bool :=
  (upto 0 4).all (fun t => decide ((m.rq.filter (fun r => r.src == d && r.dst == t)).length < 2 ^ 30))

/-- Whether a die may apply an incoming write now: its clock allows it, and, where the write is performed there, the die may send its updates (R260). -/
def MemSys.mayApply (m : MemSys) (r : RWrite) : Bool :=
  let mine := m.clock r.dst
  (mine.getD r.src 0 + 1) % 2 ^ 32 == r.clock.getD r.src 0
    && (upto 0 4).all (fun e => e == r.src || serialLe (r.clock.getD e 0) (mine.getD e 0))
    && (r.wr.isNone || m.maySend r.dst)

/-- What of a release's bytes at a copy a write over n bytes at pa leaves. -/
def Heard.minus (place pa n : Nat) (e : Heard) : List Heard :=
  if e.place ≠ place || e.pa + e.n ≤ pa || pa + n ≤ e.pa then [e]
  else
    (if e.pa < pa then [{ e with n := pa - e.pa }] else []) ++ (if pa + n < e.pa + e.n then [{ e with pa := pa + n, n := e.pa + e.n - (pa + n) }] else [])

/-- Whether a write has not reached every copy. -/
def MemSys.isOpen (m : MemSys) (id : Nat) : Bool := m.wq.any (fun w => w.id == id) || m.rq.any (fun r => r.orig == some id)

/-- A write reaches n bytes of a copy: the releases that stood there end, unless it is an atomic's, and its own stand there (R264). -/
def MemSys.note (m : MemSys) (place pa n core : Nat) (rls : List Rls) (atom : Bool) : MemSys :=
  if n = 0 then m
  else
    let old := if atom then m.rels else (m.rels.map (Heard.minus place pa n)).flatten
    let new := (rls.filter (fun r => r.ids.any m.isOpen)).map (fun r => ({ place := place, pa := pa, n := n, core := core, rls := r } : Heard))
    { m with rels := old.filter (fun e => e.rls.ids.any m.isOpen) ++ new }

/-- Sends one write of a die to the three others: each receives the clock, one of them the pending write or all the update
of a replica (R260). -/
def State.broadcast (s : State) (d : Nat) (key : Option Nat) (wr : Option (Nat × Nat)) (pa : Nat) (bytes : List Byte) (by_ : Option PWrite) : State :=
  let own := (s.mem.clocks.get (4 * d + d)) + 1
  let m := { s.mem with clocks := s.mem.clocks.set (4 * d + d) own }
  let clk := m.clock d
  let mk (s : State) (t : Nat) : State :=
    if t = d then s
    else
      let (i, s) := s.fresh
      let w := match wr with | some (h, id) => if t = h then some id else none | none => none
      let r : RWrite := {
        id := i, key := key, src := d, dst := t, clock := clk, wr := w, pa := pa, bytes := bytes,
        orig := by_.map (fun w => w.id), core := (by_.map (fun w => w.key / 2)).getD 0, rls := (by_.map (fun w => w.rls)).getD [],
        atom := (by_.map (fun w => w.atom)).getD false }
      { s with mem := { s.mem with rq := s.mem.rq ++ [r] } }
  (upto 0 4).foldl mk { s with mem := m }

/-! Home memory. -/

def State.homeBytes (s : State) (ctx : Nat) (buf : BitVec 24) (pa n : Nat) : List Byte :=
  (upto pa n).map (s.homeByte ctx buf)

/-- Puts bytes of one line into HBM under a context and buffer: a line last written under another tweak is decrypted and
encrypted again as a whole (R70, R383). -/
def State.homePut (s : State) (ctx : Nat) (buf : BitVec 24) (pa : Nat) (bytes : List Byte) : State :=
  let line := pa / 128
  let tag := s.encNow ctx buf
  let m := s.mem
  let hbm := match m.enc.find line with
    | some t => if t.reads tag pa then m.hbm else m.hbm.put (line * 128) (s.homeBytes ctx buf (line * 128) 128)
    | none => m.hbm
  { s with mem := { m with hbm := hbm.put pa bytes, enc := m.enc.put line tag } }

/-- Bytes of pinned share in use in a home slice: tag records of 1,056 bytes and pinned lines of 128 (R233, R273, R274). -/
def State.pinShare (s : State) (slice : Nat) : Nat :=
  1056 * (s.mem.tags.filter (fun t => s.homeSlice (t.1 * 128) == slice)).length
    + 128 * (s.mem.pins.filter (fun p => s.homeSlice (p.1 * 128) == slice)).length

/-- Lines of HOME = 10 pages are pinned in their slice from first touch, while its share has room (R234). -/
def State.pinHome (s : State) (slot va pa n : Nat) : State :=
  (cut 128 pa n).foldl (fun (s : State) r =>
    let line := r.1 / 128
    if s.mem.pins.any (fun p => p.1 == line) || decide (2 ^ 20 < s.pinShare (s.homeSlice (line * 128)) + 128) then s
    else { s with mem := { s.mem with pins := s.mem.pins ++ [(line, slot, va + (line * 128 - pa))] } }) s

/-- One byte against a tag record whose key matches (R273): whether it applies. -/
def HTag.takes (t : HTag) (wid : Word64) (i : Nat) : Bool := !t.mask.getLsbD i || decide ((t.wids.get i).toNat ≤ wid.toNat)

/-- The bytes of one line's run that a tagged write applies, and the line's record after it (R273). -/
def HTag.filter (t : HTag) (key : List Nat) (wid : Word64) (off : Nat) (bytes : List Byte) : HTag × List (Option Byte) :=
  let t : HTag := if t.key = key then t else { key := key }
  let is := (upto 0 bytes.length).zip bytes
  let keep := is.map (fun e => if t.takes wid (off + e.1) then some e.2 else none)
  let t := is.foldl (fun (t : HTag) e =>
    if t.takes wid (off + e.1) then
      { t with mask := t.mask ||| BitVec.ofNat 128 (2 ^ (off + e.1)), wids := t.wids.set (off + e.1) wid }
    else t) t
  (t, keep)

/-- Adds the counted bytes of a write to the rank's armed buckets (R314). -/
def Bucket.count (b : Bucket) (vas : List Nat) : Bucket :=
  if b.full || b.off then b
  else
    let n := b.n + (vas.filter (fun a => decide (b.d.src ≤ a) && decide (a < b.d.src + b.bytes))).length
    { b with n := n, full := decide (b.total ≤ n) }

def State.bucketCount (s : State) (slot : Nat) (vas : List Nat) : State :=
  let r := s.rank slot
  if r.buckets.isEmpty then s
  else s.putRank slot { r with buckets := r.buckets.map (fun (e : Nat × Bucket) => (e.1, e.2.count vas)) }

/-- Sends the new bytes of a run to the read replicas on the other dies (R258, R260); the line's clock then names that write too. -/
def State.feedReplicas (s : State) (key : Option Nat) (ctx : Nat) (buf : BitVec 24) (pa n : Nat) (by_ : Option PWrite := none) : State :=
  let s := if (upto 0 4).any (fun d => s.mem.reps.has (pa / 128 * 4 + d)) then
    s.broadcast (paDie pa) key none pa (s.homeBytes ctx buf pa n) by_
  else s
  { s with mem := { s.mem with lclk := s.mem.lclk.put (pa / 128) (s.mem.clock (paDie pa)) } }

/-- The bytes of a run stand at their home: the releases of the write there, and the replicas' updates. -/
def State.landHome (s : State) (w : PWrite) (pa n : Nat) (kept : List Nat) : State :=
  let m := if kept.length = n then s.mem.note (paDie pa) pa n (w.key / 2) w.rls w.atom
    else kept.foldl (fun (m : MemSys) a => m.note (paDie pa) a 1 (w.key / 2) w.rls w.atom) s.mem
  ({ s with mem := m }).feedReplicas (some w.key) w.ctx w.buf pa n (some w)

/-- Performs one line's run of a write at its home: heat tags, the bytes, replicas; answers the virtual addresses changed. -/
def State.performRun (s : State) (w : PWrite) (pa : Nat) (bytes : List Byte) : State × List Nat :=
  let line := pa / 128
  let va := w.va + (pa - w.pa)
  let all := (upto 0 bytes.length).map (fun i => va + i)
  match w.tag with
  | none =>
    let s := s.homePut w.ctx w.buf pa bytes
    (s.landHome w pa bytes.length ((upto 0 bytes.length).map (fun i => pa + i)), all)
  | some key =>
    let slice := s.homeSlice pa
    if !s.mem.tags.has line && 2 ^ 20 < s.pinShare slice + 1056 then
      let s := s.modCtx w.ctx (fun c => { c with heatspill := c.heatspill + 1 })
      let s := s.homePut w.ctx w.buf pa bytes
      (s.landHome w pa bytes.length ((upto 0 bytes.length).map (fun i => pa + i)), all)
    else
      let (t, keep) := (s.mem.tags.at line {}).filter key w.wid (pa % 128) bytes
      let s := { s with mem := { s.mem with tags := s.mem.tags.put line t } }
      let old := s.homeBytes w.ctx w.buf pa bytes.length
      let s := s.homePut w.ctx w.buf pa ((keep.zip old).map (fun e => e.1.getD e.2))
      let kept := ((all.zip keep).filter (fun e => e.2.isSome)).map (fun e => e.1)
      (s.landHome w pa bytes.length (kept.map (fun a => w.pa + (a - w.va))), kept)

/-- HEATDROP counts a store one of whose bytes was dropped, once for all its pieces (R273). -/
def State.countDrop (s : State) (w : PWrite) : State :=
  let s := s.modCtx w.ctx (fun c => { c with heatdrop := c.heatdrop + 1 })
  { s with mem := { s.mem with wq := mapIf (fun v => v.grp == w.grp) (fun v => { v with dropped := true }) s.mem.wq } }

/-- Performs a write at its home (R257, R258, R273, R314). -/
def State.perform (s : State) (w : PWrite) : State :=
  let s := if w.home = 2 then s.pinHome w.slot w.va w.pa w.bytes.length else s
  let runs := cut 128 w.pa w.bytes.length
  let (s, vas) := runs.foldl (fun (a : State × List Nat) r =>
    let (s, v) := a.1.performRun w r.1 ((w.bytes.drop (r.1 - w.pa)).take r.2)
    (s, a.2 ++ v)) (s, [])
  let s := if w.tag.isSome && vas.length < w.bytes.length && !w.dropped then s.countDrop w else s
  if w.cnt then s.bucketCount w.slot vas else s

/-- Removes a pending write. -/
def State.dropWrite (s : State) (id : Nat) : State := { s with mem := { s.mem with wq := s.mem.wq.filter (fun w => w.id != id) } }

/-- A die applies an incoming write (R260). -/
def State.applyR (s : State) (r : RWrite) : State :=
  let m := s.mem
  let m := { m with rq := m.rq.filter (fun e => e.id != r.id), clocks := m.clocks.set (4 * r.dst + r.src) (BitVec.ofNat 32 (r.clock.getD r.src 0)) }
  let s := { s with mem := m }
  match r.wr with
  | some id =>
    match m.wq.find? (fun w => w.id == id) with
    | some w => (s.dropWrite id).perform w
    | none => s
  | none =>
    let one (t : Tbl (List Byte)) (e : Nat × Nat) : Tbl (List Byte) :=
      match t.find (e.1 / 128 * 4 + r.dst) with
      | some l =>
        let new := (r.bytes.drop (e.1 - r.pa)).take e.2
        t.put (e.1 / 128 * 4 + r.dst) (l.take (e.1 % 128) ++ new ++ l.drop (e.1 % 128 + e.2))
      | none => t
    { s with mem := { s.mem.note r.dst r.pa r.bytes.length r.core r.rls r.atom with
        reps := (cut 128 r.pa r.bytes.length).foldl one s.mem.reps } }

/-- Before a die that must hold its outgoing writes sends one more, those it has sent are applied (R260). -/
def State.roomFor (s : State) (d : Nat) : State :=
  if s.mem.maySend d then s else (s.mem.rq.filter (fun r => r.src == d)).foldl (fun s r => s.applyR r) s

/-- Applies everything on its way to a die that a clock names (R260). -/
def State.settle (s : State) (d : Nat) (clk : List Nat) : State :=
  (s.mem.rq.filter (fun r => r.dst == d && serialLe (r.clock.getD r.src 0) (clk.getD r.src 0))).foldl (fun s r =>
    (s.roomFor d).applyR r) s

/-- Sends a pending write out to its remote home (R260). -/
def State.sendWrite (s : State) (w : PWrite) : State :=
  let s := { s with mem := { s.mem with wq := mapIf (fun (v : PWrite) => v.id == w.id) (fun v => { v with sent := true }) s.mem.wq } }
  s.broadcast (coreDie (w.key / 2)) (some w.key) (some (paDie w.pa, w.id)) w.pa [] (some w)

/-- Performs a pending write at once: at its own die's home, or sent to the remote home and applied there after everything its clock
names. -/
def State.direct (s : State) (id : Nat) : State :=
  match s.mem.wq.find? (fun w => w.id == id) with
  | none => s
  | some w =>
    let h := paDie w.pa
    let s := (s.roomFor (coreDie (w.key / 2))).roomFor h
    if coreDie (w.key / 2) = h then (s.dropWrite id).perform w
    else
      let s := if w.sent then s else s.sendWrite w
      match s.mem.rq.find? (fun r => r.wr == some id) with
      | some r => s.settle h r.clock
      | none => s

/-- Issues a write that is performed at once. -/
def State.putNow (s : State) (w : PWrite) : State := ({ s with mem := { s.mem with wq := s.mem.wq ++ [w] } }).direct w.id

/-- Whether a write meets a range. -/
def PWrite.meets (w : PWrite) (pa n : Nat) : Bool := decide (w.pa < pa + n) && decide (pa < w.pa + w.bytes.length)

/-- The pending writes of a stream that meet a range. -/
def State.pendingOn (s : State) (key pa n : Nat) : List PWrite := s.mem.wq.filter (fun w => w.key == key && w.meets pa n)

/-- Those of a list of writes that meet a range, with every earlier one that meets one of them: the order of R258 for each location. -/
def closure (pa n : Nat) (l : List PWrite) : List PWrite :=
  l.foldr (fun w a => if w.meets pa n || a.any (fun v => w.meets v.pa v.bytes.length) then w :: a else a) []

/-- Performs a stream's pending writes that meet a range, and those that must come before them (R258). -/
def State.drainOn (s : State) (key pa n : Nat) : State :=
  (closure pa n (s.mem.wq.filter (fun w => w.key == key))).foldl (fun s w => s.direct w.id) s

/-- Performs a pending write, and those of its stream that must come before it (R258). -/
def State.force (s : State) (id : Nat) : State :=
  match s.mem.wq.find? (fun w => w.id == id) with
  | none => s
  | some w =>
    let early := (s.mem.wq.takeWhile (fun v => v.id != id)).filter (fun v => v.key == w.key)
    ((closure w.pa w.bytes.length early).foldl (fun s v => s.direct v.id) s).direct id

/-- Writes with identities are performed at their homes, and their updates reach the dies that a test picks. -/
def State.performAll (s : State) (ids : List Nat) (p : Nat → Bool) : State :=
  let s := ids.foldl (fun s i => s.force i) s
  (s.mem.rq.filter (fun r => p r.dst && r.orig.any (fun i => ids.contains i))).foldl (fun s r => s.settle r.dst r.clock) s

/-! Scopes (R263, R264). -/

/-- The hops covered by a level of a core's scope table (R263). -/
def State.hops (s : State) (core level : Nat) : Nat := fld (s.coreOf core).scope (8 * level + 7) (8 * level)

/-- The distance between two cores of the module (R263). -/
def coreHops (a b : Nat) : Nat := if a = b then 0 else if a / 8 = b / 8 then 1 else if coreDie a = coreDie b then 2 else 3

/-- The distance from a core to an agent on the module of a node (R263): the hub die's, or over the switches on the route. -/
def State.nodeHops (s : State) (node : Nat) : Nat := if node = s.mgmt.node.toNat then 3 else 3 + Config.switches node

/-- Whether a core's agents are within a level of another's (R263). -/
def State.within (s : State) (level a b : Nat) : Bool := decide (coreHops a b ≤ s.hops a level)

/-- Whether a die holds an agent within a level of a core (R263). -/
def State.inScope (s : State) (level core d : Nat) : Bool := d == coreDie core || decide (3 ≤ s.hops core level)

/-- Whether every write of a stream is performed, for its stores at their homes and at every replica on a die within a scope
level (R266). -/
def State.released (s : State) (key level : Nat) : Bool :=
  !s.mem.wq.any (fun w => w.key == key)
    && !s.mem.rq.any (fun r => r.key == some key && s.inScope level (key / 2) r.dst)

/-! Home slices as Tulle and releases see them. -/

def State.slice (s : State) (h : Nat) : Slice := s.slices.at h {}
def State.putSlice (s : State) (h : Nat) (x : Slice) : State := { s with slices := s.slices.put h x }

/-- Whether a request stands parked, at a home slice of this module or of another (R297). -/
def TReq.parked (t : TReq) : Bool := t.state == 1 || t.state == 6

/-- Changes a Tulle request. -/
def State.modReq (s : State) (id : Nat) (f : TReq → TReq) : State := { s with treqs := mapIf (fun t => t.id == id) f s.treqs }

/-- A join of a stream's engine operations is an acquire of their accesses (R261, R269): what they wrote reaches the stream's die. -/
def State.joinMem (s : State) (key : Nat) : State :=
  (s.mem.rq.filter (fun r => r.dst == coreDie (key / 2) && r.key == some key)).foldl (fun s r => s.settle r.dst r.clock) s

/-! The pin pool of HOME = 11 pages (R234, R235). -/

/-- The granules of a core that some task holds or that wait for one: the rest are its pin pool (R234). -/
def State.heldGrans (s : State) (core : Nat) : List Nat :=
  let loc := (s.allStreams.map (fun e =>
    (if e.1 / 2 = core then e.2.lgran.map (fun g => g.2) else []) ++
    (e.2.recv.filter (fun r => r.2.core == core)).map (fun r => r.2.gran))).flatten
  let wait := (s.front.ranks.map (fun e => (e.2.waiting.filter (fun g => g.core == core)).map (fun g => g.gran))).flatten
  let fly := s.ops.filterMap (fun o => match o.kind with | .gran c g _ _ => if c = core then some g else none | _ => none)
  let kept := ((s.front.ctxs.map (fun (e : Nat × Ctx) => (e.2.saved.map (fun v =>
    (if v.core == core && !v.full then v.stream.lgran.map (fun (g : Nat × Nat) => g.2) else []) ++
    (v.stream.recv.filter (fun (r : Nat × Recv) => r.2.core == core)).map (fun (r : Nat × Recv) => r.2.gran))).flatten))).flatten
  loc ++ wait ++ fly ++ kept

/-- Writes a pinned line's dirty bytes back to its home slice and gives it up (R235). -/
def State.unpin (s : State) (core line : Nat) : State :=
  let c := s.coreOf core
  match c.pins.find line with
  | none => s
  | some p =>
    let s := s.putCore core { c with pins := c.pins.del line }
    let home (e : Heard) : Heard := { e with place := paDie (line * 128) }
    let s := { s with mem := { s.mem with rels := mapIf (fun e => e.place == 4 + core && e.pa / 128 == line) home s.mem.rels } }
    (upto 0 128).foldl (fun s i =>
      if p.dirty.getLsbD i then
        (s.homePut p.ctx p.buf (line * 128 + i) [p.bytes.getD i 0]).feedReplicas none p.ctx p.buf (line * 128 + i) 1
      else s) s

/-- Gives up every pinned line of a core that a test picks (R235). -/
def State.unpinIf (s : State) (core : Nat) (p : PinLine → Bool) : State :=
  ((s.coreOf core).pins.filter (fun e => p e.2)).foldl (fun s e => s.unpin core e.1) s

/-- Pins a line at first touch when the pool has room (R234, R235); what was released at its home is heard in the pool too. -/
def State.pinTouch (s : State) (core slot ctx va line : Nat) (e : Tlb) : State :=
  let c := s.coreOf core
  let held := s.heldGrans core
  if c.pins.has line then s
  else
    match (upto 0 16).find? (fun g => !held.contains g && decide ((c.pins.filter (fun q => q.2.gran == g)).length < 512)) with
    | none => s
    | some g =>
    let p : PinLine := { gran := g, slot := slot, ctx := ctx, buf := e.buf, va := va, bytes := s.homeBytes ctx e.buf (line * 128) 128 }
    let hs := (s.mem.rels.filter (fun e => e.place == paDie (line * 128) && e.pa / 128 == line)).map (fun e => { e with place := 4 + core })
    ({ s with mem := { s.mem with rels := s.mem.rels ++ hs } }).putCore core { c with pins := c.pins.put line p }

/-- The HOME by which a line of a page is handled: one of HOME = 01 that a tagged heat has written is held as HOME = 00 until the heat commits (R273),
and so is one of HOME = 10 that is not pinned, because it found its slice's share full, or of HOME = 11 that no pool holds (R234, R235). -/
def State.homeOf (s : State) (home : BitVec 2) (pa : Nat) : BitVec 2 :=
  if home = 3 || (home = 1 && s.mem.tags.has (pa / 128)) || (home = 2 && !s.mem.pins.any (fun p => p.1 == pa / 128)) then 0 else home

/-- The lines of a range that go to DRAM because nothing holds them (R234). -/
def State.streamed (s : State) (home : BitVec 2) (pa n : Nat) : List Nat :=
  ((cut 128 pa n).filter (fun r => s.homeOf home r.1 == 1)).map (fun r => r.1 / 128 * 128)

/-! Reading and writing. -/

/-- The updates of a stream's own writes to a line that are on their way to its die have reached it (R258: a load returns its stream's own latest
write or a later one). -/
def State.ownSeen (s : State) (key line : Nat) : State :=
  let d := coreDie (key / 2)
  (s.mem.rq.filter (fun r => r.dst == d && r.key == some key && r.wr.isNone && decide (r.pa < line * 128 + 128) && decide (line * 128 < r.pa + r.bytes.length))).foldl
    (fun s r => s.settle d r.clock) s

/-- What has been performed at the home of each line of a range reaches a die: its later reads follow it (R260, R261). -/
def State.freshen (s : State) (d pa n : Nat) : State :=
  (cut 128 pa n).foldl (fun (s : State) r => s.settle d (s.mem.lclk.at (r.1 / 128) [])) s

/-- The releases that stand over n bytes at pa of a copy, as far as they still order something (R264). -/
def MemSys.heardAt (m : MemSys) (place pa n : Nat) : List Heard :=
  m.rels.filter (fun e => e.place == place && decide (e.pa < pa + n) && decide (pa < e.pa + e.n) && e.rls.ids.any m.isOpen)

/-- The writes that a read of n bytes at pa of a copy observes, which stand there and have not reached every other copy (R261). -/
def MemSys.seenAt (m : MemSys) (place pa n : Nat) : List Nat :=
  let waits (i : Nat) : Bool := m.rq.any (fun r => r.orig == some i && r.dst == place)
  (m.rq.filter (fun r => r.wr.isNone && decide (r.pa < pa + n) && decide (pa < r.pa + r.bytes.length))).filterMap (fun r =>
    r.orig.filter (fun i => !waits i))

/-- What a stream has observed by a read of a copy (R261, R264). -/
def State.observe (s : State) (key place pa n : Nat) : State :=
  let hs := s.mem.heardAt place pa n
  let ids := (hs.map (fun e => e.rls.ids)).flatten ++ s.mem.seenAt place pa n
  if hs.isEmpty && ids.isEmpty then s
  else
    s.modStream key (fun x => { x with
      obs := ((x.obs ++ ids).filter s.mem.isOpen).eraseDups,
      heard := ((x.heard.filter (fun e => e.rls.ids.any s.mem.isOpen)) ++ hs).eraseDups })

/-- A line of a replica: what the home holds, with the releases that stand there. -/
def State.replicate (s : State) (ctx : Nat) (buf : BitVec 24) (line d : Nat) : State :=
  let m := s.mem.note d (line * 128) 128 0 [] false
  let hs := (m.heardAt (paDie (line * 128)) (line * 128) 128).map (fun e => { e with place := d })
  { s with mem := { m with rels := m.rels ++ hs, reps := m.reps.put (line * 4 + d) (s.homeBytes ctx buf (line * 128) 128) } }

/-- A run of one line as an agent at a stream's core reads it: the pin pool, a replica on the reader's die, or the home (R234, R258,
R260). Whether a remote read leaves a replica behind is open. -/
def State.readRun (s : State) (key slot ctx va pa n : Nat) (e : Tlb) (own : Bool := true) : List Byte × State :=
  let line := pa / 128
  let core := key / 2
  let d := coreDie core
  let seen (s : State) (place : Nat) : State := if own then s.observe key place pa n else s
  let s := if e.home = 3 then s.pinTouch core slot ctx (va - pa % 128) line e else s
  match (if e.home = 3 then (s.coreOf core).pins.find line else none) with
  | some p => ((p.bytes.drop (pa % 128)).take n, seen s (4 + core))
  | none =>
    if paDie pa = d then (s.homeBytes ctx e.buf pa n, seen s d)
    else
      let s := s.ownSeen key line
      match (if s.homeOf e.home pa = 0 then s.mem.reps.find (line * 4 + d) else none) with
      | some l => ((l.drop (pa % 128)).take n, seen s d)
      | none =>
        let s := s.settle d (s.mem.lclk.at line [])
        let s := seen s (paDie pa)
        if s.homeOf e.home pa = 0 then
          let (t, s) := s.draw
          let s := if Config.freePick t then s.replicate ctx e.buf line d else s
          (s.homeBytes ctx e.buf pa n, s)
        else (s.homeBytes ctx e.buf pa n, s)

/-- The stream's own pending writes over what stands at the home (R258: a load returns its own latest write or a later one). -/
def overlay (ws : List PWrite) (pa : Nat) (l : List Byte) : List Byte :=
  ((upto pa l.length).zip l).map (fun e => ws.foldl (fun v w =>
    if decide (w.pa ≤ e.1) && decide (e.1 < w.pa + w.bytes.length) then w.bytes.getD (e.1 - w.pa) v else v) e.2)

/-- Reads a piece for a stream or an engine operation it issued (`own`), or for an agent. Pinned lines are touched at HOME = 10 too. -/
def State.readPiece (s : State) (spad : Memory) (key slot ctx : Nat) (p : Piece) (own : Bool := true) : List Byte × State :=
  match p.pl with
  | .win k => (spad.bytes p.n k, s)
  | .glob pa e =>
    let s := if e.home = 2 then s.pinHome slot p.va pa p.n else s
    let (l, s) := (cut 128 pa p.n).foldl (fun (a : List Byte × State) r =>
      let (l, s) := a.2.readRun key slot ctx (p.va + (r.1 - pa)) r.1 r.2 e own
      (a.1 ++ l, s)) ([], s)
    (if own then overlay (s.pendingOn key pa p.n) pa l else l, s)

/-- Reads every piece in order. -/
def State.readPieces (s : State) (spad : Memory) (key slot ctx : Nat) (l : List Piece) (own : Bool := true) : List Byte × State :=
  match l with
  | [] => ([], s)
  | p :: r =>
    let (a, s) := s.readPiece spad key slot ctx p own
    let (b, s) := s.readPieces spad key slot ctx r own
    (a ++ b, s)

/-! Loads that have been issued and have not read (R258, R259). -/

/-- A loaded value, extended to 64 bits (R238). -/
def extend (sx : Bool) (n : Nat) (l : List Byte) : Word64 :=
  let v := leNat l
  if sx && decide (2 ^ (8 * n - 1) ≤ v) then BitVec.ofInt 64 ((v : Int) - 2 ^ (8 * n)) else BitVec.ofNat 64 v

/-- What a load's bytes become (R238, R239). -/
def RForm.tgts : RForm → List Byte → List Tgt
  | .scalar d n sx, l => [.s d (extend sx n l)]
  | .line keys, l => [.cells (keys.zip (words32 l))]

/-- The registers and cells that a load holds until it has read (R111). -/
def RForm.holds : RForm → List Tgt
  | .scalar d _ _ => [.s d 0]
  | .line keys => [.cells (keys.map (fun k => (k, 0)))]

/-- The part of a piece: a window piece has its bytes at once. -/
def Piece.part (spad : Memory) (p : Piece) : RPart :=
  match p.pl with
  | .win k => { va := p.va, n := p.n, win := some (spad.bytes p.n k) }
  | .glob pa e => { va := p.va, pa := pa, n := p.n, e := e }

/-- A part as a piece of global memory. -/
def RPart.piece (p : RPart) : Piece := ⟨p.va, p.n, .glob p.pa p.e⟩

/-- Whether a load that has not read meets a range of global memory. -/
def Pend.meets (p : Pend) (pa n : Nat) : Bool :=
  match p.rd with
  | none => false
  | some r => r.parts.any (fun q => q.win.isNone && decide (q.pa < pa + n) && decide (pa < q.pa + q.n))

/-- Reads the parts of a load for the focused stream. -/
def State.readParts (s : State) : List RPart → List Byte × State
  | [] => ([], s)
  | p :: r =>
    let (a, s) := match p.win with
      | some l => (l, s)
      | none => s.readPiece [] s.curKey s.cur.slot s.cur.ctx p.piece
    let (b, s) := s.readParts r
    (a ++ b, s)

/-- A load of the focused stream reads. -/
def State.resolve (s : State) (p : Pend) : State :=
  match p.rd with
  | none => s
  | some r =>
    let (l, s) := s.readParts r.parts
    { s with cur := { s.cur with pend := mapIf (fun q => q.id == p.id) (fun q => { q with tgts := r.form.tgts l, rd := none }) s.cur.pend } }

/-- Every load of the focused stream issued so far reads: what follows it in one of the orders of R261 is about to take place. -/
def State.resolveAll (s : State) : State := (s.cur.pend.filter (fun p => p.rd.isSome)).foldl (fun s p => s.resolve p) s

/-- The loads of the focused stream that meet a range read, and those before them (R258: two accesses of one stream to one location). -/
def State.resolveOn (s : State) (pa n : Nat) : State :=
  let rest := (s.cur.pend.reverse.dropWhile (fun p => !p.meets pa n)).reverse
  rest.foldl (fun s p => s.resolve p) s

/-- The loads that meet global pieces read. -/
def State.resolveOver (s : State) (ps : List Piece) : State :=
  ps.foldl (fun (s : State) p => match p.pl with | .glob pa _ => s.resolveOn pa p.n | .win _ => s) s

/-- A load reads when its turn to land has come: those before it that meet its bytes read first (R258). -/
def State.resolveFor (s : State) (p : Pend) : State :=
  match p.rd with
  | none => s
  | some r =>
    let early := s.cur.pend.takeWhile (fun q => q.id != p.id)
    let meets (q : Pend) : Bool := r.parts.any (fun t => t.win.isNone && q.meets t.pa t.n)
    let must := (early.reverse.dropWhile (fun q => !meets q)).reverse
    (must.foldl (fun s q => s.resolve q) s).resolve p

/-- Writes window bytes; each word written is set full (R238), and a word written whole is sound again (R342). -/
def State.winPut (s : State) (k : Nat) (bytes : List Byte) : State :=
  let n := bytes.length
  let m := s.mem
  let whole (w : Nat) : Bool := decide (k ≤ 4 * w) && decide (4 * w + 4 ≤ k + n)
  { s with mem := { m with
      spad := m.spad.put k bytes,
      fe := if n = 0 then m.fe else m.fe.fill (k / 4) 1 ((k + n - 1) / 4 + 1 - k / 4),
      bad := m.bad.filter (fun w => !whole w) } }

/-! Releases and acquires (R261-R266). -/

/-- The survivor of a die that stands for slice index i (R233). -/
def State.survivor (s : State) (d i : Nat) : Nat :=
  let live := (upto 0 64).filter (fun k => !(s.slices.at (64 * d + k) {}).fenced)
  if live.length = 64 then 64 * d + i else 64 * d + live.getD (i % live.length) i

/-- The slice index of a tuple or pattern (R291). -/
def tulleIndex (tag k : Word64) : Nat :=
  let x := ((tag * 0x9E3779B97F4A7C15) ^^^ k) * 0xD6E8FEB86659FD93
  (x >>> (58 : Nat)).toNat

/-- The index of a block's home: a deposit by its field 1, a pattern by its VAL1, on a KEYED region only. -/
def blockIndex (kind : TKind) (keyed : Bool) (w : List Word64) : Nat :=
  tulleIndex (wordAt w 0 >>> (45 : Nat)) (if keyed then (if kind = .dep then wordAt w 1 else wordAt w 2) else 0)

/-- Whether an earlier request of the table must arrive before another one: one of the same stream, or one that a release ordered before what followed it
(`rel`), that has not arrived, or whose withdrawal or TCAN has not been processed, at the same home slice (R298, R299, R265). One that waits for the module
that holds rank 0 may come to a slice of its index on any die. -/
def State.reqAhead (s : State) (u t : TReq) : Bool :=
  (u.key == t.key || u.rel != 0)
    && (if u.state = 3 then t.state == 3 || s.survivor (t.home / 64) (blockIndex u.kind u.keyed u.words) == t.home
        else t.state != 3 && u.home == t.home && (u.state == 0 || u.withdraw || (match u.cancel with | some c => decide (c < t.id) | none => false)))

/-- Whether some earlier request of the table must arrive before a request. -/
def State.reqWaits (s : State) (t : TReq) : Bool := (s.treqs.takeWhile (fun u => u.id != t.id)).any (fun u => s.reqAhead u t)

/-- At a release the stream's requests on their way arrive at their homes, in issue order: what is ordered after the release arrives
after them (R298). Those that must wait, and those with a TCAN under way, are marked: what follows waits for them. -/
def State.arriveAll (s : State) (key : Nat) (before : Option Nat := none) : State :=
  (s.treqs.filter (fun t => t.key == key && (t.state == 0 || t.state == 3 || t.cancel.isSome) && before.all (fun b => decide (t.id < b)))).foldl
    (fun (s : State) t =>
      if t.state == 0 && !s.reqWaits t then
        let sl := s.slice t.home
        (s.putSlice t.home { sl with arrived := sl.arrived ++ [t.id] }).modReq t.id (fun t => { t with state := 2 })
      else s.modReq t.id (fun t => { t with rel := max t.rel 1 })) s

/-- A release at a level from 4 to 7 also orders the stream's channel sends, collective contributions and Tulle operations: those issued before
it are delivered to the agents within the level before any issued after it (R265). -/
def State.sealOps (s : State) (key level : Nat) (before : Option Nat := none) : State :=
  if level < 4 then s
  else
    let early (id : Nat) : Bool := before.all (fun b => decide (id < b))
    { s with ops := mapIf (fun o => o.key == key && early o.id) (fun o => { o with rel := max o.rel level }) s.ops,
             treqs := mapIf (fun t => t.key == key && early t.id) (fun t => { t with rel := max t.rel level }) s.treqs }

/-- The writes of a stream that have not reached every copy, as far as they were issued `before`. -/
def State.ownOpen (s : State) (key : Nat) (before : Option Nat := none) : List Nat :=
  ((s.mem.wq.filter (fun w => w.key == key)).map (fun w => w.id)
    ++ (s.mem.rq.filter (fun r => r.key == some key)).filterMap (fun r => r.orig)).eraseDups.filter (fun i => before.all (fun b => decide (i < b)))

/-- What a release of a stream orders (R261, R262): its own writes, and those that it has observed or that happen before what it has observed, as far as
they have not reached every copy. -/
def State.relSet (s : State) (key : Nat) (before : Option Nat := none) : List Nat :=
  s.ownOpen key before ++ ((s.stream key).map (fun x => x.obs.filter s.mem.isOpen)).getD []

/-- A release at a level by an instruction that waits for nothing (R238, R244, R281, R286): the stream's loads have read, and what a level from 4 to 7
orders is ordered. What it orders in memory goes with its write (`relSet`). -/
def State.relMark (s : State) (key level : Nat) : State :=
  ((if s.curLive && key == s.curKey then s.resolveAll else s).arriveAll key).sealOps key level

/-- A stream whose next write carries a release at a level (R264). -/
def State.releasing (s : State) (key level : Nat) (x : Stream) : Stream :=
  { x with fences := { level := level, ids := s.relSet key } :: x.fences }

/-- An acquire at a level by a core that synchronises with releases it has read: what each orders is performed, and reaches the acquirer's die. One whose
distance lies outside the lower of the two levels orders nothing (R261, R264). -/
def State.acqOf (s : State) (core level : Nat) (hs : List Heard) : State :=
  s.performAll ((hs.filter (fun e => s.within (min level e.rls.level) e.core core)).map (fun e => e.rls.ids)).flatten.eraseDups
    (fun d => d == coreDie core)

/-- An acquire at a level by a fence of a stream: with the releases that its earlier loads have returned (R264). -/
def State.acq (s : State) (key level : Nat) : State :=
  s.acqOf (key / 2) level (((s.stream key).map (fun x => x.heard)).getD [])

/-- A release at a level through memory: everything it orders is performed, at its home and at the replicas within the level
(R262, R266); the clocks carry the rest. The release of an operation covers what was issued `before` it (R269). -/
def State.relMem (s : State) (key level : Nat) (before : Option Nat := none) : State :=
  let s := if s.curLive && key == s.curKey && before.isNone then s.resolveAll else s
  let s := s.performAll (s.relSet key before) (s.inScope level (key / 2))
  (s.arriveAll key before).sealOps key level before

/-- A release at a level through something that carries no clock (a full/empty word, a decrement, a tuple, a message): the writes that the
issuer's die has applied are applied on every die within the level too (R262). -/
def State.relAll (s : State) (key level : Nat) (before : Option Nat := none) : State :=
  let s := s.relMem key level before
  let own := coreDie (key / 2)
  (upto 0 4).foldl (fun (s : State) d => if d ≠ own && s.inScope level (key / 2) d then s.settle d (s.mem.clock own) else s) s

/-- The heat key of a stream's writes (R273): context, queue, launch serial, rank, heat; none in a free-mode launch. -/
def Stream.heatKey (x : Stream) : Option (List Nat) :=
  if x.det then some [x.ctx, x.queue, x.serial, x.slot, x.heat.toNat] else none

/-- The pending write of a piece. -/
def mkWrite (x : Stream) (key id va pa : Nat) (e : Tlb) (bytes : List Byte) (cnt : Bool := true) : PWrite :=
  { id := id, grp := id, addr := va, cnt := cnt, key := key, va := va, pa := pa, bytes := bytes, home := e.home, ctx := x.ctx, slot := x.slot, buf := e.buf,
    tag := if e.home = 3 then none else x.heatKey, wid := x.wid, lat := e.lat, rls := x.fences }

/-- Writes a run of a HOME = 11 page: into the pin pool when it holds the line, at the home otherwise (R234, R235). -/
def State.pinPut (s : State) (x : Stream) (key va pa : Nat) (e : Tlb) (bytes : List Byte) (cnt : Bool := true) : State :=
  let core := key / 2
  (cut 128 pa bytes.length).foldl (fun (s : State) r =>
    let line := r.1 / 128
    let new := (bytes.drop (r.1 - pa)).take r.2
    let s := s.pinTouch core x.slot x.ctx (va + (r.1 - pa) - r.1 % 128) line e
    let c := s.coreOf core
    match c.pins.find line with
    | some p =>
      let off := r.1 % 128
      let msk := BitVec.ofNat 128 ((2 ^ r.2 - 1) * 2 ^ off)
      let p : PinLine := { p with bytes := p.bytes.take off ++ new ++ p.bytes.drop (off + r.2), dirty := p.dirty ||| msk }
      let s := s.putCore core { c with pins := c.pins.put line p }
      let s := { s with mem := s.mem.note (4 + core) r.1 r.2 core x.fences false }
      if cnt then s.bucketCount x.slot (upto (va + (r.1 - pa)) r.2) else s
    | none =>
      let (i, s) := s.fresh
      s.putNow (mkWrite x key i (va + (r.1 - pa)) r.1 { e with home := 3 } new cnt)) s

/-- A store's piece: into the window, the pin pool, or the stream's pending writes (R257). `grp` and `addr` are what the pieces of one store share. -/
def State.storePiece (s : State) (x : Stream) (key : Nat) (p : Piece) (bytes : List Byte) (grp : Nat := s.nextId) (addr : Nat := p.va) : State :=
  match p.pl with
  | .win k => s.winPut k bytes
  | .glob pa e =>
    if e.home = 3 then s.pinPut x key p.va pa e bytes
    else
      let (i, s) := s.fresh
      { s with mem := { s.mem with wq := s.mem.wq ++ [{ mkWrite x key i p.va pa e bytes with grp := grp, addr := addr }] } }

/-- The pieces of one store, in order. -/
def State.storeRest (s : State) (x : Stream) (key grp addr : Nat) : List Piece → List Byte → State
  | [], _ => s
  | p :: r, l => (s.storePiece x key p (l.take p.n) grp addr).storeRest x key grp addr r (l.drop p.n)

/-- A store of bytes over its pieces, in order. -/
def State.storePieces (s : State) (x : Stream) (key : Nat) (ps : List Piece) (l : List Byte) : State :=
  s.storeRest x key s.nextId ((ps.head?.map (fun p => p.va)).getD 0) ps l

/-- An engine write's piece: performed at once, after the issuer's earlier writes to the same bytes (R257, R258, R268). -/
def State.enginePut (s : State) (x : Stream) (key : Nat) (cnt : Bool) (p : Piece) (bytes : List Byte) : State :=
  match p.pl with
  | .win k => s.winPut k bytes
  | .glob pa e =>
    let s := s.drainOn key pa bytes.length
    if e.home = 3 then s.pinPut x key p.va pa e bytes cnt
    else
      let (i, s) := s.fresh
      s.putNow (mkWrite x key i p.va pa e bytes cnt)

def State.enginePuts (s : State) (x : Stream) (key : Nat) (cnt : Bool) : List Piece → List Byte → State
  | [], _ => s
  | p :: r, l => (s.enginePut x key cnt p (l.take p.n)).enginePuts x key cnt r (l.drop p.n)

end Sys2Proof.Machine
end

