-- ==== Sys2Proof/Machine/Ops.lean ====
section
/-! DEFINITION. The shared operations: access to streams, cores, ranks, contexts and jobs; registers; results and their landing
(R108-R113); what a slot's issue ends in; taking a trap and returning from one (R320-R324); task failure and removal. -/

namespace Sys2Proof.Machine

/-! The registers of the focused stream. -/

/-- Scalar register r; s0 reads 0 (R101). -/
def Stream.readS (x : Stream) (r : SReg) : Word64 := if r = 0 then 0 else x.s.get r.toNat

/-- Predicate p; p0 reads true (R101). -/
def Stream.readP (x : Stream) (r : PReg) : Bool := if r = 0 then true else x.p.getLsbD r.toNat

/-- VAL of a line-index register (R102). -/
def Stream.lval (x : Stream) (r : Nat) : Nat := ((x.l.get r).extractLsb' 0 6).toNat

def Stream.writeS (x : Stream) (r : Nat) (v : Word64) : Stream := if r = 0 then x else { x with s := x.s.set r v }

def Stream.writeP (x : Stream) (r : Nat) (v : Bool) : Stream :=
  if r = 0 then x else { x with p := if v then x.p ||| BitVec.ofNat 16 (2 ^ r) else x.p &&& ~~~(BitVec.ofNat 16 (2 ^ r)) }

/-- The physical tile of a logical name (R106): `sec` is the secondary stream. -/
def Stream.ptile (x : Stream) (sec : Bool) (t : Nat) : Nat :=
  if x.tiles4 then (if sec then 4 + t % 4 else t % 4)
  else if t < 4 then t else 4 + (t - x.rrb.toNat) % 4

/-- Whether a physical tile belongs to the stream (R106). -/
def Stream.ownsTile (x : Stream) (t : Nat) : Bool := !x.tiles4 || t < 4

/-! Results of a slot's issue. -/

/-- What issuing one slot ends in: effects, a precise fault of the bundle, or a stall of the bundle with the trap that a
reached FEWAITLIM would raise instead. -/
inductive Res where
  | ok (s : State)
  | trap (t : TrapRec)
  | stall (lat : Bool) (wait : Option TrapRec) (keep : Keep := .nothing)

def Res.bind (r : Res) (f : State → Res) : Res :=
  match r with
  | .ok s => f s
  | .trap t => .trap t
  | .stall l w k => .stall l w k

/-- A check that raises a fault (R82, R237 and others). -/
def orTrap {α : Type} (x : Except TrapRec α) (f : α → Res) : Res :=
  match x with
  | .ok a => f a
  | .error t => .trap t

/-- The word of TRAPINFO for ILLBUNDLE, ILLOP and MISBRANCH (R85). -/
def info85 (word : Nat) (slot sub : Nat) : Word64 := BitVec.ofNat 64 (word * 2 ^ 32 + slot * 2 ^ 8 + sub)

/-- The SLOT code of the slot at issue, from its place in the order of R112. -/
def rankSlot (r : Nat) : Slot := slotOrder.getD r .s

/-- The bundle's header address. -/
def State.baddr (s : State) : Word64 := s.cur.pc

/-- Address and word of the slot at issue, for TRAPADDR and TRAPINFO of ILLOP (R85): its place in mask order and the word
of its encoding. -/
def State.slotWord (s : State) : Word64 × Nat :=
  match s.cur.bundle with
  | none => (s.cur.pc, 0)
  | some b =>
    let me := rankSlot s.slotRank
    let k := (b.slots.map (fun e => e.1)).idxOf me
    let w := match (b.slots.find? (fun e => e.1 == me)) with
      | some (_, i) => ((encode i (k + 1 == b.slots.length)).headD 0).toNat
      | none => 0
    (b.addr + BitVec.ofNat 64 (4 * (k + 1)), w)

/-- ILLOP with a SUB of its own, raised by the slot at issue (R85, R155, R209). -/
def State.illop (s : State) (sub : Nat) : TrapRec :=
  let (a, w) := s.slotWord
  { cause := 0x02, addr := a, info := info85 w (rankSlot s.slotRank).code sub }

def trapMisalign (a : Word64) : TrapRec := { cause := 0x04, addr := a }

/-- A result of latency L lands L bundles on (R108). -/
def State.out (s : State) (L : Nat) (t : Tgt) (fl : Flags := 0) : State :=
  { s with cur := { s.cur with land := s.cur.land ++ [⟨s.cur.pos + L, s.slotRank, s.cur.pos, t, fl⟩] } }

/-- A scoreboarded result (R111). -/
def State.sb (s : State) (ts : List Tgt) (fl : Flags := 0) (dram : List (Nat × Bool) := []) (rd : Option PRead := none) : State :=
  let (i, s) := s.fresh
  { s with cur := { s.cur with pend := s.cur.pend ++ [⟨i, s.cur.pos, ts, fl, dram.map (fun r => { pa := r.1, lat := r.2 }), rd⟩] } }

/-- The bits of TRAPINFO that the table of a cause's fields defines (R68, R85, R196, R228, R278, R319): the reserved ones read as zero (R5). A cause
without such a table has them all. -/
def infoMask (cause : Byte) (v : Word64) : Word64 :=
  match cause.toNat with
  | 0x01 => 0xFFFFFFFF00000FFF
  | 0x02 => 0xFFFFFFFF00000FFF
  | 0x03 => 0xFFFFFFFF00000FFF
  | 0x05 => 0x1FFFF
  | 0x06 => 0x1FFFF
  | 0x07 => 0x1FFFF
  | 0x08 => 0x1FFFF
  | 0x09 => 0xFF
  | 0x0A => 0xFFFFFFFFFFFFC0FF
  | 0x0B => 0xFFFFFFFFFFFFC0FF
  | 0x0C => 0xFFFFFFFFFFFFC0FF
  | 0x13 => if v.extractLsb' 12 4 = 1#4 then 0x7FF0001F0FF else 0xF0FF
  | _ => BitVec.allOnes 64

/-- The whole-register value of a system register as SRD reads it (R104); STKPTR, STKBASE and STKLIM come from the rank. -/
def State.readSys (s : State) (x : Stream) (r : SysReg) : Word64 :=
  match r with
  | .fmode => x.fmode.setWidth 64
  | .flags => x.flags.setWidth 64
  | .lc => x.lc.setWidth 64
  | .ec => x.ec.setWidth 64
  | .rrb => x.rrb.setWidth 64
  | .stkptr => (s.rank x.slot).stkptr
  | .stkbase => (s.rank x.slot).stkbase
  | .stklim => (s.rank x.slot).stklim
  | .efr => x.efr.setWidth 64
  | .dpb => x.dpb.setWidth 64
  | .fewaitlim => x.fewaitlim.setWidth 64
  | .latcnt => x.latcnt
  | .cycle => s.cycle
  | .wid => x.wid
  | .vrank => x.vrank.setWidth 64
  | .ctxid => x.ctxid.setWidth 64
  | .tvec => x.tvec.setWidth 64
  | .trappc => x.trappc.setWidth 64
  | .trapcause => x.trapcause.setWidth 64
  | .trapaddr => x.trapaddr
  | .trapinfo => x.trapinfo &&& infoMask x.trapcause x.trapinfo
  | .heat => x.heat.setWidth 64
  | .spwbase => BitVec.ofNat 64 Config.spwbase
  | .csasize => BitVec.ofNat 64 Config.csasize

/-- What SWR writes: only the register's width, nothing to a register of task access RO, bits 1:0 of TVEC and TRAPPC as
zero (R104, R151). -/
def Stream.writeSys (x : Stream) (r : SysReg) (v : Word64) : Stream :=
  match r with
  | .fmode => { x with fmode := v.setWidth 8 }
  | .flags => { x with flags := v.setWidth 7 }
  | .lc => { x with lc := v.setWidth 32 }
  | .ec => { x with ec := v.setWidth 32 }
  | .rrb => { x with rrb := v.setWidth 2 }
  | .efr => { x with efr := v.setWidth 12 }
  | .fewaitlim => { x with fewaitlim := v.setWidth 32 }
  | .latcnt => { x with latcnt := v }
  | .tvec => { x with tvec := (v &&& ~~~3).setWidth 56 }
  | .trappc => { x with trappc := (v &&& ~~~3).setWidth 56 }
  | .trapcause => { x with trapcause := v.setWidth 8 }
  | .trapaddr => { x with trapaddr := v }
  | .trapinfo => { x with trapinfo := v }
  | _ => x

/-- Where a 0 or 1 result goes: a register or a predicate (R140). -/
def dstTgt (d : Dst) (b : Bool) : Tgt :=
  match d with
  | .reg r => .s r.toNat (if b then 1 else 0)
  | .pred p => .p p.toNat b

/-- An EVTEST that has not been served reads its bit as it stands (R39). -/
def State.served (s : State) : Tgt → Tgt
  | .ev d c i => dstTgt d ((s.ctxAt c).ev.getLsbD i)
  | .evTake d c i => dstTgt d ((s.ctxAt c).ev.getLsbD i)
  | t => t

/-- Whether a result is that of an EVTEST still to be served (R39). -/
def Tgt.tests : Tgt → Bool
  | .ev _ _ _ => true
  | .evTake _ _ _ => true
  | _ => false

/-- The bit that an EVTEST.TAKE still to be served takes (R39). -/
def Tgt.takes : Tgt → Option (Nat × Nat)
  | .evTake _ n i => some (n, i)
  | _ => none

/-- Serves those EVTESTs of the focused stream that `which` names, in their order, each TAKE as one update of the vector (R39). A clear fills no wait mask, so
it starts no head (R37). -/
def State.serveTakes (s : State) (which : Land → Bool) : State :=
  (s.cur.land.filter (fun e => which e && e.tgt.tests)).foldl (fun (s : State) e =>
    let t := s.served e.tgt
    let s := match e.tgt.takes with
      | none => s
      | some (c, i) => s.modCtx c (fun x => { x with ev := x.ev &&& ~~~(BitVec.ofNat 256 (2 ^ i)) })
    { s with cur := { s.cur with land := s.cur.land.map (fun (f : Land) => if f == e then { f with tgt := t } else f) } }) s

/-- The value of one landing result (R108); SRD is resolved after every other (R151). -/
def Stream.apply (x : Stream) (m : Cells 32) (t : Tgt) : Stream × Cells 32 :=
  match t with
  | .flagsOnly => (x, m)
  | .s r v => (x.writeS r v, m)
  | .p r v => (x.writeP r v, m)
  | .l r v => ({ x with l := x.l.set r v }, m)
  | .c r v => ({ x with c := x.c.set r v }, m)
  | .z r vs => ({ x with z := x.z.puts ((upto (r * 64) 64).zip vs) }, m)
  | .ze r e v => ({ x with z := x.z.set (r * 64 + e) v }, m)
  | .q r v => ({ x with q := x.q.set r v }, m)
  | .cells cs => (x, m.puts cs)
  | .sys r v => (x.writeSys r v, m)
  | .srd _ _ => (x, m)
  | .ev _ _ _ => (x, m)
  | .evTake _ _ _ => (x, m)
  | .flagClr k => ({ x with flags := x.flags &&& ~~~k }, m)
  | .flagSet k => ({ x with flags := x.flags ||| k }, m)
  | .loop lc ec rrb ps =>
    ({ x with lc := lc.getD x.lc, ec := ec.getD x.ec, rrb := rrb, p := (ps ++ x.p.extractLsb' 0 8 : BitVec 16) }, m)
  | .loopset lc ec => ({ x with lc := lc, ec := ec, p := (1#8 ++ x.p.extractLsb' 0 8 : BitVec 16) }, m)

/-- Whether a target is LOOP's rotation. -/
def Tgt.isLoop : Tgt → Bool
  | .loop _ _ _ _ => true
  | _ => false

/-- A result in flight to p8-p15 moves one predicate up, out of range above p15 (R113). -/
def Tgt.rotate : Tgt → Tgt
  | .p r v => if r < 8 then .p r v else if r = 15 then .flagsOnly else .p (r + 1) v
  | .ev (.pred r) n i => if r.toNat < 8 then .ev (.pred r) n i else if r.toNat = 15 then .flagsOnly else .ev (.pred (r + 1)) n i
  | .evTake (.pred r) n i => if r.toNat < 8 then .evTake (.pred r) n i else if r.toNat = 15 then .flagsOnly else .evTake (.pred (r + 1)) n i
  | t => t

/-- The order of results landing together: slot order, then issue (R112). -/
def Land.before (a b : Land) : Bool := a.rank < b.rank || (a.rank == b.rank && a.pos ≤ b.pos)

def insertLand (a : Land) : List Land → List Land
  | [] => [a]
  | b :: r => if a.before b then a :: b :: r else b :: insertLand a r

/-- The results of one boundary in the order in which they are written. -/
def sortLand (l : List Land) : List Land := l.foldr insertLand []

/-- Applies the targets of one boundary in order. -/
def applyAll (x : Stream) (m : Cells 32) : List Tgt → Stream × Cells 32
  | [] => (x, m)
  | t :: r => let (x, m) := x.apply m t; applyAll x m r

/-- The cells a landing writes have fresh parity (R342). -/
def Tgt.cellKeys : Tgt → List Nat
  | .cells cs => cs.map (fun c => c.1)
  | _ => []

/-- Whether a target is a scalar register. -/
def Tgt.writesS (d : Nat) : Tgt → Bool
  | .s r _ => r == d
  | .srd e _ => e.toNat == d
  | .ev (.reg r) _ _ => r.toNat == d
  | .evTake (.reg r) _ _ => r.toNat == d
  | _ => false

/-- The reads of SRD at one boundary, in order: each value stands unless a result after it takes the register (R112, R151). -/
def srdAll (rd : SysReg → Word64) : List Land → Stream → Stream
  | [], x => x
  | e :: r, x =>
    srdAll rd r (match e.tgt with
      | .srd d q => if r.any (fun f => f.tgt.writesS d.toNat) then x else x.writeS d.toNat (rd q)
      | _ => x)

/-- Everything of the focused stream that lands at the boundary before bundle `at` (R108, R112, R130, R151, R113). -/
def State.landAt (s : State) (pos : Nat) : State :=
  let s := s.serveTakes (fun e => e.due == pos)
  let due := sortLand (s.cur.land.filter (fun e => e.due == pos))
  let rest := s.cur.land.filter (fun e => e.due != pos)
  let (x, m) := applyAll s.cur s.core.mrf (due.map (fun e => e.tgt))
  let x := { x with flags := x.flags ||| due.foldl (fun a e => a ||| e.flags) 0 }
  let x := srdAll (s.readSys x) due x
  let loops := due.any (fun e => e.tgt.isLoop)
  let x := { x with land := if loops then rest.map (fun e => { e with tgt := e.tgt.rotate }) else rest }
  let keys := (due.map (fun e => e.tgt.cellKeys)).flatten
  { s with cur := x, core := { s.core with mrf := m, parity := s.core.parity.filter (fun k => !keys.contains k) } }

/-- The boundary before the next bundle: one more bundle has issued. -/
def State.boundary (s : State) : State :=
  ({ s with cur := { s.cur with pos := s.cur.pos + 1 } }).landAt (s.cur.pos + 1)

/-- At a stop every result lands, in the order of its boundaries (R110). -/
def State.landAll (s : State) : State :=
  let top := s.cur.land.foldl (fun a e => max a e.due) 0
  (upto 0 (top + 1 - s.cur.pos)).foldl (fun s i => s.landAt (s.cur.pos + i)) s

/-! Ending a task outside its own TEND. -/

/-- Cuts the engine operations of a stream as an abort does: channel sends and collectives go on, the rest make no further
piece, write no completion and send no decrement (R324, R336). -/
def Op.abortable (o : Op) : Bool :=
  match o.kind with
  | .send _ _ _ _ => false
  | .coll _ => false
  | .dec _ _ _ => false
  | .gran _ _ _ _ => false
  | _ => true

/-- The key of work whose task has ended without it. -/
def deadKey : Nat := 2 ^ 40

/-- The last task of a slot leaves a core: the core writes back and gives up the slot's pinned lines (R235). -/
def State.leaveCore (s : State) (key slot : Nat) : State :=
  let other := s.stream (if key % 2 = 0 then key + 1 else key - 1)
  if (match other with | some y => y.slot == slot | none => false) then s else s.unpinIf (key / 2) (fun p => p.slot == slot)

/-- Takes requests away from the home slices and the table (R300). -/
def State.dropReqs (s : State) (mine : List Nat) : State :=
  let keep (l : List Nat) : List Nat := l.filter (fun i => !mine.contains i)
  { s with
    treqs := s.treqs.filter (fun t => !mine.contains t.id),
    slices := s.slices.map (fun (e : Nat × Slice) => (e.1, { e.2 with parked := keep e.2.parked, arrived := keep e.2.arrived })) }

/-- The holder key of a saved stream: 1,024 above the live keys, by context and save area. -/
def savedKey (ctx area : Nat) : Nat := 1024 + ctx * 65536 + area

/-- Operations, receives, detached requests and buckets of a rank pass from one holder to another. -/
def State.rekey (s : State) (slot k k2 : Nat) : State :=
  let r := s.rank slot
  let post (p : Post) : Post := if p.key = k then { p with key := k2 } else p
  let r := { r with rows := r.rows.map (fun (e : Nat × Row) => (e.1, { e.2 with posted := e.2.posted.map post })),
                    buckets := r.buckets.map (fun (e : Nat × Bucket) => (e.1, if e.2.key = k then { e.2 with key := k2 } else e.2)),
                    stkHold := if r.stkHold == some k then (if k2 = deadKey then none else some k2) else r.stkHold }
  State.putRank { s with
    ops := mapIf (fun o => o.key == k) (fun o => { o with key := k2 }) s.ops,
    treqs := mapIf (fun t => t.key == k) (fun t => { t with key := k2 }) s.treqs } slot r

/-- Whether a request is on its way to another module, or parked there. -/
def TReq.far (t : TReq) : Bool := t.state == 5 || t.state == 6

/-- A request whose stream has gone: a deposit goes on, and one at another module is withdrawn. -/
def TReq.abandon (t : TReq) : TReq := { t with key := deadKey, place := [], detach := false, withdraw := t.withdraw || (t.far && t.kind != .dep) }

/-- A send that has not read its window buffer goes on without the granule: it keeps the bytes (R336). -/
def State.keepSends (s : State) (k : Nat) (x : Stream) : State :=
  let bytes (o : Op) : Option (List Byte) :=
    match o.kind with
    | .send ch _ src _ =>
      if inWindow src then
        match x.winPieces (k / 2) src ((((s.rank o.slot).rows.find ch).map (fun w => w.bytes)).getD 0) .eread with
        | .ok ps => some (winBytes s.mem.spad ps)
        | .error _ => none
      else none
    | _ => none
  { s with ops := mapIf (fun o => o.key == k && o.moved == 0) (fun o => { o with data := bytes o }) s.ops }

/-- The frames that traps which are taken by nobody have met (R232, R69). -/
def State.containAll (s : State) (slot : Nat) (ts : List TrapRec) : State :=
  ts.foldl (fun (s : State) t => match t.frame with | some (f, va) => s.contain slot va f | none => s) s

/-- Takes a stream off its core: its writes are performed, its operations cut, its requests and window receives withdrawn, its window lost, its
hold on the stack released, its queue entries discarded, its tiles and granules freed. Its deposits go on; nothing is written for them. -/
def State.dropStream (s : State) (k : Nat) : State :=
  match s.stream k with
  | none => s
  | some x =>
    let s := (s.relMem k 3).leaveCore k x.slot
    let s := s.containAll x.slot (x.async ++ (s.ops.filter (fun o => o.key == k && o.kind == .trap)).filterMap (fun o => o.trap))
    let s := s.keepSends k x
    let s := State.dropReqs { s with ops := s.ops.filter (fun o => !(o.key == k && o.abortable)) }
      ((s.treqs.filter (fun t => t.key == k && t.kind != .dep && !t.far)).map (fun t => t.id))
    let s := { s with treqs := mapIf (fun t => t.key == k) TReq.abandon s.treqs }
    let r := s.rank x.slot
    let own (p : Post) : Bool := p.key == k && p.window
    let r := { r with rows := r.rows.map (fun (e : Nat × Row) => (e.1, { e.2 with posted := e.2.posted.filter (fun p => !own p) })) }
    let s := (s.putRank x.slot r).rekey x.slot k deadKey
    let c := s.coreOf (k / 2)
    let s := s.putCore (k / 2) { c with calls := c.calls.filter (fun q => q.key != k), done := c.done.set k 0 }
    let s := { s with front := { s.front with
        lastRun := (k / 2, x.ctx, x.queue, x.lid, x.slot, x.wid) :: s.front.lastRun.filter (fun e => e.1 != k / 2) } }
    if s.curLive && k == s.curKey then { s with curLive := false, cur := { mark := s.cur.mark } }
    else { s with streams := s.streams.del k }

/-- Discards a saved stream: its granules are free, its hold on the stack is released. -/
def State.dropSaved (s : State) (c : Nat) (v : Saved) : State :=
  let k := savedKey c v.area
  let s := s.containAll v.stream.slot v.stream.async
  let s := s.dropReqs ((s.treqs.filter (fun t => t.key == k && !t.far)).map (fun t => t.id))
  let s := { s with treqs := mapIf (fun t => t.key == k) TReq.abandon s.treqs }
  (s.modCtx c (fun x => { x with saved := x.saved.filter (fun w => w.area != v.area) })).rekey v.stream.slot (savedKey c v.area) deadKey

/-- Changes a launch wherever it stands in its queue. -/
def State.modLaunch (s : State) (c q n : Nat) (f : Launch → Launch) : State :=
  s.modCtx c (fun x => { x with queues := x.queues.put q ((x.queues.at q []).map (fun l => if l.serial == n then f l else l)) })

/-- The launch of a serial number, if its queue still holds it. -/
def State.launch (s : State) (c q n : Nat) : Option Launch := ((s.ctxAt c).queues.at q []).find? (fun l => l.serial == n)

/-- Every started task counts as retired and no further one starts. -/
def LRank.discard (r : LRank) : LRank := { r with discarded := true, retired := r.started }

/-- Stops every task of a launch on one rank: running ones are dropped, saved ones discarded, unstarted ones never start. -/
def State.stopRank (s : State) (c q n slot : Nat) : State :=
  let ks := (s.allStreams.filter (fun e => e.2.ctx == c && e.2.queue == q && e.2.serial == n && e.2.slot == slot)).map (fun e => e.1)
  let s := ks.foldl (fun s k => s.dropStream k) s
  let vs := (s.ctxAt c).saved.filter (fun a => a.stream.queue == q && a.stream.serial == n && a.stream.slot == slot)
  let s := vs.foldl (fun (s : State) v => s.dropSaved c v) s
  s.modLaunch c q n (fun l => { l with ranks := mapIf (fun r => r.slot == slot) LRank.discard l.ranks })

/-- Task failure (R324): the launch's tasks on the rank end without decrements, and it retires TASKFAULT with the code. -/
def State.taskFail (s : State) (k : Nat) (cause : Byte) : State :=
  match s.stream k with
  | none => s
  | some x =>
    let s := s.stopRank x.ctx x.queue x.serial x.slot
    s.modLaunch x.ctx x.queue x.serial (fun l => if l.status == 8 then l else { l with status := 8, fcause := cause })

/-! Taking a trap and returning from one. -/

/-- Trap entry (R320), in the focused stream, which has stopped under R110. `tpc` is what TRAPPC takes. In handler mode it is
a double fault, and the task fails with the second fault's code (R323). -/
def State.enterTrap (s : State) (t : TrapRec) (tpc : Word64) : State :=
  let s := match t.frame with
    | some (f, va) => s.contain s.cur.slot va f
    | none => s
  let s := s.landAll
  let s := { s with cur := { s.cur with
    mark := .trapped t, hold := none, bundle := none, waitCyc := 0, fixed := 0, skipBp := false, flushing := false, flags := s.cur.flags ||| t.flags } }
  if s.cur.handler then s.taskFail s.curKey t.cause
  else
    { s with cur := { s.cur with
        trappc := tpc.setWidth 56, trapcause := t.cause, trapaddr := t.addr, trapinfo := t.info,
        handler := true, pc := s.cur.tvec.setWidth 64, npc := s.cur.tvec.setWidth 64 } }

/-- Returning from a trap: handler mode ends and the stream continues at TRAPPC (R155). -/
def State.leaveTrap (s : State) : State :=
  { s with cur := { s.cur with handler := false, npc := s.cur.trappc.setWidth 64 } }

/-- The focused stream takes the hold of its rank's stack into its core's window (R202). -/
def State.takeHold (s : State) : State :=
  if s.cur.winHeld then s
  else
    let r := s.rank s.cur.slot
    let s := s.putRank s.cur.slot { r with stkHold := some s.curKey }
    { s with cur := { s.cur with winHeld := true, win := [], winAgent := 0, flushing := false } }

/-- A fault on a rank's list traffic: its frame is contained where no stack holds the address (R232), its channel handling stops, and the hypervisor
hears of it (R303, R344). -/
def State.listFault (s : State) (slot : Nat) (t : TrapRec) : State :=
  let s := match t.frame with | some (f, va) => s.contain slot va f | none => s
  let r := s.rank slot
  (s.putRank slot { r with chanStop := true }).cevent 4 t.cause.toNat r.ctx (unitWord r.homedie 4 r.homedie) 0 r.vrank.toNat

/-- What comes about although the bundle stalls. A hold also starts an agent again that a fault has stopped (R201). -/
def State.keepStall (s : State) : Keep → State
  | .nothing => s
  | .cycle => { s with cur := { s.cur with fixed := s.cur.fixed + 1 } }
  | .list t => s.listFault s.cur.slot t
  | k =>
    let s := s.takeHold
    { s with cur := { s.cur with
        flushing := k == .flush, winAgent := if s.cur.winAgent = 3 && (k == .flush || !s.cur.handler) then 0 else s.cur.winAgent } }

/-- The end of a slot's issue: effects, the trap of R320 taken, or the bundle marked as stalled. -/
def finish (s : State) (r : Res) : Host.Outcome State Fault Refusal :=
  match r with
  | .ok s' => .next s'
  | .trap t => .next (s.enterTrap t s.cur.pc)
  | .stall lat w k => .next (({ s with cur := { s.cur with mark := .stalled lat w k } }).keepStall k)

/-- A wait: it stalls the bundle, and FEWAITLIM turns it into a trap (R278). -/
def waitFor (t : TrapRec) : Res := .stall true (some t)

/-- An instruction that stalls its bundle for n cycles of its own, which count in LATCNT when they are a C-slot condition (R111, R216, R267, R277). -/
def State.stallFor (s : State) (n : Nat) (r : Res) (lat : Bool := true) : Res := if s.cur.fixed < n then .stall lat none .cycle else r

/-- FEWAIT with its SUB (R278). -/
def fewaitTrap (a : Word64) (sub : Nat) : TrapRec := { cause := 0x09, addr := a, info := BitVec.ofNat 64 sub }

/-! The stream's view of the scratchpad and the rings before its bundle (R231, R278). -/

def State.vspad (s : State) : Memory := match s.view with | some v => v.spad | none => s.mem.spad
def State.vfe (s : State) : Cells 1 := match s.view with | some v => v.fe | none => s.mem.fe
def State.vrings (s : State) : Tbl Ring := match s.view with | some v => v.rings | none => s.cur.rings

/-- What the view of the bundle at issue holds. -/
def State.viewNow (s : State) : View :=
  { spad := s.mem.spad, fe := s.mem.fe, rings := s.cur.rings, next := s.nextId, pend := s.cur.pend, wq := s.mem.wq, rq := s.mem.rq,
    ops := s.ops, treqs := s.treqs, calls := s.core.calls, win := s.cur.win, agent := s.cur.winAgent }

/-- The state as far as the fences of R266 look at it, before the bundle at issue. -/
def State.before (s : State) : State :=
  match s.view with
  | none => s
  | some v =>
    { s with nextId := v.next, mem := { s.mem with wq := v.wq, rq := v.rq }, ops := v.ops, treqs := v.treqs,
             cur := { s.cur with pend := v.pend, win := v.win, winAgent := v.agent }, core := { s.core with calls := v.calls } }

/-! Decrements (R40-R42). -/

/-- The task a reference of the issuer means (R40): L = 0 one of its own launch, which is fixed at issue, L = 1 one of the step launch of its rank in
the step that is current when the decrement arrives. -/
def Stream.taskRef (x : Stream) (ref : Nat) : TaskRef :=
  let rsv := decide ((ref / 2 ^ 16) % 2 ^ 15 ≠ 0)
  let task := ref % 2 ^ 16
  if ref / 2 ^ 31 % 2 = 0 then { ctx := x.ctx, queue := x.queue, lid := x.lid, slot := x.slot, task := task, drop := rsv }
  else { ctx := x.ctx, slot := x.slot, task := task, drop := rsv, sl := true }

/-- The queue and the started, unretired launch of a reference (R42). -/
def State.refLaunch (s : State) (t : TaskRef) : Option (Nat × Launch) :=
  let all := ((s.ctxAt t.ctx).queues.map (fun (e : Nat × List Launch) => e.2.map (fun l => (e.1, l)))).flatten
  let now := (s.jobOf t.ctx (s.rank t.slot).job).map (fun e => e.2.next.toNat)
  all.find? (fun e => e.2.started && !e.2.done && e.2.ranks.any (fun k => k.slot == t.slot)
    && (if t.sl then (wordAt e.2.d 6).getLsbD 31 && some (fld (wordAt e.2.d 6) 63 32) == now else e.1 == t.queue && e.2.lid == t.lid))

/-- Whether the agent drops a reference (R42). -/
def State.refDrop (s : State) (t : TaskRef) : Bool :=
  t.drop || (match s.refLaunch t with | some (_, l) => decide (fld (wordAt l.d 3) 63 48 ≤ t.task) | none => true)

/-- A dropped decrement is counted (R42). -/
def State.lost (s : State) (c : Nat) : State := s.modCtx c (fun x => { x with lostdec := x.lostdec + 1 })

/-- A decrement sets out for the agent of the rank's home die (R41). -/
def State.sendDec (s : State) (k : Nat) (t : TaskRef) (amount : Nat) : State :=
  let (i, s) := s.fresh
  { s with ops := s.ops ++ [{ id := i, key := k, ctx := t.ctx, slot := t.slot, kind := .dec t amount none }] }

/-! BKLOCK holds (R287-R289). -/

/-- Whether the bundle at issue stands in a hold: one that began before, or its own BKLOCK's in another slot (R288). -/
def State.inHold (s : State) : Bool :=
  s.cur.hold.isSome || (match s.cur.bundle with
    | none => false
    | some b => b.slots.any (fun e => e.1 != rankSlot s.slotRank && (match e.2 with | .bklock _ _ => true | _ => false)))

/-- BKLOCK with its SUB (R289). -/
def bkTrap (sub : Nat) (a : Word64) : TrapRec := { cause := 0x0E, addr := a, info := BitVec.ofNat 64 sub }

/-- A C-slot instruction that no hold allows (R289), with its address. -/
def State.unheldAt (s : State) (a : Word64) (r : Res) : Res := if s.inHold then .trap (bkTrap 0x60 a) else r

/-- A C-slot instruction that no hold allows (R289); it has no address for TRAPADDR. -/
def State.unheld (s : State) (r : Res) : Res := s.unheldAt (Config.freeWord s.tick) r

/-- Whether scratchpad bytes lie in bank groups that another stream of that core holds: the access waits (R288). -/
def State.bankHeld (s : State) (me : Nat) (ks : List (Nat × Nat)) : Bool :=
  s.allStreams.any (fun e =>
    match e.2.hold with
    | none => false
    | some h => e.1 != me && ks.any (fun k =>
        k.1 / 2 ^ 20 == e.1 / 2 && (cut 128 (k.1 % 2 ^ 20) k.2).any (fun r => h.mask.getLsbD (r.1 % 2048 / 128))))

/-! What a release at a level from 4 to 7 puts before what (R265). -/

/-- The hops to the agent to which an operation delivers, as far as the map names its module (R263). -/
def State.opHops (s : State) (o : Op) : Option Nat :=
  let r := s.rank o.slot
  let toRank (v : Nat) : Option Nat := (s.mapNode r.ctx r.job v).map s.nodeHops
  match o.kind with
  | .send ch _ _ _ => match r.rows.find ch with | some w => toRank w.peer | none => none
  | .coll d => toRank d.first
  | _ => some 0

/-- Whether a send or contribution has been delivered. -/
def State.delivered (s : State) (o : Op) : Bool :=
  o.moved != 0 && !s.front.pkts.any (fun p => match p.kind with | .msg _ _ _ _ i => i == o.id | _ => false)

/-- Whether work of a stream with an identity must wait for a send, a contribution or a Tulle request that a release put before it: until the fabric
port has accepted that, and, where its agent lies within the level, until it has been delivered (R265). -/
def State.behindRel (s : State) (key id : Nat) : Bool :=
  let near (level : Nat) (h : Option Nat) : Bool := match h with | some n => decide (n ≤ s.hops (key / 2) level) | none => true
  (s.ops.any (fun p => p.key == key && decide (p.id < id) && decide (4 ≤ p.rel)
      && (match p.kind with | .send _ _ _ _ => true | .coll _ => true | _ => false)
      && (p.moved == 0 || (!s.delivered p && near p.rel (s.opHops p)))))
    || s.treqs.any (fun u => u.key == key && decide (u.id < id) && decide (4 ≤ u.rel) && (u.state == 0 || u.state == 3)
        && (u.state == 3 || near u.rel (some 3)))

/-! DRAM (R254, R255, R362). -/

/-- Where a byte lies in DRAM (R362). -/
structure DramPlace where
  stack : Nat
  row : Nat
  bank : Nat
  chan : Nat
  line : Nat
  byte : Nat
  deriving DecidableEq, Repr

def dramPlace (pa : Nat) : DramPlace :=
  let o := pa % 2 ^ 37
  { stack := pa / 2 ^ 37, row := o / 2 ^ 23 % 2 ^ 14, bank := o / 2 ^ 19 % 16, chan := o / 2 ^ 13 % 64, line := o / 2 ^ 7 % 64, byte := o % 128 }

/-- The pseudo-channel key of an address, stack × 64 + channel, and its bank (R362). -/
def dramChan (pa : Nat) : Nat := (dramPlace pa).stack * 64 + (dramPlace pa).chan
def dramBank (pa : Nat) : Nat := (dramPlace pa).bank

/-- Whether a bank of a channel is in refresh, or one is to begin there: no request enters service (R254, R255). -/
def PChan.closed (p : PChan) (bank : Nat) : Bool := p.busy.contains bank || p.due.contains bank || p.allDue

/-- Whether the bank of an address is in refresh: a request to it waits (R255). -/
def State.refreshing (s : State) (pa : Nat) : Bool := (s.mem.chans.at (dramChan pa) {}).closed (dramBank pa)

/-- The requests of loads in service at their banks (R363). -/
def State.inService (s : State) : List DReq :=
  (s.allStreams.map (fun e => (e.2.pend.map (fun p => p.dram.filter (fun r => r.stage == 2))).flatten)).flatten

/-- Whether an access is in service at a bank of a channel. -/
def State.bankBusy (s : State) (ch bank : Nat) : Bool := s.inService.any (fun r => dramChan r.pa == ch && dramBank r.pa == bank)

/-- Whether a request's line lies in its bank's open row (R363). -/
def State.inOpenRow (s : State) (pa : Nat) : Bool :=
  ((s.mem.chans.at (dramChan pa) {}).rows.get (dramBank pa)).toNat == (dramPlace pa).row + 1

/-- The lines of HOME = 01 pages among pieces, each with LAT (R234, R254). -/
def State.streamLines (s : State) (ps : List Piece) : List (Nat × Bool) :=
  (ps.map (fun p =>
    match p.pl with
    | .win _ => []
    | .glob pa e => (s.streamed e.home pa p.n).map (fun a => (a, e.lat)))).flatten

/-- Whether a read of pieces made at once waits for a bank in refresh (R255). -/
def State.dramWait (s : State) (ps : List Piece) : Bool := (s.streamLines ps).any (fun r => s.refreshing r.1)

/-- Whether pieces wait: for a version bump, for held banks, for a bank in refresh (R72, R288, R255). -/
def State.piecesWait (s : State) (ctx me : Nat) (ps : List Piece) : Bool :=
  ps.any (s.bumping ctx) || s.bankHeld me (winKeys ps) || s.dramWait ps

/-- Requests have left service: the row of each is its bank's open row, and the cycle of a latency-critical one counts (R255, R363). -/
def State.latDone (s : State) (ls : List (Nat × Bool)) : State :=
  ls.foldl (fun (s : State) r =>
    let p := s.mem.chans.at (dramChan r.1) {}
    let p := { p with rows := p.rows.set (dramBank r.1) (BitVec.ofNat 16 ((dramPlace r.1).row + 1)),
                      lastLat := if r.2 then s.cycle.toNat else p.lastLat }
    { s with mem := { s.mem with chans := s.mem.chans.put (dramChan r.1) p } }) s

end Sys2Proof.Machine
end

