-- ==== Sys2Proof/Machine/Operands.lean ====
section
/-! DEFINITION. Operand forms at issue: scalar operands (R81, R103), destinations (R39, R140), line operands and broadcasts
(R80), the cells they name through the mapping of R106, and the parity check of a read (R342). -/

namespace Sys2Proof.Machine

/-- A scalar operand read at issue (R81, R103). -/
def Stream.readOp (x : Stream) : SOp → Word64
  | .reg r => x.readS r
  | .imm v => v.signExtend 64
  | .pred p => if x.readP p then 1 else 0
  | .lidx l => BitVec.ofNat 64 (x.lval l.toNat)
  | .lc => x.lc.setWidth 64
  | .ec => x.ec.setWidth 64
  | .rrb => x.rrb.setWidth 64

/-- The offset of an access: a register as it stands, an immediate times the access unit (R237). -/
def Stream.readOff (x : Stream) (u : Nat) : SOp → Word64
  | .imm v => v.signExtend 64 * BitVec.ofNat 64 u
  | o => x.readOp o

/-- Whether the focused stream is the secondary of its core. -/
def State.sec (s : State) : Bool := s.curKey % 2 == 1

/-- The key of a cell of a physical tile. -/
def cellKey (tile i j : Nat) : Nat := tile * 4096 + 64 * i + j

/-- The cells of a line of a physical tile, lane 0 first (R80). -/
def lineCells (d : Dir) (tile j : Nat) : List Nat :=
  (upto 0 64).map (fun k =>
    match d with
    | .row => cellKey tile j k
    | .col => cellKey tile k j
    | .diag => cellKey tile k ((k + j) % 64))

/-- The physical tile of a logical tile of the focused stream (R106). -/
def State.tileOf (s : State) (t : BitVec 3) : Nat := s.cur.ptile s.sec t.toNat

/-- The cells of a line operand of the focused stream (R80, R106). -/
def State.lineKeys (s : State) (l : Line) : List Nat := lineCells l.dir (s.tileOf l.tile) (s.cur.lval l.l.toNat)

/-- The line number of a line operand (R80). -/
def State.lineNo (s : State) (l : Line) : Nat := s.cur.lval l.l.toNat

/-- The 64 cells of a line operand. -/
def State.readLine (s : State) (l : Line) : List Word32 := (s.lineKeys l).map s.core.mrf.get

/-- The 64 lanes of a V-slot source (R80, R162). -/
def State.readSrc (s : State) : VSrc → List Word32
  | .line l => s.readLine l
  | .bc r => List.replicate 64 ((s.cur.readS r).setWidth 32)

/-- MRFPARITY of R342: bits 18:16 the physical tile, bits 11:0 the cell. -/
def parityInfo (k : Nat) : Word64 := BitVec.ofNat 64 (k / 4096 * 65536 + k % 4096)

/-- The trap of reading a cell whose parity has failed (R342). -/
def State.parityTrap (s : State) (keys : List Nat) : Option TrapRec :=
  if s.core.parity.isEmpty then none
  else (keys.find? (fun k => s.core.parity.contains k)).map (fun k =>
    { cause := 0x14, addr := Config.freeWord s.tick, info := parityInfo k })

/-- The cells a source reads. -/
def State.srcKeys (s : State) : VSrc → List Nat
  | .line l => s.lineKeys l
  | .bc _ => []

/-- Goes on unless a read cell's parity has failed (R342). -/
def State.sound (s : State) (keys : List Nat) (r : Res) : Res :=
  match s.parityTrap keys with
  | some t => .trap t
  | none => r

/-- A line result of latency L: 64 cells. -/
def State.outLine (s : State) (L : Nat) (d : Line) (vs : List Word32) (fl : BitVec 7) : State :=
  s.out L (.cells ((s.lineKeys d).zip vs)) fl

/-- A destination of s0, p0 writes nothing (R101); its flags are still set (R137). -/
def Stream.low32 (x : Stream) (r : SReg) : Word32 := (x.readS r).setWidth 32

end Sys2Proof.Machine
end

