-- ==== Sys2Proof/Machine/Flags.lean ====
section
/-! DEFINITION. Flags and conditions: the rounding modes of FMODE (R104), the NF rule of selected values (R129), the integer
and FP32 conditions (R140, R146), the predicate functions (R141), what FLAGOP does (R153). -/

namespace Sys2Proof.Machine

/-- The rounding mode of each slot kind (R104). -/
def Stream.rms (x : Stream) : RMode := RMode.of (x.fmode.extractLsb' 0 2)
def Stream.rmv (x : Stream) : RMode := RMode.of (x.fmode.extractLsb' 2 2)
def Stream.rmm (x : Stream) : RMode := RMode.of (x.fmode.extractLsb' 4 2)
def Stream.rmk (x : Stream) : RMode := RMode.of (x.fmode.extractLsb' 6 2)

/-- NF of a value that is delivered and not rounded: set when it is a NaN or an infinity (R129). -/
def nfOf (x : Ex) : Flags := flIf (!x.isFin) flNF

/-- NV of signalling operands (R120). -/
def nvOf (xs : List Ex) : Flags := flIf (xs.any Ex.isSig) flNV

/-- The integer conditions of CMP on W-bit operands, given as signed and unsigned values (R140). -/
def condHolds (c : Cond) (sx sy : Int) (ux uy : Nat) : Bool :=
  match c with
  | .eq => ux == uy
  | .ne => ux != uy
  | .lt => decide (sx < sy)
  | .ge => decide (sy ≤ sx)
  | .ltu => decide (ux < uy)
  | .geu => decide (uy ≤ ux)
  | .le => decide (sx ≤ sy)
  | .leu => decide (ux ≤ uy)

/-- The FP32 conditions of FCMP (R146). -/
def fcondHolds (c : FCond) (x y : Ex) : Bool :=
  let un := x.isNan || y.isNan
  match c with
  | .eq => !un && exCmp x y == 0
  | .ne => un || exCmp x y != 0
  | .lt => !un && decide (exCmp x y < 0)
  | .le => !un && decide (exCmp x y ≤ 0)
  | .un => un
  | .ord => !un

/-- The functions of PLOG (R141). -/
def plogFn (f : PFun) (a b : Bool) : Bool :=
  match f with
  | .and => a && b
  | .or => a || b
  | .xor => a != b
  | .andn => a && !b
  | .orn => a || !b
  | .nand => !(a && b)
  | .nor => !(a || b)
  | .xnor => a == b

/-- The mask of a FLAGOP (R153). -/
def flagMask (v : Word64) : Flags := v.extractLsb' 0 7

end Sys2Proof.Machine
end

