-- ==== Sys2Proof/Machine/Scalar.lean ====
section
/-! DEFINITION. The S slot's arithmetic: integers and logic (R139-R144), FP32 (R145-R147). -/

namespace Sys2Proof.Machine

/-- What a slot instruction's issue ends in. -/
abbrev Out := Host.Outcome State Fault Refusal

/-! Integers. -/

/-- The width of an integer instruction (R139). -/
def intW (w : Bool) : Nat := if w then 32 else 64

/-- An operand at its width and signedness (R139). -/
def intArg (u w : Bool) (v : Word64) : Int :=
  if w then (if u then ((v.setWidth 32).toNat : Int) else (v.setWidth 32).toInt) else (if u then (v.toNat : Int) else v.toInt)

/-- A result modulo 2^W, extended to 64 bits by the signedness (R139). -/
def intRes (u w : Bool) (r : Int) : Word64 :=
  if w then (if u then (BitVec.ofInt 32 r).setWidth 64 else (BitVec.ofInt 32 r).signExtend 64) else BitVec.ofInt 64 r

/-- An integer instruction of latency L: its exact result from the two operands at their width. -/
def State.intOp (s : State) (L : Nat) (u w : Bool) (d : SReg) (a b : SOp) (f : Int → Int → Int) : State :=
  s.out L (.s d.toNat (intRes u w (f (intArg u w (s.cur.readOp a)) (intArg u w (s.cur.readOp b)))))

/-- A bitwise instruction (R139). -/
def State.bitOp (s : State) (u w : Bool) (d : SReg) (a b : SOp) (f : Word64 → Word64 → Word64) : State :=
  s.out 1 (.s d.toNat (intRes u w (f (s.cur.readOp a) (s.cur.readOp b)).toInt))

/-- The shift count (R139). -/
def shiftCount (w : Bool) (v : Word64) : Nat := if w then fld v 4 0 else fld v 5 0

/-- The quotient of R139: all ones for a zero divisor. -/
def intDiv (w : Bool) (x y : Int) : Int := if y = 0 then 2 ^ intW w - 1 else x.tdiv y

/-- The remainder of R139: the dividend for a zero divisor. -/
def intRem (x y : Int) : Int := if y = 0 then x else x - y * x.tdiv y

def execAdd (u w : Bool) (d : SReg) (a b : SOp) (s : State) : Out := finish s (.ok (s.intOp 1 u w d a b (fun x y => x + y)))
def execSub (u w : Bool) (d : SReg) (a b : SOp) (s : State) : Out := finish s (.ok (s.intOp 1 u w d a b (fun x y => x - y)))
def execMul (u w : Bool) (d : SReg) (a b : SOp) (s : State) : Out := finish s (.ok (s.intOp 3 u w d a b (fun x y => x * y)))
def execMulh (u w : Bool) (d : SReg) (a b : SOp) (s : State) : Out :=
  finish s (.ok (s.intOp 3 u w d a b (fun x y => x * y / 2 ^ intW w)))
def execDiv (u w : Bool) (d : SReg) (a b : SOp) (s : State) : Out := finish s (.ok (s.intOp 8 u w d a b (intDiv w)))
def execRem (u w : Bool) (d : SReg) (a b : SOp) (s : State) : Out := finish s (.ok (s.intOp 8 u w d a b intRem))
def execAnd (u w : Bool) (d : SReg) (a b : SOp) (s : State) : Out := finish s (.ok (s.bitOp u w d a b (fun x y => x &&& y)))
def execOr (u w : Bool) (d : SReg) (a b : SOp) (s : State) : Out := finish s (.ok (s.bitOp u w d a b (fun x y => x ||| y)))
def execXor (u w : Bool) (d : SReg) (a b : SOp) (s : State) : Out := finish s (.ok (s.bitOp u w d a b (fun x y => x ^^^ y)))
def execShl (u w : Bool) (d : SReg) (a b : SOp) (s : State) : Out :=
  finish s (.ok (s.intOp 1 u w d a b (fun x _ => x * 2 ^ shiftCount w (s.cur.readOp b))))
def execShr (u w : Bool) (d : SReg) (a b : SOp) (s : State) : Out :=
  finish s (.ok (s.intOp 1 u w d a b (fun x _ => x / 2 ^ shiftCount w (s.cur.readOp b))))
def execMin (u w : Bool) (d : SReg) (a b : SOp) (s : State) : Out :=
  finish s (.ok (s.intOp 1 u w d a b (fun x y => if x ≤ y then x else y)))
def execMax (u w : Bool) (d : SReg) (a b : SOp) (s : State) : Out :=
  finish s (.ok (s.intOp 1 u w d a b (fun x y => if y ≤ x then x else y)))

/-- CMP (R140). -/
def execCmp (c : Cond) (w : Bool) (d : Dst) (a b : SOp) (s : State) : Out :=
  let x := s.cur.readOp a
  let y := s.cur.readOp b
  let t := condHolds c (intArg false w x) (intArg false w y) (intArg true w x).toNat (intArg true w y).toNat
  finish s (.ok (s.out 1 (dstTgt d t)))

/-- SEL (R141). -/
def execSel (p : PReg) (d : SReg) (a b : SOp) (s : State) : Out :=
  finish s (.ok (s.out 1 (.s d.toNat (if s.cur.readP p then s.cur.readOp a else s.cur.readOp b))))

/-- MOVI (R142). -/
def execMovi (d : SReg) (v : BitVec 18) (s : State) : Out := finish s (.ok (s.out 1 (.s d.toNat (v.signExtend 64))))

/-- MOVSH (R142). -/
def execMovsh (d : SReg) (v : BitVec 18) (s : State) : Out :=
  finish s (.ok (s.out 1 (.s d.toNat ((s.cur.readS d <<< (18 : Nat)) ||| v.setWidth 64))))

/-- PLOG (R141). -/
def execPlog (f : PFun) (d a b : PReg) (s : State) : Out :=
  finish s (.ok (s.out 1 (.p d.toNat (plogFn f (s.cur.readP a) (s.cur.readP b)))))

/-- The field of BFX (R143): bits lo + len - 1 to lo, extended. -/
def bfx (sx : Bool) (v sel : Word64) : Word64 :=
  let lo := fld sel 5 0
  let len := min (fld sel 12 6) (64 - lo)
  if len = 0 then 0
  else
    let x := (v.toNat >>> lo) % 2 ^ len
    if sx && x.testBit (len - 1) then BitVec.ofInt 64 ((x : Int) - 2 ^ len) else BitVec.ofNat 64 x

/-- BFX (R143). -/
def execBfx (sx : Bool) (d : SReg) (a b : SOp) (s : State) : Out :=
  finish s (.ok (s.out 1 (.s d.toNat (bfx sx (s.cur.readOp a) (s.cur.readOp b)))))

/-- CLZ, CTZ and POPC of W bits (R143). -/
def bitCount (f : BFun) (w : Bool) (v : Word64) : Nat :=
  let bits := (upto 0 (intW w)).map (fun i => v.getLsbD i)
  match f with
  | .clz => (bits.reverse.takeWhile (fun b => !b)).length
  | .ctz => (bits.takeWhile (fun b => !b)).length
  | .popc => (bits.filter (fun b => b)).length

/-- BITC (R143). -/
def execBitc (f : BFun) (w : Bool) (d : SReg) (a : SOp) (s : State) : Out :=
  finish s (.ok (s.out 1 (.s d.toNat (BitVec.ofNat 64 (bitCount f w (s.cur.readOp a))))))

/-- LEA (R143). -/
def execLea (k : BitVec 3) (d : SReg) (a b : SOp) (s : State) : Out :=
  finish s (.ok (s.out 1 (.s d.toNat (s.cur.readOp a + (s.cur.readOp b <<< k.toNat)))))

/-- LIX (R144): VAL from A, STEP from B. -/
def execLix (l : BitVec 2) (a b : SOp) (s : State) : Out :=
  let v : BitVec 12 := (s.cur.readOp b).extractLsb' 0 6 ++ (s.cur.readOp a).extractLsb' 0 6
  finish s (.ok (s.out 1 (.l l.toNat v)))

/-- One step of a line-index register (R144): VAL := (VAL + STEP) mod 64. -/
def lixStep (v : BitVec 12) : BitVec 12 := v.extractLsb' 6 6 ++ (v.extractLsb' 0 6 + v.extractLsb' 6 6)

/-- LIXSTEP of one register (R144). -/
def execLixstep (l : BitVec 2) (s : State) : Out :=
  finish s (.ok (s.out 1 (.l l.toNat (lixStep (s.cur.l.get l.toNat)))))

/-- LIXSTEP.ALL (R144). -/
def execLixstepAll (s : State) : Out :=
  finish s (.ok ((upto 0 4).foldl (fun t i => t.out 1 (.l i (lixStep (s.cur.l.get i)))) s))

/-! FP32 (R145-R147). -/

/-- The FP32 value of a register's low word (R137). -/
def Stream.fp (x : Stream) (r : SReg) : Ex := fp32.value (x.low32 r).toNat

/-- An FP32 result of latency 4: Narrow of an exact value with its own flags (R137, R145). -/
def State.fpOut (s : State) (d : SReg) (r : Ex × Flags) (sat : Bool) : State :=
  let (v, f) := narrow (.fp fp32) r.1 s.cur.rms sat
  s.out 4 (.s d.toNat (BitVec.ofNat 64 v)) (r.2 ||| f)

/-- FADD (R145). -/
def execFadd (sub sat : Bool) (d a b : SReg) (s : State) : Out :=
  let y := s.cur.fp b
  finish s (.ok (s.fpOut d (exAdd s.cur.rms (s.cur.fp a) (if sub then y.neg else y)) sat))

/-- FMUL (R145). -/
def execFmul (sat : Bool) (d a b : SReg) (s : State) : Out :=
  finish s (.ok (s.fpOut d (exMul (s.cur.fp a) (s.cur.fp b)) sat))

/-- FMA (R145): one rounding, the destination is the addend. -/
def execFma (sub sat : Bool) (d a b : SReg) (s : State) : Out :=
  finish s (.ok (s.fpOut d (exFma s.cur.rms (s.cur.fp d) (s.cur.fp a) (s.cur.fp b) sub) sat))

/-- The lesser or greater of two values, with NV and NF (R145, R165); the bits of the chosen one, or a canonical NaN. -/
def minMaxBits (F : FF) (nan : Nat) (max : Bool) (a b : Nat) : Nat × Flags :=
  let x := F.value a
  let y := F.value b
  if x.isNan || y.isNan then (nan, nvOf [x, y] ||| flNF)
  else
    let c := exCmpZ x y
    let v := if max then (if c < 0 then b else a) else (if 0 < c then b else a)
    (v, nfOf (F.value v))

/-- FMINMAX (R145). -/
def execFminmax (max : Bool) (d a b : SReg) (s : State) : Out :=
  let (v, f) := minMaxBits fp32 0x7FC00000 max (s.cur.low32 a).toNat (s.cur.low32 b).toNat
  finish s (.ok (s.out 4 (.s d.toNat (BitVec.ofNat 64 v)) f))

/-- FCMP (R146). -/
def execFcmp (c : FCond) (d : Dst) (a b : SReg) (s : State) : Out :=
  let x := s.cur.fp a
  let y := s.cur.fp b
  finish s (.ok (s.out 4 (dstTgt d (fcondHolds c x y)) (nvOf [x, y])))

/-- The source value of FCVT (R147). -/
def styValue (t : STy) (v : Word64) : Ex :=
  match t with
  | .f32 => fp32.value (v.setWidth 32).toNat
  | .bf16 => bf16.value (v.setWidth 16).toNat
  | .f16 => fp16.value (v.setWidth 16).toNat
  | .i64 => .ofInt v.toInt
  | .c64 => .ofInt v.toNat
  | .i32 => .ofInt (v.setWidth 32).toInt
  | .c32 => .ofInt (v.setWidth 32).toNat

/-- The destination of FCVT (R147). -/
def styNT : STy → NT
  | .f32 => .fp fp32
  | .bf16 => .fp bf16
  | .f16 => .fp fp16
  | .i64 => .int (-(2 ^ 63)) (2 ^ 63 - 1) 64
  | .c64 => .int 0 (2 ^ 64 - 1) 64
  | .i32 => .int (-(2 ^ 31)) (2 ^ 31 - 1) 32
  | .c32 => .int 0 (2 ^ 32 - 1) 32

/-- A result in its register: I32 sign-extended, every other type zero-extended (R147). -/
def styBits (t : STy) (b : Nat) : Word64 :=
  match t with
  | .i32 => (BitVec.ofNat 32 b).signExtend 64
  | _ => BitVec.ofNat 64 b

/-- FCVT (R147). -/
def execFcvt (dst src : STy) (sat : Bool) (d a : SReg) (s : State) : Out :=
  let x := styValue src (s.cur.readS a)
  let (v, f) := narrow (styNT dst) x s.cur.rms sat
  finish s (.ok (s.out 4 (.s d.toNat (styBits dst v)) (f ||| nvOf [x])))

end Sys2Proof.Machine
end

