-- ==== Sys2Proof/Machine/Control.lean ====
section
/-! DEFINITION. The S slot's control: branches and calls (R148), loops and rotation (R149, R150), system registers (R151), flags
(R153), traps and the return from one (R154, R155), TEND, ISYNC and NOP (R156, R158, R160). -/

namespace Sys2Proof.Machine

/-- NOP (R160). -/
def execNop (s : State) : Out := finish s (.ok s)

/-- The bundle goes on at an address. -/
def State.jump (s : State) (a : Word64) : State := { s with cur := { s.cur with npc := a } }

/-- The target of an offset, from the header of the branch's own bundle (R83). -/
def State.target {n : Nat} (s : State) (off : BitVec n) : Word64 := s.baddr + off.signExtend 64 * 4

/-- The header address of the sequential successor (R76, R148). -/
def State.succAddr (s : State) : Word64 := match s.cur.bundle with | some b => b.succ | none => s.cur.pc + 8

/-- The return address goes to s31, visible to the first bundle at the target (R148). -/
def State.link (s : State) : State := s.out 1 (.s 31 s.succAddr)

/-- A register target, whose bits 1:0 must be zero (R88). -/
def State.checked (s : State) (t : Word64) (k : State → Res) : Res :=
  if t &&& 3 ≠ 0 then
    let (_, w) := s.slotWord
    .trap { cause := 0x03, addr := t, info := info85 w 0 0x21 }
  else k s

/-- BR (R148). -/
def execBr (off : BitVec 25) (s : State) : Out := finish s (.ok (s.jump (s.target off)))

/-- BRP (R148). -/
def execBrp (neg : Bool) (p : PReg) (off : BitVec 17) (s : State) : Out :=
  finish s (.ok (if s.cur.readP p != neg then s.jump (s.target off) else s))

/-- BRI (R148). -/
def execBri (a : SReg) (s : State) : Out := finish s (s.checked (s.cur.readS a) (fun s => .ok (s.jump (s.cur.readS a))))

/-- CALL (R148). -/
def execCall (off : BitVec 25) (s : State) : Out := finish s (.ok (s.link.jump (s.target off)))

/-- CALLI (R148). -/
def execCalli (a : SReg) (s : State) : Out := finish s (s.checked (s.cur.readS a) (fun s => .ok (s.link.jump (s.cur.readS a))))

/-- RET (R148). -/
def execRet (s : State) : Out := finish s (s.checked (s.cur.readS 31) (fun s => .ok (s.jump (s.cur.readS 31))))

/-- LOOPSET (R149). -/
def execLoopset (a b : SOp) (s : State) : Out :=
  finish s (.ok (s.out 1 (.loopset ((s.cur.readOp a).setWidth 32) ((s.cur.readOp b).setWidth 32))))

/-- The counts of LOOP (R150): LC, EC and the predicate shifted in. -/
def loopCounts (lc ec : Word32) : Word32 × Word32 × Bool :=
  if lc ≠ 0 then (lc - 1, ec, true) else if ec ≠ 0 then (lc, ec - 1, false) else (lc, ec, false)

/-- LOOP (R150): it writes the counter that it counts down, and no other (R112). -/
def execLoop (off : BitVec 25) (s : State) : Out :=
  let (lc, ec, inn) := loopCounts s.cur.lc s.cur.ec
  let ps : BitVec 8 := s.cur.p.extractLsb' 8 7 ++ BitVec.ofBool inn
  let took (new old : Word32) : Option Word32 := if new = old then none else some new
  let s := s.out 1 (.loop (took lc s.cur.lc) (took ec s.cur.ec) (s.cur.rrb - 1) ps)
  finish s (.ok (if lc.toNat + ec.toNat > 0 then s.jump (s.target off) else s))

/-- SRD (R151): the register as it stands when the read lands. -/
def execSrd (d : SReg) (r : SysReg) (s : State) : Out := finish s (.ok (s.out 2 (.srd d r)))

/-- SWR (R151). -/
def execSwr (r : SysReg) (a : SOp) (s : State) : Out := finish s (.ok (s.out 2 (.sys r (s.cur.readOp a))))

/-- FLAGOP.CLR (R153). -/
def execFlagopClr (a : SOp) (s : State) : Out := finish s (.ok (s.out 2 (.flagClr (flagMask (s.cur.readOp a)))))

/-- FLAGOP.SET (R153). -/
def execFlagopSet (a : SOp) (s : State) : Out := finish s (.ok (s.out 2 (.flagSet (flagMask (s.cur.readOp a)))))

/-- FLAGOP.RDCLR (R153): it clears only bits it has returned. -/
def execFlagopRdclr (d : SReg) (a : SOp) (s : State) : Out :=
  let v := s.cur.flags
  finish s (.ok ((s.out 2 (.s d.toNat (v.setWidth 64))).out 2 (.flagClr (flagMask (s.cur.readOp a) &&& v))))

/-- FLAGOP.TST (R153). -/
def execFlagopTst (d : PReg) (a : SOp) (s : State) : Out :=
  finish s (.ok (s.out 2 (.p d.toNat ((s.cur.flags &&& flagMask (s.cur.readOp a)) != 0))))

/-- The trap of TRAP and BRK stands until the boundary after the bundle (R154). -/
def State.softTrap (s : State) (cause : Byte) (code : BitVec 14) : State :=
  { s with cur := { s.cur with btrap := some { cause := cause, addr := s.baddr, info := code.setWidth 64 } } }

/-- TRAP (R154). -/
def execTrap (code : BitVec 14) (s : State) : Out := finish s (.ok (s.softTrap 0x12 code))

/-- BRK (R154); under a debugger it halts at the same boundary (R337). -/
def execBrk (code : BitVec 14) (s : State) : Out := finish s (.ok (s.softTrap 0x11 code))

/-- ERET (R155). -/
def execEret (s : State) : Out :=
  finish s (if !s.cur.handler then .trap (s.illop 0x13) else s.checked (s.cur.trappc.setWidth 64) (fun s => .ok s.leaveTrap))

/-- TEND (R156): the stream issues nothing more; the task retires when its work is complete. -/
def execTend (s : State) : Out := finish s (.ok { s with cur := { s.cur with ending := 1 } })

/-- ISYNC (R158): the lines held ahead of issue are discarded. -/
def execIsync (s : State) : Out := finish s (.ok { s with cur := { s.cur with code := [] } })

end Sys2Proof.Machine
end

