-- ==== Sys2Proof/Machine/Kslot.lean ====
section
/-! DEFINITION. The K slot (R183-R187). -/

namespace Sys2Proof.Machine

/-- The address of a K-slot access of element size u and stride m: sA + B × m (R184). -/
def State.kaddr (s : State) (m : Nat) (a : SReg) (b : SOp) : Word64 := s.cur.readS a + s.cur.readOp b * BitVec.ofNat 64 m

/-- The checks of R184: alignment to the element, every byte in a held granule; a load meets no uncorrectable word (R342). -/
def State.kwin (s : State) (a : Word64) (u n : Nat) (k : AKind) (f : List Piece → Res) : Res :=
  if a.toNat % u ≠ 0 then .trap (trapMisalign a)
  else
    match s.cur.winPieces (s.curKey / 2) a.toNat n k with
    | .error t => .trap { t with addr := a }
    | .ok ps =>
      if k == .load && ps.any (fun p => p.bad s.mem) then .trap { trap68 0x08 a.toNat 0xF k 0x21 with addr := a }
      else if s.bankHeld s.curKey (winKeys ps) then .stall true none
      else f ps

/-- Element i of u bytes of a byte list. -/
def byteElem (u i : Nat) (l : List Byte) : Nat := leNat ((l.drop (u * i)).take u)

/-- A loaded element as FP32 (R184). -/
def kconv (f : KFmt) (m : RMode) (b : Nat) : Word32 × Flags :=
  let x : Ex := match f with
    | .f32 => fp32.value b
    | .bf16 => bf16.value b
    | .f16 => fp16.value b
    | .i32 => .ofInt (BitVec.ofNat 32 b).toInt
  let (v, fl) := narrow (.fp fp32) x m false
  (BitVec.ofNat 32 v, fl ||| nvOf [x])

def kSize : KFmt → Nat
  | .f32 => 4
  | .bf16 => 2
  | .f16 => 2
  | .i32 => 4

/-- KLD (R184). -/
def execKld (f : KFmt) (c : BitVec 4) (a : SReg) (b : SOp) (s : State) : Out :=
  let u := kSize f
  finish s (s.kwin (s.kaddr u a b) u u .load (fun ps =>
    let (v, fl) := kconv f s.cur.rmk (leNat (winBytes s.vspad ps))
    .ok (s.out 4 (.c c.toNat v) fl)))

/-- KLDZ (R184): 64 consecutive elements. -/
def execKldz (bf : Bool) (z : BitVec 2) (a : SReg) (b : SOp) (s : State) : Out :=
  let f : KFmt := if bf then .bf16 else .f32
  let u := kSize f
  finish s (s.kwin (s.kaddr (64 * u) a b) u (64 * u) .load (fun ps =>
    let l := winBytes s.vspad ps
    let r := (upto 0 64).map (fun i => kconv f s.cur.rmk (byteElem u i l))
    .ok (s.out 4 (.z z.toNat (r.map (fun e => e.1))) (r.foldl (fun t e => t ||| e.2) 0))))

/-- Stores bytes over window pieces. -/
def State.winStore (s : State) : List Piece → List Byte → State
  | [], _ => s
  | p :: r, l =>
    match p.pl with
    | .win k => (s.winPut k (l.take p.n)).winStore r (l.drop p.n)
    | .glob _ _ => s.winStore r (l.drop p.n)

/-- KST of a c register (R185). -/
def execKst (c : BitVec 4) (a : SReg) (b : SOp) (s : State) : Out :=
  finish s (s.kwin (s.kaddr 4 a b) 4 4 .store (fun ps => .ok (s.winStore ps (leBytes (s.cur.c.get c.toNat).toNat 4))))

/-- KST.Z (R185). -/
def execKstZ (z : BitVec 2) (a : SReg) (b : SOp) (s : State) : Out :=
  finish s (s.kwin (s.kaddr 256 a b) 4 256 .store (fun ps =>
    .ok (s.winStore ps ((upto 0 64).map (fun i => leBytes (s.cur.z.get (z.toNat * 64 + i)).toNat 4)).flatten)))

/-- KMOV (R186). -/
def execKmovCFromOp (c : BitVec 4) (a : SOp) (s : State) : Out :=
  finish s (.ok (s.out 1 (.c c.toNat ((s.cur.readOp a).setWidth 32))))
def execKmovSFromC (d : SReg) (c : BitVec 4) (s : State) : Out :=
  finish s (.ok (s.out 1 (.s d.toNat ((s.cur.c.get c.toNat).setWidth 64))))
def execKmovCFromC (d c : BitVec 4) (s : State) : Out := finish s (.ok (s.out 1 (.c d.toNat (s.cur.c.get c.toNat))))
def execKmovCFromZ (c : BitVec 4) (z : BitVec 2) (b : SOp) (s : State) : Out :=
  finish s (.ok (s.out 1 (.c c.toNat (s.cur.z.get (z.toNat * 64 + fld (s.cur.readOp b) 5 0)))))
def execKmovZFromC (z : BitVec 2) (c : BitVec 4) (b : SOp) (s : State) : Out :=
  finish s (.ok (s.out 1 (.ze z.toNat (fld (s.cur.readOp b) 5 0) (s.cur.c.get c.toNat))))

/-- KSETEF (R187): it governs the fourth bundle after its own. -/
def execKsetef (a : SOp) (s : State) : Out := finish s (.ok (s.out 4 (.sys .efr (s.cur.readOp a))))

/-- KGETEF (R187). -/
def execKgetef (d : SReg) (s : State) : Out := finish s (.ok (s.out 1 (.s d.toNat (s.cur.efr.setWidth 64))))

end Sys2Proof.Machine
end

