-- ==== Sys2Proof/Machine/Trans.lean ====
section
/-! DEFINITION. The exact functions behind R174 and R180: each is given as an exact value, or as a value within 2^-240 of it
that is never a format value or a midpoint, so that one Narrow rounds it correctly (log 10). -/

namespace Sys2Proof.Machine

/-- Binary places of the fixed-point computations. -/
def fxP : Nat := 256
def fxOne : Nat := 2 ^ 256

def fxMul (a b : Nat) : Nat := (a * b) >>> fxP

/-- Sum of y^(2k+1)/(2k+1) over `n` terms: `pw` is the current power, `y2` the square. -/
def atanhSum (y2 pw k acc : Nat) : Nat → Nat
  | 0 => acc
  | n + 1 => atanhSum y2 (fxMul pw y2) (k + 2) (acc + pw / k) n

/-- ln of a/b for b ≤ a ≤ 2b, in fixed point: 2 atanh((a − b)/(a + b)). -/
def fxLnQ (a b : Nat) : Nat :=
  let y := ((a - b) * fxOne) / (a + b)
  2 * atanhSum (fxMul y y) y 1 0 90

def fxLn2 : Nat := fxLnQ 2 1

/-- ln of n/d × 2^e as a signed fixed-point number. -/
def fxLn (n d : Nat) (e : Int) : Int :=
  let k := log2Q n d
  let (a, b) := shiftQ n d (-k)
  (fxLnQ a b : Int) + (k + e) * fxLn2

/-- exp of a fixed-point y with 0 ≤ y < 1: sum of y^k/k!. -/
def expSum (y t k acc : Nat) : Nat → Nat
  | 0 => acc
  | n + 1 => let t' := fxMul t y / k; expSum y t' (k + 1) (acc + t') n

def fxExp (y : Nat) : Nat := expSum y fxOne 1 fxOne 80

/-- A fixed-point number that stands for a value that is no format value: the odd half place keeps it off every one. -/
def inexactFx (neg : Bool) (v : Nat) : Ex := .fin neg (2 * v + 1) 1 (-257)

/-- Integer square root, bit by bit from bit `b - 1` down. -/
def isqrtAux (n acc : Nat) : Nat → Nat
  | 0 => acc
  | b + 1 => let t := acc + 2 ^ b; isqrtAux n (if t * t ≤ n then t else acc) b

def isqrt (n : Nat) : Nat := isqrtAux n 0 (n.log2 / 2 + 1)

/-- n × 2^e with e made even. -/
def evenExp (n : Nat) (e : Int) : Nat × Int := if e % 2 = 0 then (n, e) else (2 * n, e - 1)

/-- √(n × 2^e), for n not zero. -/
def exSqrt (n : Nat) (e : Int) : Ex :=
  let (n, e) := evenExp n e
  let N := n * 2 ^ 200
  let r := isqrt N
  if r * r = N then .fin false r 1 (e / 2 - 100) else .fin false (2 * r + 1) 1 (e / 2 - 101)

/-- 1/√(n × 2^e), for n not zero. -/
def exRsqrt (n : Nat) (e : Int) : Ex :=
  let (n, e) := evenExp n e
  let r := isqrt n
  if r * r = n then .fin false 1 r (-(e / 2))
  else
    let t := isqrt (2 ^ 300 / n)
    .fin false (2 * t + 1) 1 (-(e / 2) - 151)

/-- 2^x for finite x: exact for an integer x; far outside every format's range the exponent is cut to ±4096. -/
def exExp2 (s : Bool) (n d : Nat) (e : Int) : Ex :=
  if n = 0 then .fin false 1 1 0
  else if 12 < log2Q n d + e then .fin false 1 1 (if s then -4096 else 4096)
  else
    let fx : Nat × Nat := shiftQ (n * fxOne) d e
    let v := fx.1 / fx.2
    let exact := decide (fx.1 % fx.2 = 0)
    let y : Int := if s then -(v : Int) else v
    let k := y / (fxOne : Int)
    let f := (y % (fxOne : Int)).toNat
    if f = 0 && exact then .fin false 1 1 k
    else .fin false (2 * fxExp (fxMul f fxLn2) + 1) 1 (k - 257)

/-- log2 of a positive finite value: exact for a power of two. -/
def exLog2 (n d : Nat) (e : Int) : Ex :=
  let k := log2Q n d
  let (a, b) := shiftQ n d (-k)
  if a = b then .ofInt (k + e)
  else
    let fr := (fxLnQ a b * fxOne) / fxLn2
    let v : Int := (k + e) * fxOne + fr
    inexactFx (decide (v < 0)) v.natAbs

/-- e^z for a fixed-point z ≥ 0, as a fixed-point number. -/
def fxExpBig (z : Nat) : Nat :=
  let k := z / fxLn2
  fxExp (z % fxLn2) * 2 ^ k

/-- tanh of a finite nonzero value. -/
def exTanh (s : Bool) (n d : Nat) (e : Int) : Ex :=
  let E := log2Q n d + e
  if E < -30 then .fin s (n * (2 ^ 60 - 1)) d (e - 60)
  else if 5 ≤ E then .fin s (2 ^ 64 - 1) 1 (-64)
  else
    let (a, b) := shiftQ (n * fxOne) d e
    let w := fxExpBig (2 * (a / b))
    .fin s (2 * (((w - fxOne) * fxOne) / (w + fxOne)) + 1) 1 (-257)

/-- Sum of (−1)^k y^k / (k! (2k + 1)): the positive and the negative parts. -/
def erfSum (y t k pos negs : Nat) (sgn : Bool) : Nat → Nat × Nat
  | 0 => (pos, negs)
  | n + 1 =>
    let add := t / (2 * k + 1)
    erfSum y (fxMul t y / (k + 1)) (k + 1) (if sgn then pos else pos + add) (if sgn then negs + add else negs) (!sgn) n

/-- π to fxP places: 16 atan(1/5) − 4 atan(1/239), each by its alternating series. -/
def atanInvSum (x2 pw k : Nat) (sgn : Bool) (pos negs : Nat) : Nat → Nat × Nat
  | 0 => (pos, negs)
  | n + 1 => atanInvSum x2 (pw / x2) (k + 2) (!sgn) (if sgn then pos else pos + pw / k) (if sgn then negs + pw / k else negs) n

def atanInv (x : Nat) : Nat :=
  let (p, q) := atanInvSum (x * x) (fxOne / x) 1 false 0 0 60
  p - q

def fxPi : Nat := 16 * atanInv 5 - 4 * atanInv 239

/-- 2/√π in fixed point. -/
def fxTwoOverSqrtPi : Nat := (2 * fxOne * fxOne) / isqrt (fxPi * fxOne)

/-- erf of a finite nonzero value: (2/√π) x × the series in x². -/
def exErf (s : Bool) (n d : Nat) (e : Int) : Ex :=
  let E := log2Q n d + e
  if 3 ≤ E then .fin s (2 ^ 64 - 1) 1 (-64)
  else
    let (a, b) := shiftQ (n * n * fxOne) (d * d) (2 * (max e (-600)))
    let y := if e < -600 then 0 else a / b
    if 49 * fxOne ≤ y then .fin s (2 ^ 64 - 1) 1 (-64)
    else
      let (p, q) := erfSum y fxOne 0 0 0 false 420
      .fin s (n * (2 * fxMul (p - q) fxTwoOverSqrtPi + 1)) d (e - 257)

/-- −ln(−ln u) for u = (2k + 1) × 2^-25 (R180). -/
def exGumbel (k : Nat) : Ex :=
  let t := (-(fxLn (2 * k + 1) 1 (-25))).toNat
  let v := -(fxLn t 1 (-256))
  inexactFx (decide (v < 0)) v.natAbs

end Sys2Proof.Machine
end

