-- ==== Sys2Proof/Machine/Vector.lean ====
section
/-! DEFINITION. The V slot outside the reversible class (R161-R182). -/

namespace Sys2Proof.Machine

/-! Elements. -/

/-- Element k of w bits of a cell (R121). -/
def elemW (w : Nat) (cell : Word32) (k : Nat) : Nat := (cell.toNat >>> (w * k)) % 2 ^ w

/-- A cell of elements of w bits, unoccupied bits zero (R121). -/
def packW (w : Nat) (es : List Nat) : Word32 := BitVec.ofNat 32 (es.foldr (fun x acc => x % 2 ^ w + 2 ^ w * acc) 0)

/-- The lanes of some lines: for each lane the cells of the lines, in their order. -/
def lanes (ls : List (List Word32)) : List (List Word32) := (upto 0 64).map (fun l => ls.map (fun line => line.getD l 0))

/-- Applies a lane function to every lane and merges the flags (R161). -/
def mapLanes (ls : List (List Word32)) (f : List Word32 → Word32 × Flags) : List Word32 × Flags :=
  let r := (lanes ls).map f
  (r.map (fun e => e.1), r.foldl (fun a e => a ||| e.2) 0)

/-- An element function over the cells of a lane (R161). -/
def elemwise (f : Fmt) (efr : BitVec 12) (op : List Nat → Nat × Flags) (cs : List Word32) : Word32 × Flags :=
  let r := (upto 0 (Fmt.count f efr)).map (fun k => op (cs.map (fun c => elem f efr c k)))
  (pack f efr (r.map (fun e => e.1)), r.foldl (fun a e => a ||| e.2) 0)

/-- A V-slot instruction that writes a line: its sources, then its destination when that is also read. -/
def State.vline (s : State) (L : Nat) (d : Line) (srcs : List VSrc) (readD : Bool) (f : List Word32 → Word32 × Flags) : Res :=
  let all := srcs ++ (if readD then [VSrc.line d] else [])
  s.sound ((all.map s.srcKeys).flatten)
    (let (vs, fl) := mapLanes (all.map s.readSrc) f
     .ok (s.outLine L d vs fl))

/-- The values of elements. -/
def vals (f : Fmt) (efr : BitVec 12) (bs : List Nat) : List Ex := bs.map (Fmt.val f efr)

/-- An exact result with its flags, narrowed (R161). -/
def State.toElem (s : State) (f : Fmt) (sat : Bool) (r : Ex × Flags) : Nat × Flags :=
  let (b, fl) := arith f s.cur.efr r.1 s.cur.rmv sat
  (b, r.2 ||| fl)

/-! Arithmetic (R164). -/

/-- A two-operand arithmetic instruction of latency 4. -/
def State.varith (s : State) (f : Fmt) (sat : Bool) (d : Line) (a b : VSrc) (op : Ex → Ex → Ex × Flags) : Res :=
  s.vline 4 d [a, b] false (elemwise f s.cur.efr (fun bs =>
    s.toElem f sat (op (Fmt.val f s.cur.efr (bs.getD 0 0)) (Fmt.val f s.cur.efr (bs.getD 1 0)))))

/-- The fused instructions: the destination is the addend. -/
def State.vfused (s : State) (f : Fmt) (sat sub : Bool) (d : Line) (a b : VSrc) : Res :=
  s.vline 4 d [a, b] true (elemwise f s.cur.efr (fun bs =>
    s.toElem f sat (exFma s.cur.rmv (Fmt.val f s.cur.efr (bs.getD 2 0)) (Fmt.val f s.cur.efr (bs.getD 0 0))
      (Fmt.val f s.cur.efr (bs.getD 1 0)) sub)))

def execVadd (f : Fmt) (sat : Bool) (d : Line) (a b : VSrc) (s : State) : Out := finish s (s.varith f sat d a b (exAdd s.cur.rmv))
def execVsub (f : Fmt) (sat : Bool) (d : Line) (a b : VSrc) (s : State) : Out :=
  finish s (s.varith f sat d a b (fun x y => exAdd s.cur.rmv x y.neg))
def execVmul (f : Fmt) (sat : Bool) (d : Line) (a b : VSrc) (s : State) : Out := finish s (s.varith f sat d a b exMul)
def execVmac (f : Fmt) (sat : Bool) (d : Line) (a b : VSrc) (s : State) : Out := finish s (s.vfused f sat false d a b)
def execVmsb (f : Fmt) (sat : Bool) (d : Line) (a b : VSrc) (s : State) : Out := finish s (s.vfused f sat true d a b)

/-! Selecting, comparing, moving bits (R165-R168). -/

/-- The lesser or greater element (R165): floats with -0 below +0 and the canonical NaN, integers by value. -/
def minMaxElem (f : Fmt) (efr : BitVec 12) (max : Bool) (a b : Nat) : Nat × Flags :=
  match Fmt.ff f with
  | some F => minMaxBits F (F.nan.getD 0) max a b
  | none =>
    let c := exCmp (Fmt.val f efr a) (Fmt.val f efr b)
    let v := if max then (if c < 0 then b else a) else (if 0 < c then b else a)
    arith f efr (Fmt.val f efr v) .rne false

def State.vminmax (s : State) (max : Bool) (f : Fmt) (d : Line) (a b : VSrc) : Res :=
  s.vline 2 d [a, b] false (elemwise f s.cur.efr (fun bs => minMaxElem f s.cur.efr max (bs.getD 0 0) (bs.getD 1 0)))

def execVmin (f : Fmt) (d : Line) (a b : VSrc) (s : State) : Out := finish s (s.vminmax false f d a b)
def execVmax (f : Fmt) (d : Line) (a b : VSrc) (s : State) : Out := finish s (s.vminmax true f d a b)

/-- VABS and VNEG (R165). -/
def State.vsign (s : State) (f : Fmt) (sat : Bool) (d : Line) (a : VSrc) (op : Ex → Ex) : Res :=
  s.vline 2 d [a] false (elemwise f s.cur.efr (fun bs =>
    let x := Fmt.val f s.cur.efr (bs.getD 0 0)
    s.toElem f sat (op x, nvOf [x])))

def execVabs (f : Fmt) (sat : Bool) (d : Line) (a : VSrc) (s : State) : Out := finish s (s.vsign f sat d a Ex.abs)
def execVneg (f : Fmt) (sat : Bool) (d : Line) (a : VSrc) (s : State) : Out := finish s (s.vsign f sat d a Ex.neg)

/-- VCPY (R166). -/
def execVcpy (d : Line) (a : VSrc) (s : State) : Out := finish s (s.vline 2 d [a] false (fun cs => (cs.getD 0 0, 0)))

/-- VSEL (R166): the destination is the mask. -/
def execVsel (f : Fmt) (d : Line) (a b : VSrc) (s : State) : Out :=
  finish s (s.vline 2 d [a, b] true (elemwise f s.cur.efr (fun bs =>
    (if bs.getD 2 0 ≠ 0 then bs.getD 0 0 else bs.getD 1 0, 0))))

/-- A compare (R167): all ones where it holds. -/
def State.vcmp (s : State) (f : Fmt) (d : Line) (a b : VSrc) (c : FCond) : Res :=
  s.vline 2 d [a, b] false (elemwise f s.cur.efr (fun bs =>
    let x := Fmt.val f s.cur.efr (bs.getD 0 0)
    let y := Fmt.val f s.cur.efr (bs.getD 1 0)
    (if fcondHolds c x y then 2 ^ Fmt.width f s.cur.efr - 1 else 0, nvOf [x, y])))

def execVceq (f : Fmt) (d : Line) (a b : VSrc) (s : State) : Out := finish s (s.vcmp f d a b .eq)
def execVclt (f : Fmt) (d : Line) (a b : VSrc) (s : State) : Out := finish s (s.vcmp f d a b .lt)
def execVcle (f : Fmt) (d : Line) (a b : VSrc) (s : State) : Out := finish s (s.vcmp f d a b .le)
def execVcun (f : Fmt) (d : Line) (a b : VSrc) (s : State) : Out := finish s (s.vcmp f d a b .un)

/-- The bitwise cell instructions (R168). -/
def State.vbits (s : State) (d : Line) (a b : VSrc) (op : Word32 → Word32 → Word32) : Res :=
  s.vline 2 d [a, b] false (fun cs => (op (cs.getD 0 0) (cs.getD 1 0), 0))

def execVand (d : Line) (a b : VSrc) (s : State) : Out := finish s (s.vbits d a b (fun x y => x &&& y))
def execVor (d : Line) (a b : VSrc) (s : State) : Out := finish s (s.vbits d a b (fun x y => x ||| y))
def execVxor (d : Line) (a b : VSrc) (s : State) : Out := finish s (s.vbits d a b (fun x y => x ^^^ y))

/-- The shift count of a cell (R168). -/
def cellCount (c : Word32) : Nat := c.toNat % 64

/-- VSHL (R168): wraps or clamps. -/
def execVshl (sat : Bool) (d : Line) (a b : VSrc) (s : State) : Out :=
  finish s (s.vline 2 d [a, b] false (fun cs =>
    let (v, f) := arith .i32 s.cur.efr (exScale (.ofInt (cs.getD 0 0).toInt) (cellCount (cs.getD 1 0))) .rne sat
    (BitVec.ofNat 32 v, f)))

/-- A cell shifted right (R168). -/
def cellShr (arithmetic : Bool) (x : Word32) (n : Nat) : Word32 := if arithmetic then x.sshiftRight n else x >>> n

/-- VSHR (R168). -/
def execVshr (arithmetic : Bool) (d : Line) (a b : VSrc) (s : State) : Out :=
  finish s (s.vline 2 d [a, b] false (fun cs => (cellShr arithmetic (cs.getD 0 0) (cellCount (cs.getD 1 0)), 0)))

/-! Conversion and quantisation (R169-R172). -/

/-- Which elements take part (R169): widths and counts of source and destination, the part, and the conversion of element
bits; `none` stands for a position out of range in the widening case. -/
def convCell (ws ns wd nd p : Nat) (conv : Option Nat → Nat × Flags) (a d : Word32) : Word32 × Flags :=
  if ns ≤ nd then
    let r := (upto 0 ns).map (fun k => (p * ns + k, conv (some (elemW ws a k))))
    let r := r.filter (fun e => decide (e.1 < nd))
    let es := (upto 0 nd).map (fun i => match r.find? (fun e => e.1 == i) with | some e => e.2.1 | none => elemW wd d i)
    (packW wd es, r.foldl (fun acc e => acc ||| e.2.2) 0)
  else
    let r := (upto 0 nd).map (fun k => conv (if p * nd + k < ns then some (elemW ws a (p * nd + k)) else none))
    (packW wd (r.map (fun e => e.1)), r.foldl (fun acc e => acc ||| e.2) 0)

/-- The value of a source element, +0 out of range. -/
def srcVal (f : Fmt) (efr : BitVec 12) : Option Nat → Ex
  | some b => Fmt.val f efr b
  | none => .zero false

/-- VCVT (R170). -/
def execVcvt (dst src : Fmt) (sat : Bool) (part : BitVec 3) (d : Line) (a : VSrc) (s : State) : Out :=
  let e := s.cur.efr
  finish s (s.vline 4 d [a] true (fun cs =>
    convCell (Fmt.width src e) (Fmt.count src e) (Fmt.width dst e) (Fmt.count dst e) part.toNat
      (fun b =>
        let x := srcVal src e b
        let (v, f) := toFmt dst e x s.cur.rmv sat
        (v, f ||| nvOf [x])) (cs.getD 0 0) (cs.getD 1 0)))

/-- The scale of a quantising instruction (R126, R171). -/
def State.scale (s : State) (sc : Scale) (a : VSrc) : Ex :=
  match sc with
  | .tile _ c => fp32.value (s.cur.c.get c.toNat).toNat
  | .line _ z =>
    let j := match a with | .line l => s.lineNo l | .bc _ => 0
    fp32.value (s.cur.z.get (z.toNat * 64 + j)).toNat

/-- The part index of a scale field (R171). -/
def scalePart : Scale → Nat
  | .tile p _ => p.toNat
  | .line p _ => p.toNat

/-- VQNT (R171). -/
def execVqnt (f : Fmt) (sat : Bool) (sc : Scale) (d : Line) (a : VSrc) (s : State) : Out :=
  let e := s.cur.efr
  finish s (s.vline 4 d [a] true (fun cs =>
    convCell 32 1 (Fmt.width f e) (Fmt.count f e) (scalePart sc)
      (fun b =>
        let (q, f1) := exDiv (srcVal .f32 e b) (s.scale sc a)
        let (v, f2) := toFmt f e q s.cur.rmv sat
        (v, f1 ||| f2)) (cs.getD 0 0) (cs.getD 1 0)))

/-- The magnitudes of SPT values, in units of 2^-6, with their two codes (R125): a sum or a difference of two powers. -/
def sptMags : List Nat :=
  (upto 0 7).map (fun i => 2 ^ i) ++ ((upto 0 7).map (fun i => (upto 0 i).map (fun j => 2 ^ i + 2 ^ j))).flatten
    ++ ((upto 0 7).map (fun i => (upto 0 i).map (fun j => 2 ^ i - 2 ^ j))).flatten ++ [0, 128]

/-- The canonical byte of a magnitude in units of 2^-6, with a sign (R125). -/
def sptByte (neg : Bool) (m : Nat) : Nat :=
  let sg := if neg then 1 else 0
  if m = 0 then 0x77
  else if m = 128 then (if neg then 0x88 else 0x00)
  else
    match (upto 0 7).find? (fun i => 2 ^ i == m) with
    | some i => sg * 128 + (6 - i) * 16 + 7
    | none =>
      match ((upto 0 7).map (fun i => (upto 0 i).map (fun j => (i, j)))).flatten.find? (fun e => 2 ^ e.1 + 2 ^ e.2 == m) with
      | some (i, j) => sg * 128 + (6 - i) * 16 + sg * 8 + (6 - j)
      | none =>
        match ((upto 0 7).map (fun i => (upto 0 i).map (fun j => (i, j)))).flatten.find? (fun e => 2 ^ e.1 - 2 ^ e.2 == m) with
        | some (i, j) => sg * 128 + (6 - i) * 16 + (1 - sg) * 8 + (6 - j)
        | none => 0x77

/-- A finite value of at most 2.0 onto the SPT set (R172): the tie of RNE goes to the smaller magnitude. -/
def sptRound (m : RMode) (neg : Bool) (n d : Nat) (e : Int) : Nat × Flags :=
  let (a, b) := shiftQ n d (e + 6)
  let lo := (sptMags.filter (fun v => decide (v * b ≤ a))).foldl max 0
  let hi := (sptMags.filter (fun v => decide (a ≤ v * b))).foldl min 128
  let v := if lo = hi then lo else
    match m with
    | .rne => if (hi * b - a) < (a - lo * b) then hi else lo
    | .rz => lo
    | .ru => if neg then lo else hi
    | .rd => if neg then hi else lo
  (sptByte neg v, flIf (lo ≠ hi) flNX ||| flIf (lo ≠ hi && n ≠ 0 && decide (a < b)) flUF)

/-- The conversion of VQSPT (R172). -/
def sptConv (m : RMode) (sat : Bool) (y : Ex) : Nat × Flags :=
  match y with
  | .nan _ => (0x77, flNV)
  | .inf s => (sptByte s 128, if sat then 0 else flNV)
  | .fin s n d e =>
    let (a, b) := shiftQ n d (e + 6)
    if 128 * b < a then (sptByte s 128, flOF ||| flNX) else sptRound m s n d e

/-- VQSPT (R172). -/
def execVqspt (sat : Bool) (sc : Scale) (d : Line) (a : VSrc) (s : State) : Out :=
  finish s (s.vline 4 d [a] true (fun cs =>
    convCell 32 1 8 4 (scalePart sc)
      (fun b =>
        let (q, f1) := exDiv (srcVal .f32 0 b) (s.scale sc a)
        let (v, f2) := sptConv s.cur.rmv sat q
        (v, f1 ||| f2)) (cs.getD 0 0) (cs.getD 1 0)))

/-- VDQNT (R171): the part selects the source element. -/
def execVdqnt (f : Fmt) (sat : Bool) (sc : Scale) (d : Line) (a : VSrc) (s : State) : Out :=
  let e := s.cur.efr
  finish s (s.sound (s.srcKeys a)
    (let (vs, fl) := mapLanes [s.readSrc a, s.readLine d] (fun cs =>
      convCell (Fmt.width f e) (Fmt.count f e) 32 1 (scalePart sc)
        (fun b =>
          let (q, f1) := exMul (srcVal f e b) (s.scale sc a)
          let (v, f2) := narrow (.fp fp32) q s.cur.rmv sat
          (v, f1 ||| f2)) (cs.getD 0 0) (cs.getD 1 0))
     .ok (s.outLine 4 d vs fl)))

/-- VSCALB (R173): one exponent for every element of a lane. -/
def execVscalb (f : Fmt) (sat : Bool) (d : Line) (a b : VSrc) (s : State) : Out :=
  finish s (s.vline 4 d [a, b] false (fun cs =>
    elemwise f s.cur.efr (fun bs =>
      let x := Fmt.val f s.cur.efr (bs.getD 0 0)
      s.toElem f sat (exScale x (cs.getD 1 0).toInt, nvOf [x])) [cs.getD 0 0]))

/-! Transcendental functions (R174). -/

/-- The functions of R174. -/
inductive VFun where
  | rcp
  | rsq
  | sqrt
  | exp2
  | log2
  | tanh
  | erf
  deriving DecidableEq, Repr

/-- f(x) with its special values (R174), before the narrowing. -/
def VFun.apply (g : VFun) (x : Ex) : Ex × Flags :=
  match x with
  | .nan b => (.nan false, flIf b flNV)
  | .inf neg =>
    match g with
    | .rcp => (.zero neg, 0)
    | .rsq => if neg then (.nan false, flNV) else (.zero false, 0)
    | .sqrt => if neg then (.nan false, flNV) else (.inf false, 0)
    | .exp2 => if neg then (.zero false, 0) else (.inf false, 0)
    | .log2 => if neg then (.nan false, flNV) else (.inf false, 0)
    | .tanh => (.fin neg 1 1 0, 0)
    | .erf => (.fin neg 1 1 0, 0)
  | .fin neg n d e =>
    if n = 0 then
      match g with
      | .rcp => (.inf neg, flDZ)
      | .rsq => (.inf neg, flDZ)
      | .sqrt => (x, 0)
      | .exp2 => (.fin false 1 1 0, 0)
      | .log2 => (.inf true, flDZ)
      | .tanh => (x, 0)
      | .erf => (x, 0)
    else
      match g with
      | .rcp => exDiv (.fin false 1 1 0) x
      | .rsq => if neg then (.nan false, flNV) else (exRsqrt n e, 0)
      | .sqrt => if neg then (.nan false, flNV) else (exSqrt n e, 0)
      | .exp2 => (exExp2 neg n d e, 0)
      | .log2 => if neg then (.nan false, flNV) else (exLog2 n d e, 0)
      | .tanh => (exTanh neg n d e, 0)
      | .erf => (exErf neg n d e, 0)

def State.vfun (s : State) (g : VFun) (f : Fmt) (sat : Bool) (d : Line) (a : VSrc) : Res :=
  s.vline 8 d [a] false (elemwise f s.cur.efr (fun bs => s.toElem f sat (g.apply (Fmt.val f s.cur.efr (bs.getD 0 0)))))

def execVrcp (f : Fmt) (sat : Bool) (d : Line) (a : VSrc) (s : State) : Out := finish s (s.vfun .rcp f sat d a)
def execVrsq (f : Fmt) (sat : Bool) (d : Line) (a : VSrc) (s : State) : Out := finish s (s.vfun .rsq f sat d a)
def execVsqrt (f : Fmt) (sat : Bool) (d : Line) (a : VSrc) (s : State) : Out := finish s (s.vfun .sqrt f sat d a)
def execVexp2 (f : Fmt) (sat : Bool) (d : Line) (a : VSrc) (s : State) : Out := finish s (s.vfun .exp2 f sat d a)
def execVlog2 (f : Fmt) (sat : Bool) (d : Line) (a : VSrc) (s : State) : Out := finish s (s.vfun .log2 f sat d a)
def execVtanh (f : Fmt) (sat : Bool) (d : Line) (a : VSrc) (s : State) : Out := finish s (s.vfun .tanh f sat d a)
def execVerf (f : Fmt) (sat : Bool) (d : Line) (a : VSrc) (s : State) : Out := finish s (s.vfun .erf f sat d a)

/-! Reductions (R136, R175-R177, R182). -/

/-- A V-slot instruction that writes a scalar register from one source. -/
def State.vscalar (s : State) (L : Nat) (d : SReg) (a : VSrc) (f : List Word32 → Word64 × Flags) : Res :=
  s.sound (s.srcKeys a) (let (v, fl) := f (s.readSrc a); .ok (s.out L (.s d.toNat v) fl))

/-- One level of the pairwise tree: node i is node 2i + node 2i + 1 (R136). -/
def treeLevel (add : Nat → Nat → Nat × Flags) : List Nat → List Nat × Flags
  | a :: b :: r =>
    let (v, f) := add a b
    let (vs, g) := treeLevel add r
    (v :: vs, f ||| g)
  | l => (l, 0)

/-- The tree over its levels (R136). -/
def treeSum (add : Nat → Nat → Nat × Flags) : (levels : Nat) → List Nat → Nat × Flags
  | 0, l => (l.headD 0, 0)
  | n + 1, l =>
    let (l', f) := treeLevel add l
    let (v, g) := treeSum add n l'
    (v, f ||| g)

/-- A reduced cell in a register: I32 sign-extended, every other format zero-extended (R175, R176). -/
def redPlace (f : Fmt) (c : Word32) : Word64 := if f = .i32 then c.signExtend 64 else c.setWidth 64

/-- Reduces each element position of the lanes (R175, R176). -/
def reduceElems (f : Fmt) (efr : BitVec 12) (red : List Nat → Nat × Flags) (cells : List Word32) : Word64 × Flags :=
  let r := (upto 0 (Fmt.count f efr)).map (fun k => red (cells.map (fun c => elem f efr c k)))
  (redPlace f (pack f efr (r.map (fun e => e.1))), r.foldl (fun a e => a ||| e.2) 0)

/-- VREDADD (R175): the tree for floats, the exact total for I32. -/
def execVredadd (f : Fmt) (sat : Bool) (d : SReg) (a : VSrc) (s : State) : Out :=
  let e := s.cur.efr
  finish s (s.vscalar 6 d a (reduceElems f e (fun bs =>
    if f = .i32 then
      arith .i32 e (.ofInt (bs.foldl (fun t b => t + (BitVec.ofNat 32 b).toInt) 0)) .rne sat
    else
      treeSum (fun x y => s.toElem f sat (exAdd s.cur.rmv (Fmt.val f e x) (Fmt.val f e y))) 6 bs)))

/-- The greatest or least element of a position (R176). -/
def redExt (f : Fmt) (efr : BitVec 12) (max : Bool) (bs : List Nat) : Nat × Flags :=
  let xs := bs.map (Fmt.val f efr)
  match Fmt.ff f with
  | some F =>
    if xs.any Ex.isNan then (F.nan.getD 0, nvOf xs ||| flNF)
    else
      let v := bs.foldl (fun b x =>
        let c := exCmpZ (F.value x) (F.value b)
        if (if max then decide (0 < c) else decide (c < 0)) then x else b) (bs.headD 0)
      (v, nfOf (F.value v))
  | none =>
    let v := bs.foldl (fun b x =>
      let c := exCmp (Fmt.val f efr x) (Fmt.val f efr b)
      if (if max then decide (0 < c) else decide (c < 0)) then x else b) (bs.headD 0)
    arith f efr (Fmt.val f efr v) .rne false

def execVredmax (f : Fmt) (d : SReg) (a : VSrc) (s : State) : Out :=
  finish s (s.vscalar 6 d a (reduceElems f s.cur.efr (redExt f s.cur.efr true)))
def execVredmin (f : Fmt) (d : SReg) (a : VSrc) (s : State) : Out :=
  finish s (s.vscalar 6 d a (reduceElems f s.cur.efr (redExt f s.cur.efr false)))

/-- Whether value x beats value b in VARGMAX (R177): a NaN above every number, -0 below +0. -/
def argBeats (x b : Ex) : Bool := if x.isNan then !b.isNan else !b.isNan && decide (0 < exCmpZ x b)

/-- The winning lane and its bits (R177). -/
def argMax (f : Fmt) (cells : List Word32) : Word64 × Flags :=
  let v (c : Word32) : Ex := Fmt.val f 0 c.toNat
  let best := ((upto 0 64).zip cells).foldl (fun (b : Nat × Word32) e => if argBeats (v e.2) (v b.2) then e else b) (0, cells.headD 0)
  let bits : Word32 := if (v best.2).isNan then 0x7FC00000 else best.2
  (bits ++ BitVec.ofNat 32 best.1, nvOf (cells.map v) ||| nfOf (v best.2))

/-- VARGMAX (R177). -/
def execVargmax (f : Fmt) (d : SReg) (a : VSrc) (s : State) : Out := finish s (s.vscalar 6 d a (argMax f))

/-- VNFCHK (R182): how many elements are infinite or NaN. -/
def execVnfchk (f : Fmt) (d : SReg) (a : VSrc) (s : State) : Out :=
  finish s (s.vscalar 4 d a (fun cells =>
    let n := ((cells.map (elems f s.cur.efr)).flatten.filter (fun b => !(Fmt.val f s.cur.efr b).isFin)).length
    (BitVec.ofNat 64 n, flIf (n ≠ 0) flNF)))

/-! Permutes and lane numbers (R178). -/

/-- VROT (R178). -/
def execVrot (d : Line) (a : VSrc) (b : SReg) (s : State) : Out :=
  let n := fld (s.cur.readS b) 5 0
  finish s (s.sound (s.srcKeys a)
    (let l := s.readSrc a
     .ok (s.outLine 3 d ((upto 0 64).map (fun i => l.getD ((i + n) % 64) 0)) 0)))

/-- VSHUF (R178). -/
def execVshuf (d : Line) (a b : VSrc) (s : State) : Out :=
  finish s (s.sound (s.srcKeys a ++ s.srcKeys b)
    (let l := s.readSrc a
     .ok (s.outLine 3 d ((s.readSrc b).map (fun c => if c.getLsbD 31 then 0 else l.getD (c.toNat % 64) 0)) 0)))

/-- VIOTA (R178). -/
def execViota (d : Line) (a : SReg) (s : State) : Out :=
  finish s (.ok (s.outLine 2 d ((upto 0 64).map (fun i => s.cur.low32 a + BitVec.ofNat 32 i)) 0))

/-! Random numbers and dropout (R179-R181, R316, R317). -/

/-- Calico (R317). -/
def calico (key id i : Word64) : Word32 :=
  let z := key ^^^ (id * 0xD6E8FEB86659FD93) ^^^ (i * 0x9E3779B97F4A7C15)
  let z := (z ^^^ (z >>> 32)) * 0xD6E8FEB86659FD93
  let z := (z ^^^ (z >>> 32)) * 0xD6E8FEB86659FD93
  (z ^^^ (z >>> 32)).setWidth 32

/-- VRAND (R179): the stream register of the issuing rank. -/
def execVrand (d : Line) (a b : SReg) (s : State) : Out :=
  let h := fld (s.cur.readS b) 15 0
  let j (k : Nat) : Word64 := (s.rank s.cur.slot).calico.get (3 * h + k)
  finish s (if 64 ≤ h || !(j 2).getLsbD 63 then .trap (s.illop 0x13)
    else .ok (s.outLine 6 d ((upto 0 64).map (fun l =>
      calico (j 0) ((j 2) &&& 0xFFFFFFFF) (j 1 + s.cur.readS a + BitVec.ofNat 64 l))) 0))

/-- VGUMB (R180). -/
def execVgumb (sat : Bool) (d : Line) (a : VSrc) (s : State) : Out :=
  finish s (s.vline 8 d [a] false (fun cs =>
    let (v, f) := narrow (.fp fp32) (exGumbel ((cs.getD 0 0).toNat / 256)) s.cur.rmv sat
    (BitVec.ofNat 32 v, f)))

/-- A kept element of VDROP (R181). -/
def dropKeep (f : Fmt) (efr : BitVec 12) (b : Nat) : Nat × Flags :=
  match Fmt.ff f with
  | none => (b, 0)
  | some F =>
    let x := F.value b
    (if x.isNan then F.nan.getD b else b, nvOf [x] ||| nfOf (Fmt.val f efr b))

/-- VDROP (R181): the destination holds the random bits. -/
def execVdrop (f : Fmt) (d : Line) (a : VSrc) (c : BitVec 4) (s : State) : Out :=
  let t := (s.cur.c.get c.toNat).toNat
  let lim := if f = .f32 || f = .i32 then t else t / 65536
  finish s (s.vline 6 d [a] true (elemwise f s.cur.efr (fun bs =>
    if bs.getD 1 0 < lim then dropKeep f s.cur.efr (bs.getD 0 0) else (0, 0))))

end Sys2Proof.Machine
end

