-- ==== Sys2Proof/Machine/Rev.lean ====
section
/-! DEFINITION. The reversible class and the remainder stack (R188-R208). -/

namespace Sys2Proof.Machine

/-! Records (R190, R191). -/

/-- One bit of the CRC-16 of R191. -/
def crcBit (c : BitVec 16) (b : Bool) : BitVec 16 := if c.msb != b then (c <<< (1 : Nat)) ^^^ 0x1021 else c <<< (1 : Nat)

/-- One byte, from bit 7 down. -/
def crcByte (c : BitVec 16) (v : Byte) : BitVec 16 := ([7, 6, 5, 4, 3, 2, 1, 0].map v.getLsbD).foldl crcBit c

/-- The CRC-16 of the 256-byte image of a line (R191). -/
def lineCrc (cells : List Word32) : BitVec 16 := ((cells.map (fun c => leBytes c.toNat 4)).flatten).foldl crcByte 0xFFFF

/-- The low tail word T1 (R190). -/
def tailWord (mtag : Word32) (part : Nat) (mark : Bool) (fmt pair : Nat) (crc : BitVec 16) : Word64 :=
  BitVec.ofNat 64 (mtag.toNat * 2 ^ 32 + part * 2 ^ 28 + (if mark then 2 ^ 27 else 0) + fmt * 2 ^ 24 + pair * 2 ^ 16 + crc.toNat)

/-- The 272 bytes of a record (R190). -/
def RRec.bytes (r : RRec) : List Byte :=
  ((upto 0 64).map (fun i => leBytes (r.cells.getD i 0).toNat 4)).flatten ++ leBytes r.t0.toNat 8 ++ leBytes r.t1.toNat 8

/-- A record from its bytes. -/
def RRec.of (l : List Byte) : RRec :=
  { cells := words32 (l.take 256), t0 := BitVec.ofNat 64 (leNat ((l.drop 256).take 8)), t1 := BitVec.ofNat 64 (leNat ((l.drop 264).take 8)) }

def RRec.mark (r : RRec) : Bool := r.t1.getLsbD 27
def RRec.mtag (r : RRec) : Nat := fld r.t1 63 32

/-! The stack (R198-R202). -/

/-- The depth: the records of the window and those in memory (R198). -/
def State.depth (s : State) : Nat :=
  let r := s.rank s.cur.slot
  s.cur.win.length + (r.stkptr.toNat - r.stkbase.toNat) / 272

/-- RVSTACK and its address (R196). -/
def State.rvstack (s : State) (sub : Nat) : TrapRec :=
  let b := (s.rank s.cur.slot).stkbase
  let a := if sub = 0x08 then b + BitVec.ofNat 64 (272 * s.depth) else if sub = 0x09 then b else 0
  { cause := 0x0C, addr := a, info := BitVec.ofNat 64 sub }

/-- A stack instruction first takes the hold of its rank's stack, or waits for it (R202). At a push, pop or drop (`moves`) an agent that a fault stopped
evaluates its conditions again outside handler mode (R201). -/
def State.withHold (s : State) (f : State → Res) (moves : Bool := true) : Res :=
  let r := s.rank s.cur.slot
  let other := match s.stream (if s.curKey % 2 = 0 then s.curKey + 1 else s.curKey - 1) with | some x => x.winHeld | none => false
  if s.cur.winHeld then
    f { s with cur := { s.cur with winAgent := if s.cur.winAgent = 3 && moves && !s.cur.handler then 0 else s.cur.winAgent } }
  else if r.stkHold.isSome || other then .stall true (some (s.rvstack 0x0A))
  else f s.takeHold

/-- The records that a fill of a rank's stack brings (R200). -/
def Rank.fillCount (r : Rank) : Nat := min 16 ((r.stkptr.toNat - r.stkbase.toNat) / 272)

/-- Pushes a record after the checks of R199 and R200. While a fill is in progress its records have their place in the window. -/
def State.push (s : State) (r : RRec) (f : State → Res) : Res :=
  s.withHold (fun s =>
    let k := s.rank s.cur.slot
    if k.stklim.toNat < k.stkbase.toNat + 272 * (s.depth + 1) then .trap (s.rvstack 0x08)
    else if 480 ≤ s.cur.win.length + (if s.cur.winAgent = 2 then k.fillCount else 0) then .stall true none .hold
    else f { s with cur := { s.cur with win := r :: s.cur.win, flushing := false } })

/-! Forward instructions (R192-R194). -/

/-- What a forward element gives: result bits, residual bits, tag, flags. -/
structure FwdElem where
  y : Nat
  res : Nat
  tag : Bool
  fl : Flags

/-- A zero residual carries the sign of the input element (R194). -/
def resBits (F : FF) (a : Nat) (r : Ex) : Nat × Bool :=
  match r with
  | .fin _ 0 _ _ => ((a / 2 ^ (F.width - 1)) % 2 * 2 ^ (F.width - 1), true)
  | _ =>
    let (b, fl) := narrow (.fp F) r .rne false
    (b, fl == 0)

/-- A float whose residual is exact value minus result (RADD, RSUB, RMUL of R193). -/
def fwdFloat (F : FF) (m : RMode) (sat : Bool) (a : Nat) (r : Ex × Flags) (tag0 : Bool) : FwdElem :=
  let (y, f) := narrow (.fp F) r.1 m sat
  let fl := r.2 ||| f
  let vy := F.value y
  let bad := tag0 || !(F.value a).isFin || !vy.isFin || (fl &&& flOF) != 0
  if bad then ⟨y, 0, true, fl⟩
  else
    let (res, ok) := resBits F a (exAdd .rne r.1 vy.neg).1
    ⟨y, res, !ok, fl⟩

/-- RADD and RSUB of an element. -/
def fwdAdd (f : Fmt) (m : RMode) (sat sub : Bool) (a b : Nat) : FwdElem :=
  match Fmt.ff f with
  | some F =>
    let y := F.value b
    fwdFloat F m sat a (exAdd m (F.value a) (if sub then y.neg else y)) (!y.isFin)
  | none =>
    let y : Ex := .ofInt (BitVec.ofNat 32 b).toInt
    let (v, fl) := arith .i32 0 (exAdd .rne (.ofInt (BitVec.ofNat 32 a).toInt) (if sub then y.neg else y)).1 .rne sat
    ⟨v, 0, fl != 0, fl⟩

/-- RMUL of an element. -/
def fwdMul (f : Fmt) (m : RMode) (sat : Bool) (a b : Nat) : FwdElem :=
  let F := (Fmt.ff f).getD fp32
  let y := F.value b
  fwdFloat F m sat a (exMul (F.value a) y) (!y.isFin || y.isZero)

/-- RRELU of an element. -/
def fwdRelu (f : Fmt) (a : Nat) : FwdElem :=
  let F := (Fmt.ff f).getD fp32
  match F.value a with
  | .nan sg => ⟨F.nan.getD 0, 0, true, flIf sg flNV ||| flNF⟩
  | .inf neg => ⟨if neg then 0 else a, 0, true, flIf (!neg) flNF⟩
  | .fin neg _ _ _ => ⟨if neg then 0 else a, if neg then a else 0, false, 0⟩

/-- RSCALB of an element, by the lane's exponent. Its residual is zero: R193's table writes +0 and R194 a zero with the sign of the input element; the model
follows R194, which speaks of every zero residual (log 61). -/
def fwdScalb (f : Fmt) (m : RMode) (sat : Bool) (n : Int) (a : Nat) : FwdElem :=
  let F := (Fmt.ff f).getD fp32
  let x := F.value a
  let (y, fl) := narrow (.fp F) (exScale x n) m sat
  let fl := fl ||| nvOf [x]
  ⟨y, a / 2 ^ (F.width - 1) * 2 ^ (F.width - 1), !x.isFin || !(F.value y).isFin || (fl &&& (flNX ||| flOF)) != 0, fl⟩

/-- RSHR of a cell. -/
def fwdShr (ar : Bool) (a b : Word32) : FwdElem :=
  let n := cellCount b
  ⟨(cellShr ar a n).toNat, if n = 0 then 0 else if 32 ≤ n then a.toNat else a.toNat % 2 ^ n, false, 0⟩

/-- A lane of a forward instruction: the result cell, the record's cell, its tag and the flags (R193). -/
def fwdLane (f : Fmt) (a : Word32) (es : List FwdElem) : Word32 × Word32 × Bool × Flags :=
  let tag := es.any (fun e => e.tag)
  (pack f 0 (es.map (fun e => e.y)), if tag then a else pack f 0 (es.map (fun e => e.res)), tag, es.foldl (fun t e => t ||| e.fl) 0)

/-- RNARW of a lane: part p of the destination cell (R193). -/
def fwdNarw (f : Fmt) (m : RMode) (sat : Bool) (p : Nat) (a d : Word32) : Word32 × Word32 × Bool × Flags :=
  let F := (Fmt.ff f).getD bf16
  let x := fp32.value a.toNat
  let (y, fl) := narrow (.fp F) x m sat
  let fl := fl ||| nvOf [x]
  let my := y % 2 ^ 15
  let sub := my ≠ 0 && my < 2 ^ F.mb
  let tag := !x.isFin || (fl &&& flOF) != 0 || sub || (my = 0 && !x.isZero)
  let yz := (narrow (.fp F) x .rz false).1 % 2 ^ 15
  let wide := (narrow (.fp fp32) (F.value yz) .rne false).1
  let r := (if yz < my then 2 ^ 31 else 0) + (a.toNat % 2 ^ 31 - wide) % 2 ^ 24
  let es := (upto 0 2).map (fun k => if k = p then y else elem f 0 d k)
  (pack f 0 es, if tag then a else BitVec.ofNat 32 r, tag, fl)

/-- A forward instruction: the result line and one record (R192). -/
def State.forward (s : State) (d : Line) (keys : List Nat) (f : Fmt) (pair part : Nat) (ls : List (Word32 × Word32 × Bool × Flags)) : Res :=
  s.sound keys
    (let ys := ls.map (fun e => e.1)
     let tags := ((upto 0 64).zip ls).foldl (fun t e => if e.2.2.2.1 then t + 2 ^ e.1 else t) 0
     let fl := ls.foldl (fun t e => t ||| e.2.2.2) 0 ||| flIf (tags ≠ 0) flRL
     let r : RRec := { cells := ls.map (fun e => e.2.1), t0 := BitVec.ofNat 64 tags,
                       t1 := tailWord 0 part false f.bits.toNat pair (lineCrc ys) }
     s.push r (fun s => .ok (s.outLine 4 d ys fl)))

/-- The lanes of a two-source forward instruction. -/
def fwdLanes (f : Fmt) (a b : List Word32) (g : Nat → Nat → FwdElem) : List (Word32 × Word32 × Bool × Flags) :=
  (a.zip b).map (fun e => fwdLane f e.1 ((upto 0 (Fmt.count f 0)).map (fun k => g (elem f 0 e.1 k) (elem f 0 e.2 k))))

def execRadd (f : Fmt) (sat : Bool) (d : Line) (a b : VSrc) (s : State) : Out :=
  finish s (s.forward d (s.srcKeys a ++ s.srcKeys b) f 0x2C 0 (fwdLanes f (s.readSrc a) (s.readSrc b) (fwdAdd f s.cur.rmv sat false)))
def execRsub (f : Fmt) (sat : Bool) (d : Line) (a b : VSrc) (s : State) : Out :=
  finish s (s.forward d (s.srcKeys a ++ s.srcKeys b) f 0x2D 0 (fwdLanes f (s.readSrc a) (s.readSrc b) (fwdAdd f s.cur.rmv sat true)))
def execRmul (f : Fmt) (sat : Bool) (d : Line) (a b : VSrc) (s : State) : Out :=
  finish s (s.forward d (s.srcKeys a ++ s.srcKeys b) f 0x2E 0 (fwdLanes f (s.readSrc a) (s.readSrc b) (fwdMul f s.cur.rmv sat)))
def execRnarw (f : Fmt) (sat : Bool) (part : BitVec 1) (d : Line) (a : VSrc) (s : State) : Out :=
  finish s (s.forward d (s.srcKeys a ++ s.lineKeys d) f 0x2F part.toNat
    (((s.readSrc a).zip (s.readLine d)).map (fun e => fwdNarw f s.cur.rmv sat part.toNat e.1 e.2)))
def execRrelu (f : Fmt) (d : Line) (a : VSrc) (s : State) : Out :=
  let l := s.readSrc a
  finish s (s.forward d (s.srcKeys a) f 0x30 0 (fwdLanes f l l (fun x _ => fwdRelu f x)))
def execRscalb (f : Fmt) (sat : Bool) (d : Line) (a b : VSrc) (s : State) : Out :=
  finish s (s.forward d (s.srcKeys a ++ s.srcKeys b) f 0x31 0
    (((s.readSrc a).zip (s.readSrc b)).map (fun e =>
      fwdLane f e.1 ((elems f 0 e.1).map (fwdScalb f s.cur.rmv sat e.2.toInt)))))
def execRshr (ar : Bool) (d : Line) (a b : VSrc) (s : State) : Out :=
  finish s (s.forward d (s.srcKeys a ++ s.srcKeys b) .i32 0x32 0
    (((s.readSrc a).zip (s.readSrc b)).map (fun e => fwdLane .i32 e.1 [fwdShr ar e.1 e.2])))

/-! Undo instructions (R195-R197). -/

/-- The trap of a failed check on the top record (R196). In the V1 slot, beside a V0 that pushes or pops, its depth is the one after V0 (log 61). -/
def State.rvBad (s : State) (cause : Byte) (sub : Nat) (r : RRec) (want fmt : Nat) (crc : BitVec 16) : TrapRec :=
  let info := (if sub = 4 || sub = 5 then fld r.t1 15 0 * 2 ^ 48 else 0) + (if sub = 4 then crc.toNat * 2 ^ 32 else 0)
    + fld r.t1 21 16 * 2 ^ 26 + want * 2 ^ 20 + fld r.t1 26 24 * 2 ^ 17 + fmt * 2 ^ 14 + sub
  { cause := cause, addr := (s.rank s.cur.slot).stkbase + BitVec.ofNat 64 (272 * (s.depth - 1)), info := BitVec.ofNat 64 info }

/-- The checks of R195 on the top record, in their order. -/
def State.undoCheck (s : State) (r : RRec) (want fmt part : Nat) (narw : Bool) (crc : BitVec 16) : Option TrapRec :=
  if r.mark then some (s.rvBad 0x0A 0x03 r want fmt crc)
  else if fld r.t1 21 16 != want then some (s.rvBad 0x0A 0x01 r want fmt crc)
  else if fld r.t1 26 24 != fmt || (narw && fld r.t1 28 28 != part) then some (s.rvBad 0x0A 0x02 r want fmt crc)
  else if fld r.t1 31 29 != 0 || fld r.t1 23 22 != 0 then some (s.rvBad 0x0B 0x05 r want fmt crc)
  else if crc.toNat != fld r.t1 15 0 then some (s.rvBad 0x0B 0x04 r want fmt crc)
  else none

/-- An undo instruction: pops the top record, checks it, and writes the line that `lane` computes for each tag-0 lane from
its y cell, its record cell and its lane number (R195, R197). -/
def State.undo (s : State) (d : Line) (y : VSrc) (keys : List Nat) (f : Fmt) (want part : Nat) (narw : Bool)
    (lane : Nat → Word32 → Word32 → Word32 × Flags) : Res :=
  s.sound keys
    (s.withHold (fun s =>
      if s.depth = 0 then .trap (s.rvstack 0x09)
      else
        match s.cur.win with
        | [] => .stall true none .hold
        | r :: rest =>
          let ys := s.readSrc y
          match s.undoCheck r want f.bits.toNat part narw (lineCrc ys) with
          | some t => .trap t
          | none =>
            let out := (upto 0 64).map (fun i =>
              let c := r.cells.getD i 0
              if r.t0.getLsbD i then (c, (0 : Flags)) else lane i (ys.getD i 0) c)
            let s := { s with cur := { s.cur with win := rest, flushing := false } }
            .ok (s.outLine 6 d (out.map (fun e => e.1)) (out.foldl (fun t e => t ||| e.2) 0))))

/-- An exact undo value: an exact zero takes the sign of the residual (R194). -/
def undoNarrow (F : FF) (m : RMode) (res : Nat) (x : Ex × Flags) : Nat × Flags :=
  let v := if x.1.isZero then Ex.zero (res / 2 ^ (F.width - 1) % 2 == 1) else x.1
  let (b, f) := narrow (.fp F) v m false
  (b, x.2 ||| f)

/-- UADD and USUB of an element: y + res − b or y + res + b (R197). -/
def undoAdd (f : Fmt) (m : RMode) (sub : Bool) (y res b : Nat) : Nat × Flags :=
  match Fmt.ff f with
  | some F =>
    let (t, f1) := exAdd m (F.value y) (F.value res)
    let (x, f2) := exAdd m t (if sub then F.value b else (F.value b).neg)
    undoNarrow F m res (x, f1 ||| f2)
  | none => (((BitVec.ofNat 32 y) + (if sub then BitVec.ofNat 32 b else -(BitVec.ofNat 32 b))).toNat, 0)

/-- UMUL of an element: (y + res) / b (R197). -/
def undoMul (f : Fmt) (m : RMode) (y res b : Nat) : Nat × Flags :=
  let F := (Fmt.ff f).getD fp32
  let (t, f1) := exAdd m (F.value y) (F.value res)
  let (x, f2) := exDiv t (F.value b)
  undoNarrow F m res (x, f1 ||| f2)

/-- A lane of an element-wise undo. -/
def undoLane (f : Fmt) (g : Nat → Nat → Nat → Nat × Flags) (y c b : Word32) : Word32 × Flags :=
  let r := (upto 0 (Fmt.count f 0)).map (fun k => g (elem f 0 y k) (elem f 0 c k) (elem f 0 b k))
  (pack f 0 (r.map (fun e => e.1)), r.foldl (fun t e => t ||| e.2) 0)

/-- UNARW of a lane (R197). -/
def undoNarw (f : Fmt) (m : RMode) (p : Nat) (y c : Word32) : Word32 × Flags :=
  let F := (Fmt.ff f).getD bf16
  let e := elem f 0 y p
  let v := F.value e
  if v.isNan then (BitVec.ofNat 32 (fp32.nan.getD 0), nvOf [v] ||| flNF)
  else
  let yz := (e % 2 ^ 15 + 2 ^ 15 - c.toNat / 2 ^ 31) % 2 ^ 15
  let wide := (narrow (.fp fp32) (F.value yz) .rne false).1
  let x := e / 2 ^ 15 * 2 ^ 31 + (wide + c.toNat % 2 ^ 24) % 2 ^ 31
  let (b, fl) := narrow (.fp fp32) (fp32.value x) m false
  (BitVec.ofNat 32 b, fl)

/-- URELU of an element (R197). -/
def undoRelu (f : Fmt) (m : RMode) (y res : Nat) : Nat × Flags :=
  let F := (Fmt.ff f).getD fp32
  let xs := if res ≠ 0 then [F.value y, F.value res] else [F.value y]
  let x := if xs.any Ex.isNan then .nan false else F.value (if res ≠ 0 then res else y)
  let (b, fl) := narrow (.fp F) x m false
  (b, fl ||| nvOf xs)

/-- USCALB of an element (R197). -/
def undoScalb (f : Fmt) (m : RMode) (n : Int) (y res : Nat) : Nat × Flags :=
  let F := (Fmt.ff f).getD fp32
  let x := F.value y
  undoNarrow F m res (exScale x (-n), nvOf [x])

/-- USHR of a cell (R197). -/
def undoShr (y c b : Word32) : Word32 := let n := cellCount b; if 32 ≤ n then c else (y <<< n) ||| c

def execUadd (f : Fmt) (d : Line) (y b : VSrc) (s : State) : Out :=
  let bs := s.readSrc b
  finish s (s.undo d y (s.srcKeys y ++ s.srcKeys b) f 0x2C 0 false (fun i v c => undoLane f (undoAdd f s.cur.rmv false) v c (bs.getD i 0)))
def execUsub (f : Fmt) (d : Line) (y b : VSrc) (s : State) : Out :=
  let bs := s.readSrc b
  finish s (s.undo d y (s.srcKeys y ++ s.srcKeys b) f 0x2D 0 false (fun i v c => undoLane f (undoAdd f s.cur.rmv true) v c (bs.getD i 0)))
def execUmul (f : Fmt) (d : Line) (y b : VSrc) (s : State) : Out :=
  let bs := s.readSrc b
  finish s (s.undo d y (s.srcKeys y ++ s.srcKeys b) f 0x2E 0 false (fun i v c => undoLane f (undoMul f s.cur.rmv) v c (bs.getD i 0)))
def execUnarw (f : Fmt) (part : BitVec 1) (d : Line) (y : VSrc) (s : State) : Out :=
  finish s (s.undo d y (s.srcKeys y) f 0x2F part.toNat true (fun _ v c => undoNarw f s.cur.rmv part.toNat v c))
def execUrelu (f : Fmt) (d : Line) (y : VSrc) (s : State) : Out :=
  finish s (s.undo d y (s.srcKeys y) f 0x30 0 false (fun _ v c => undoLane f (fun e r _ => undoRelu f s.cur.rmv e r) v c 0))
def execUscalb (f : Fmt) (d : Line) (y b : VSrc) (s : State) : Out :=
  let bs := s.readSrc b
  finish s (s.undo d y (s.srcKeys y ++ s.srcKeys b) f 0x31 0 false (fun i v c =>
    undoLane f (fun e r _ => undoScalb f s.cur.rmv (bs.getD i 0).toInt e r) v c 0))
def execUshr (d : Line) (y b : VSrc) (s : State) : Out :=
  let bs := s.readSrc b
  finish s (s.undo d y (s.srcKeys y ++ s.srcKeys b) .i32 0x32 0 false (fun i v c => (undoShr v c (bs.getD i 0), 0)))

/-! Marking, dropping and waiting (R204-R206). -/

/-- RSMARK (R204). -/
def execRsmark (a : SOp) (s : State) : Out :=
  let r : RRec := { cells := List.replicate 64 0, t0 := 0, t1 := tailWord ((s.cur.readOp a).setWidth 32) 0 true 0 0 0 }
  finish s (s.unheld (s.push r (fun s => .ok s)))

/-- Removes n records from the top: window records first, then those in memory by lowering STKPTR (R205). -/
def State.dropRecs (s : State) (n : Nat) : State :=
  let w := s.cur.win.length
  let r := s.rank s.cur.slot
  let s := { s with cur := { s.cur with win := s.cur.win.drop n, flushing := false } }
  if w < n then s.putRank s.cur.slot { r with stkptr := r.stkptr - BitVec.ofNat 64 (272 * (n - w)) } else s

/-- RSDROP (R205). -/
def execRsdrop (a : SOp) (s : State) : Out :=
  let n := fld (s.cur.readOp a) 15 0
  finish s (s.unheld (s.withHold (fun s => if s.depth < n then .trap (s.rvstack 0x09) else .ok (s.dropRecs n))))

/-- Whether an operation is a trap on its way to a stream (R366). -/
def Op.isTrap (key : Nat) (o : Op) : Bool := o.key == key && o.kind == .trap

/-- Adds an asynchronous trap to a stream, after those that are on their way to it, which were detected before (R321). -/
def State.asyncTrap (s : State) (key : Nat) (t : TrapRec) : State :=
  let early := (s.ops.filter (Op.isTrap key)).filterMap (fun o => o.trap)
  State.modStream { s with ops := s.ops.filter (fun o => !o.isTrap key) } key (fun x => { x with async := x.async ++ early ++ [t] })

/-- The first trap on its way to a stream becomes pending there (R321, R366). -/
def State.trapArrives (s : State) (key : Nat) : State :=
  match s.ops.find? (Op.isTrap key) with
  | none => s
  | some o => State.modStream { s with ops := s.ops.filter (fun p => p.id != o.id) } key (fun x => { x with async := x.async ++ o.trap.toList })

/-- The bytes of an engine read of rank memory, its fault, or nothing while it waits (R72, R255). -/
def State.engineRead (s : State) (x : Stream) (key va n : Nat) : Except (Option TrapRec) (List Byte × State) :=
  match s.pieces x (key / 2) va n .eread with
  | .error t => .error (some t)
  | .ok (ps, s) => if s.piecesWait x.ctx key ps then .error none else .ok ((s.latDone (s.streamLines ps)).readPieces s.mem.spad key x.slot x.ctx ps)

/-- RSDROP.MARK's removal (R205): records one at a time through the first marker; the tails of records in memory are read as
fill traffic. Answers count, marker found, its tag, or nothing while a read waits. A fault there stops the drop and the agent, and its trap is
raised (R201); that the instruction then answers the records removed so far, with no marker, is the model's choice (log 61). -/
def State.dropMark (s : State) : (fuel : Nat) → (count : Nat) → Option (State × Nat × Bool × Nat)
  | 0, n => some (s, n, false, 0)
  | k + 1, n =>
    match s.cur.win with
    | r :: rest =>
      let s := { s with cur := { s.cur with win := rest } }
      if r.mark then some (s, n + 1, true, r.mtag) else s.dropMark k (n + 1)
    | [] =>
      let rk := s.rank s.cur.slot
      if rk.stkptr.toNat < rk.stkbase.toNat + 272 then some (s, n, false, 0)
      else
        match s.engineRead s.cur s.curKey (rk.stkptr.toNat - 8) 8 with
        | .error none => none
        | .error (some t) => some ((({ s with cur := { s.cur with winAgent := 3 } }).asyncTrap s.curKey t), n, false, 0)
        | .ok (l, s) =>
          let t1 : Word64 := BitVec.ofNat 64 (leNat l)
          let s := s.putRank s.cur.slot { rk with stkptr := rk.stkptr - 272 }
          if t1.getLsbD 27 then some (s, n + 1, true, fld t1 63 32) else s.dropMark k (n + 1)

/-- RSDROP.MARK (R205). -/
def execRsdropMark (d : SReg) (s : State) : Out :=
  finish s (s.unheld <| s.withHold (fun s =>
    match s.dropMark s.depth 0 with
    | none => .stall true none .hold
    | some (s, n, found, tag) =>
      .ok (s.sb [.s d.toNat (BitVec.ofNat 64 ((if found then 2 ^ 63 else 0) + n % 2 ^ 31 * 2 ^ 32 + tag))])))

/-- The join of every spill and fill of the stream's window, with an acquire at level 0 (R203). -/
def State.joinWindow (s : State) : State := (s.joinMem s.curKey).resolveAll.acq s.curKey 0

/-- RSSYNC (R206): waits for the window's spill or fill, and joins them (R203). -/
def execRssync (s : State) : Out :=
  finish s (s.unheld <| s.withHold (fun s => if s.cur.winAgent = 1 || s.cur.winAgent = 2 then .stall true none .hold else .ok s.joinWindow) (moves := false))

/-- Releases the hold of the focused stream (R202, R206). -/
def State.releaseHold (s : State) : State :=
  let r := s.rank s.cur.slot
  let s := s.putRank s.cur.slot { r with stkHold := none }
  { s with cur := { s.cur with winHeld := false, win := [], flushing := false, winAgent := 0 } }

/-! The window's agent (R200, R201, R203). -/

/-- Whether the condition of a spill holds. -/
def Stream.wantSpill (x : Stream) : Bool := x.winHeld && !x.stopped && x.winAgent == 0 && (decide (448 < x.win.length) || (x.flushing && !x.win.isEmpty))

/-- Whether the condition of a fill holds. While a flush moves records out nothing is filled (R206). -/
def Stream.wantFill (x : Stream) (r : Rank) : Bool :=
  x.winHeld && !x.stopped && x.winAgent == 0 && !x.flushing && x.ending == 0 && decide (x.win.length < 32) && decide (r.stkbase.toNat < r.stkptr.toNat)

/-- A spill or fill forks from its stream when the agent starts it: the stream's earlier loads read first (R203, R268). -/
def State.forkWindow (s : State) (key agent : Nat) : State :=
  let s := (s.focus key).resolveAll
  { s with cur := { s.cur with winAgent := agent } }

/-- SPILL (R200): a spill of the window starts. -/
def execSpill (key : Nat) (s : State) : Out :=
  .next (match s.stream key with
    | some x => if x.wantSpill then s.forkWindow key 1 else s
    | none => s)

/-- FILL (R200): a fill of the window starts. -/
def execFill (key : Nat) (s : State) : Out :=
  .next (match s.stream key with
    | some x => if x.wantFill (s.rank x.slot) then s.forkWindow key 2 else s
    | none => s)

/-- The range of the next piece of a spill or fill. -/
def State.windowRange (s : State) (x : Stream) (spill : Bool) : Nat × Nat × AKind :=
  let r := s.rank x.slot
  if spill then (r.stkptr.toNat, 272 * min 16 x.win.length, .ewrite) else (r.stkptr.toNat - 272 * r.fillCount, 272 * r.fillCount, .eread)

/-- Whether that piece waits: for a version bump, or a bank in refresh (R72, R255). -/
def State.windowWaits (s : State) (key : Nat) (x : Stream) (spill : Bool) : Bool :=
  let r := s.windowRange x spill
  match s.pieces x (key / 2) r.1 r.2.1 r.2.2 with
  | .ok (ps, s) => s.piecesWait x.ctx key ps
  | .error _ => false

/-- The bytes of a spilled piece: the bottom n records, the lowest first. -/
def spillBytes (win : List RRec) (n : Nat) : List Byte := ((win.drop (win.length - n)).reverse.map RRec.bytes).flatten

/-- A spill's piece is written and STKPTR moves, or the agent stops at a fault (R200, R201). Its writes carry no heat key: they are the rank's own engine
traffic (R203), and R273 says of the tasks' stores alone that they are tagged (log 61). -/
def State.spillDone (s : State) (key : Nat) (x : Stream) : State :=
  let r := s.rank x.slot
  let n := min 16 x.win.length
  let e := { x with det := false }
  match s.pieces e (key / 2) r.stkptr.toNat (272 * n) .ewrite with
  | .error t => (s.putStream key { x with winAgent := 3 }).asyncTrap key t
  | .ok (ps, s) =>
    let s := (s.latDone (s.streamLines ps)).enginePuts e key false ps (spillBytes x.win n)
    let r := s.rank x.slot
    let s := s.putRank x.slot { r with stkptr := r.stkptr + BitVec.ofNat 64 (272 * n) }
    s.modStream key (fun x => { x with win := x.win.take (x.win.length - n), winAgent := 0 })

/-- RSSYNC.FLUSH (R206): the window is spilled, then the hold released. It looks at the window as it stood before its bundle; records that its own
bundle pushes are spilled as it issues; where that spill faults, the instruction completes and keeps the hold (log 61). -/
def execRssyncFlush (s : State) : Out :=
  finish s (s.unheld <| s.withHold (fun s =>
    if s.cur.winAgent = 1 || s.cur.winAgent = 2 || !s.before.cur.win.isEmpty then .stall true none .flush
    else if s.cur.win.isEmpty then .ok s.joinWindow.releaseHold
    else if s.windowWaits s.curKey s.cur true then .stall true none .flush
    else
      let s := s.spillDone s.curKey s.cur
      .ok (if s.cur.winAgent = 3 then s else s.joinWindow.releaseHold)) (moves := false))

/-- Records from the bytes of a filled piece, the lowest first. -/
def fillRecs (l : List Byte) : (n : Nat) → List RRec
  | 0 => []
  | n + 1 => RRec.of (l.take 272) :: fillRecs (l.drop 272) n

/-- A fill's records are read into the bottom of the window, or the agent stops at a fault (R200, R201). -/
def State.fillDone (s : State) (key : Nat) (x : Stream) : State :=
  let r := s.rank x.slot
  let n := r.fillCount
  match s.engineRead x key (r.stkptr.toNat - 272 * n) (272 * n) with
  | .error none => s
  | .error (some t) => (s.putStream key { x with winAgent := 3 }).asyncTrap key t
  | .ok (l, s) =>
    let s := s.putRank x.slot { r with stkptr := r.stkptr - BitVec.ofNat 64 (272 * n) }
    s.modStream key (fun x => { x with win := x.win ++ (fillRecs l n).reverse, winAgent := 0 })

/-- SPILL_FILL_COMPLETE (R200, R201). -/
def execSpillFillComplete (key : Nat) (s : State) : Out :=
  .next (match s.stream key with
    | some x =>
      if (x.winAgent = 1 || x.winAgent = 2) && s.windowWaits key x (x.winAgent == 1) then s
      else if x.winAgent = 1 then s.spillDone key x else if x.winAgent = 2 then s.fillDone key x else s
    | none => s)

end Sys2Proof.Machine
end

