-- ==== Sys2Proof/Machine/Matrix.lean ====
section
/-! DEFINITION. Rings as the stream and its calls share them (R243, R244), the M slot (R209-R217), the call queue, and how a
call ends (R212, R213, R228). -/

namespace Sys2Proof.Machine

/-! Rings. -/

def Ring.headAddr (r : Ring) : Nat := r.base + r.slot * r.head
def Ring.tailAddr (r : Ring) : Nat := r.base + r.slot * r.tail

/-- n slots filled at the tail (R244). -/
def Ring.advT (r : Ring) (n : Nat) : Ring := { r with tail := (r.tail + n) % r.count, filled := r.filled + n }

/-- n slots retired at the head (R244). -/
def Ring.advH (r : Ring) (n : Nat) : Ring := { r with head := (r.head + n) % r.count, filled := r.filled - n }

/-- Changes a ring of a stream. -/
def State.modRing (s : State) (key n : Nat) (f : Ring → Ring) : State :=
  s.modStream key (fun x =>
    match x.rings.find n with
    | some r => { x with rings := x.rings.put n (f r) }
    | none => x)

/-! The microprogram store (R218). -/

/-- Words of a stream's part. -/
def Stream.partSize (x : Stream) : Nat := if x.tiles4 then 1024 else 2048

/-- The store word of micro address 0 of a stream's part. -/
def Stream.partBase (x : Stream) (key : Nat) : Nat := if x.tiles4 && key % 2 == 1 then 1024 else 0

/-! Entering the call queue (R211, R212). -/

/-- The calls of a stream on the focused core. -/
def State.ownCalls (s : State) (key : Nat) : List Call := s.core.calls.filter (fun c => c.key == key)

/-- The physical tiles of the focused stream's logical names; 255 for a name not granted (R106). -/
def State.tileMap (s : State) : List Nat :=
  (upto 0 8).map (fun t => if s.cur.tiles4 && decide (4 ≤ t) then 255 else s.cur.ptile s.sec t)

/-- Whether an exposed result in flight writes a cell of a physical tile (R211 check 3). -/
def Stream.shadows (x : Stream) (tiles : List Nat) : Bool :=
  x.land.any (fun e => e.tgt.cellKeys.any (fun k => tiles.contains (k / 4096)))

/-- Whether a pending line load writes a physical tile. -/
def Stream.loading (x : Stream) (tiles : List Nat) : Bool :=
  x.pend.any (fun e => e.tgts.any (fun t => t.cellKeys.any (fun k => tiles.contains (k / 4096))))

/-- Whether another slot of the bundle loads a line into a physical tile. -/
def State.loadsLine (s : State) (tiles : List Nat) : Bool :=
  match s.cur.bundle with
  | none => false
  | some b => b.slots.any (fun e => match e.2 with | .ldln d _ _ => tiles.contains (s.tileOf d.tile) | _ => false)

/-- Enters a call, MZERO or MTRAN that holds the logical tiles of a mask, after the checks and stalls of R211. -/
def State.enqueue (s : State) (mask : List Nat) (c : Call) : Res :=
  let phys := mask.map (fun t => s.tileMap.getD t 255)
  if phys.contains 255 then .trap (s.illop 0x13)
  else if s.cur.shadows phys || s.loadsLine phys then .trap (s.illop 0x13)
  else if s.cur.loading phys then .stall true none
  else if 2 ≤ s.core.calls.length then .stall false none
  else
    let c := { c with
      key := s.curKey, mask := phys, tiles := s.tileMap, q := s.cur.q, c := s.cur.c, z := s.cur.z, rmm := s.cur.fmode.extractLsb' 4 2,
      efr := s.cur.efr, issued := s.cycle.toNat }
    .ok { s with core := { s.core with calls := s.core.calls ++ [c] } }

/-- MCALL (R210, R211). -/
def execMcall (fa fb : MFmt) (ovw : Bool) (n : BitVec 7) (a : SOp) (s : State) : Out :=
  let m := s.cur.readOp a
  finish s
    (if s.cur.tiles4 && decide (64 ≤ n.toNat) then .trap (s.illop 0x13)
     else s.enqueue ((upto 0 8).filter m.getLsbD) { kind := .routine n.toNat, fa := fa, fb := fb, ovw := ovw })

/-- MZERO (R217). -/
def execMzero (t : BitVec 3) (s : State) : Out := finish s (s.enqueue [t.toNat] { kind := .mzero })

/-- MTRAN (R217). -/
def execMtran (t : BitVec 3) (s : State) : Out := finish s (s.enqueue [t.toNat] { kind := .mtran })

/-- MPSET (R215). -/
def execMpset (q : BitVec 3) (a : SOp) (s : State) : Out := finish s (.ok (s.out 1 (.q q.toNat (s.cur.readOp a))))

/-- MPGET (R215). -/
def execMpget (d : SReg) (q : BitVec 3) (s : State) : Out := finish s (.ok (s.out 2 (.s d.toNat (s.cur.q.get q.toNat))))

/-- The flags of the focused stream's completed calls join FLAGS (R214). -/
def State.joinCalls (s : State) : State :=
  let f := s.core.done.get s.curKey
  { s with
    cur := { s.cur with flags := s.cur.flags ||| f },
    core := { s.core with done := s.core.done.set s.curKey 0 } }

/-- MWAIT (R214): the join of every call issued before. Calls write the scratchpad only, so the acquire orders nothing further. -/
def execMwait (s : State) : Out :=
  finish s (if !(s.ownCalls s.curKey).isEmpty then .stall false none else .ok s.joinCalls)

/-- MLOAD (R216). -/
def execMload (a : SReg) (b : SOp) (s : State) : Out :=
  let va := s.cur.readS a
  let w := s.cur.readOp b
  let n := fld w 11 0
  let f := fld w 22 12
  finish s
    (if !(s.ownCalls s.curKey).isEmpty then .stall false none
     else if va.toNat % 8 ≠ 0 then .trap (trapMisalign va)
     else if n = 0 || decide (s.cur.partSize < f + n) then .trap (s.illop 0x14)
     else
       orTrap (s.cur.winPieces (s.curKey / 2) va.toNat (8 * n) .load) (fun ps =>
         if ps.any (fun p => p.bad s.mem) then .trap (trap68 0x08 va.toNat 0xF .load 0x21)
         else if s.bankHeld s.curKey (winKeys ps) then .stall false none
         else
           let ws := words64 (winBytes s.vspad ps)
           s.stallFor ((8 * n + 2047) / 2048)
             (.ok { s with core := { s.core with store := s.core.store.puts ((upto (s.cur.partBase s.curKey + f) n).zip ws) } }) false))

/-! The end of a call (R213, R214, R228). -/

/-- The running call of the focused core. -/
def State.runCall (s : State) : Option Call :=
  match s.core.calls with
  | c :: _ => if c.running then some c else none
  | [] => none

/-- Replaces the head of the call queue. -/
def State.setCall (s : State) (c : Call) : State := { s with core := { s.core with calls := c :: s.core.calls.drop 1 } }

/-- The head of the queue completes: its tiles are released, its flags wait for the join. -/
def State.callDone (s : State) (c : Call) : State :=
  { s with core := { s.core with
      calls := s.core.calls.drop 1, done := s.core.done.set c.key (s.core.done.get c.key ||| c.flags) } }

/-- The running call stops on a fault: its stream's queued entry is discarded, flags go with the trap, and the trap, with DISC
when `disc` says its layout has that bit, waits for the stream's next boundary (R228). Before a save the flags land at once (R230). -/
def State.callFault (s : State) (c : Call) (t : TrapRec) (disc : Bool) : State :=
  let rest := s.core.calls.drop 1
  let lost := rest.any (fun q => q.key == c.key)
  let fl := c.flags ||| s.core.done.get c.key
  let stopped := match s.stream c.key with | some x => x.stopped | none => false
  let t := { t with
    flags := if stopped then 0 else fl,
    info := if disc && lost then t.info ||| BitVec.ofNat 64 (2 ^ 16) else t.info }
  let s := if stopped then s.modStream c.key (fun x => { x with flags := x.flags ||| fl }) else s
  let s := { s with core := { s.core with calls := rest.filter (fun q => q.key != c.key), done := s.core.done.set c.key 0 } }
  s.asyncTrap c.key t

/-- The micro-word at a call's micro address. -/
def State.microWord (s : State) (c : Call) : Word64 :=
  match s.stream c.key with
  | some x => s.core.store.get (x.partBase c.key + c.upc)
  | none => 0

/-- The running call stops with ENGINE and a SUB of R228. -/
def State.callStop (s : State) (c : Call) (sub : Nat) : State :=
  s.callFault c { cause := 0x13, addr := s.microWord c, info := BitVec.ofNat 64 (c.upc * 2 ^ 32 + 4096 + sub) } true

/-- MATRIX_CALL_START (R212, R221, R225): the head of the queue starts 4 cycles after its issue at the earliest, and not while its
task is halted, unless it is being pre-empted (R230, R338). -/
def execMatrixCallStart (core : Nat) (s : State) : Out :=
  let c := s.coreOf core
  .next (match c.calls with
    | q :: rest =>
      let halted := match s.stream q.key with | some x => x.halted && !x.stopped | none => false
      if q.running || halted || decide (s.cycle.toNat < q.issued + 4) then s
      else
        let pc := match q.kind with | .routine n => 16 * n | _ => 0
        let q := { q with running := true, upc := pc, first := q.mask, acc := fld (q.q.get 0) 2 0 }
        s.putCore core { c with calls := q :: rest }
    | [] => s)

/-- CALL_CYCLE_LIMIT (R227): a call that has run 2,048 cycles stops. -/
def execCallCycleLimit (core : Nat) (s : State) : Out :=
  let s := s.focus (core * 2)
  .next (match s.runCall with
    | some c => if 2048 ≤ c.cycles then s.callStop c 0x37 else s
    | none => s)

/-- The 4,096 cells of a tile under MTRAN (R217). -/
def transpose (m : Cells 32) (t : Nat) : List (Nat × Word32) :=
  (upto 0 4096).map (fun k => (t * 4096 + k, m.get (cellKey t (k % 64) (k / 64))))

/-- MATRIX_CALL_COMPLETE (R213, R217): an MZERO or MTRAN has run, or a routine stands at EXIT. -/
def execMatrixCallComplete (core : Nat) (s : State) : Out :=
  let s := s.focus (core * 2)
  .next (match s.runCall with
    | none => s
    | some c =>
      let t := c.mask.headD 0
      let keys := upto (t * 4096) 4096
      match c.kind with
      | .mzero =>
        let s := { s with core := { s.core with mrf := s.core.mrf.zero (t * 4096) 4096, parity := s.core.parity.filter (fun k => k / 4096 != t) } }
        s.callDone c
      | .mtran =>
        match s.parityTrap keys with
        | some p => s.callFault c p false
        | none => ({ s with core := { s.core with mrf := s.core.mrf.puts (transpose s.core.mrf t) } }).callDone c
      | .routine _ => if decodeMicro (s.microWord c) == some .exit && decide (c.cycles < 2048) then s.callDone c else s)

end Sys2Proof.Machine
end

