-- ==== Sys2Proof/Machine/Data.lean ====
section
/-! DEFINITION. The C slot's loads and stores (R236-R240), full/empty instructions (R276-R280), BKLOCK (R287-R289), ownership of
granules (R241, R242) and rings (R243, R244). -/

namespace Sys2Proof.Machine

/-! Accesses (R237). -/

/-- An access of n bytes at a, aligned to al: the checks of R237 in their order, the rules of a hold (R289), an uncorrectable word
(R342), the waits on a version bump (R72) and on held banks (R288). -/
def State.access (s : State) (a : Word64) (n al : Nat) (k : AKind) (f : List Piece → State → Res) : Res :=
  let va := a.toNat
  if va % al ≠ 0 then .trap (trapMisalign a)
  else if s.inHold && !inWindow va then .trap (bkTrap 0x60 a)
  else
    match s.pieces s.cur (s.curKey / 2) va n k with
    | .error t => .trap { t with addr := a }
    | .ok (ps, s) =>
      if s.inHold && (winKeys ps).any (fun e => e.1 / 2 ^ 20 != s.curKey / 2) then .trap (bkTrap 0x60 a)
      else if k == .load && ps.any (fun p => p.bad s.mem) then .trap { trap68 0x08 va 0xF k 0x21 with addr := a }
      else if ps.any (s.bumping s.cur.ctx) || s.bankHeld s.curKey (winKeys ps) then .stall true none
      else f ps s

/-- The DRAM lines that a read of pieces reaches: those of HOME = 01 pages; whether another global line misses its slice is open. -/
def State.dramLines (s : State) (ps : List Piece) : List (Nat × Bool) :=
  (ps.map (fun p =>
    match p.pl with
    | .win _ => []
    | .glob pa e =>
      (if e.home != 3 && Config.freePick s.tick then (cut 128 pa p.n).map (fun r => r.1 / 128 * 128) else s.streamed e.home pa p.n).map
        (fun a => (a, e.lat)))).flatten

/-- A load of pieces with a scoreboarded result (R238, R239): window bytes are read at once, global bytes at some time from its issue to its
landing (R258, R259). -/
def State.loadAs (s : State) (ps : List Piece) (f : RForm) : Res :=
  let parts := ps.map (fun p => p.part s.vspad)
  if parts.all (fun p => p.win.isSome) then .ok (s.sb (f.tgts ((parts.map (fun p => p.win.getD [])).flatten)))
  else .ok (s.sb f.holds 0 (s.dramLines ps) (some ⟨parts, f⟩))

/-- The bytes that a load reading at its issue reads, after the stream's earlier loads of them (R258). -/
def State.readNow (s : State) (ps : List Piece) : List Byte × State :=
  let s := s.resolveOver ps
  s.readPieces s.vspad s.curKey s.cur.slot s.cur.ctx ps

/-- A read that is an acquire at a level (R264): what it returned a release of is synchronised with. -/
def State.readAcq (s : State) (level : Nat) (ps : List Piece) : List Byte × State :=
  let before := s.cur.heard
  let (l, t) := ({ s with cur := { s.cur with heard := [] } }).readNow ps
  let u := t.acqOf (t.curKey / 2) level t.cur.heard
  (l, { u with cur := { u.cur with heard := before ++ u.cur.heard } })

/-- A load that reads at its issue: everything after it follows it (R261). -/
def State.loadNow (s : State) (ps : List Piece) (f : RForm) : Res :=
  if s.dramWait ps then .stall true none
  else
    let (l, s) := s.readNow ps
    .ok (s.sb (f.tgts l) 0 (s.dramLines ps))

/-- Bytes of a size code. -/
def szLen : Sz → Nat
  | .b1 => 1
  | .b2 => 2
  | .b4 => 4
  | .b8 => 8

/-- The address sA + B′ of an access unit (R237). -/
def State.addr (s : State) (a : SReg) (b : SOp) (u : Nat) : Word64 := s.cur.readS a + s.cur.readOff u b

/-- A scalar load. -/
def State.scalarLoad (s : State) (n : Nat) (sx : Bool) (d a : SReg) (b : SOp) : Res :=
  s.access (s.addr a b n) n n .load (fun ps s => s.loadAs ps (.scalar d.toNat n sx))

/-- LD (R238). -/
def execLd (sz : Sz) (sx : Bool) (d a : SReg) (b : SOp) (s : State) : Out := finish s (s.scalarLoad (szLen sz) sx d a b)

/-- LDA (R238): an acquire at its scope (R264). It reads at its issue, and what a release that it has read ordered within the scope is performed before
the stream's later accesses. -/
def execLda (scope : BitVec 3) (w : Bool) (d a : SReg) (b : SOp) (s : State) : Out :=
  let n := if w then 4 else 8
  finish s (s.unheldAt (s.addr a b n) (s.access (s.addr a b n) n n .load (fun ps s =>
    if s.dramWait ps then .stall true none
    else
      let (l, s) := s.readAcq scope.toNat ps
      .ok (s.sb ((RForm.scalar d.toNat n false).tgts l) 0 (s.dramLines ps)))))

/-- A store of bytes over its pieces by the focused stream, after its earlier loads of them (R258). `x` is the stream with the releases that the
write carries. -/
def State.storeOver (s : State) (x : Stream) (ps : List Piece) (l : List Byte) : State := (s.resolveOver ps).storePieces x s.curKey ps l

/-- A scalar store. -/
def State.scalarStore (s : State) (n : Nat) (v a : SReg) (b : SOp) (f : List Piece → List Byte → State → State) : Res :=
  s.access (s.addr a b n) n n .store (fun ps s => .ok (f ps (leBytes (s.cur.readS v).toNat n) s))

/-- ST (R238). -/
def execSt (sz : Sz) (v a : SReg) (b : SOp) (s : State) : Out :=
  finish s (s.scalarStore (szLen sz) v a b (fun ps l s => s.storeOver s.cur ps l))

/-- A store that is a release at a level (R261, R262, R264): its write carries what the release orders. -/
def State.storeRel (s : State) (level : Nat) (ps : List Piece) (l : List Byte) : State :=
  let s := s.relMark s.curKey level
  s.storeOver (s.releasing s.curKey level s.cur) ps l

/-- STREL (R238): a release at its scope. -/
def execStrel (scope : BitVec 3) (w : Bool) (v a : SReg) (b : SOp) (s : State) : Out :=
  let n := if w then 4 else 8
  finish s (s.unheldAt (s.addr a b n) (s.scalarStore n v a b (fun ps l s => s.storeRel scope.toNat ps l)))

/-- LDLN (R239). -/
def execLdln (d : Line) (a : SReg) (b : SOp) (s : State) : Out :=
  finish s (s.access (s.addr a b 64) 256 64 .load (fun ps s => s.loadAs ps (.line (s.lineKeys d))))

/-- STLN (R239). -/
def execStln (v : Line) (a : SReg) (b : SOp) (s : State) : Out :=
  finish s (s.access (s.addr a b 64) 256 64 .store (fun ps s =>
    s.sound (s.lineKeys v) (.ok (s.storeOver s.cur ps (((s.readLine v).map (fun c => leBytes c.toNat 4)).flatten)))))

/-- PREF (R240): its faults are dropped; a frame that no stack holds is contained all the same (R232, R69). -/
def execPref (replica : Bool) (a : SReg) (b : SOp) (s : State) : Out :=
  let va := (s.addr a b 128).toNat
  finish s (s.unheldAt (s.addr a b 128)
    (if inWindow va then .ok s
     else
       match s.xlat (s.curKey / 2) s.cur.slot va .load with
       | .error t => .ok (match t.frame with | some (f, a) => s.contain s.cur.slot a f | none => s)
       | .ok (e, s) =>
         let line := e.phys va / 128
         let d := coreDie (s.curKey / 2)
         if e.home = 2 then .ok (s.pinHome s.cur.slot (va / 128 * 128) (line * 128) 128)
         else if replica && e.home == 0 && paDie (line * 128) != d then
           let s := s.settle d (s.mem.lclk.at line [])
           .ok (s.replicate s.cur.ctx e.buf line d)
         else .ok s))

/-! Full/empty words (R276-R280). -/

/-- A full/empty access: the checks of R277 in their order, then the wait of the words on `full`. -/
def State.feAccess (s : State) (a : Word64) (n al : Nat) (k : AKind) (f : List Piece → Res) : Res :=
  let va := a.toNat
  if va % al ≠ 0 then .trap (trapMisalign a)
  else if s.inHold && !inWindow va then .trap (bkTrap 0x60 a)
  else if !(inWindow va && decide (va + n ≤ 2 ^ 56)) then .trap (s.illop 0x14)
  else
    match s.cur.winPieces (s.curKey / 2) va n k with
    | .error t => .trap { t with addr := a }
    | .ok ps =>
      if s.inHold && (winKeys ps).any (fun e => e.1 / 2 ^ 20 != s.curKey / 2) then .trap (bkTrap 0x60 a)
      else if s.bankHeld s.curKey (winKeys ps) then .stall true none
      else f ps

/-- The full/empty word numbers of window pieces, each with its virtual address. -/
def feWords (ps : List Piece) : List (Nat × Nat) :=
  (ps.map (fun p =>
    match p.pl with
    | .win key => (upto 0 (p.n / 4)).map (fun i => (key / 4 + i, p.va + 4 * i))
    | .glob _ _ => [])).flatten

/-- Waits until every word is full or empty, against the state before the bundle (R278). -/
def State.feWait (s : State) (ps : List Piece) (full : Bool) (r : Res) : Res :=
  match (feWords ps).find? (fun w => (s.vfe.get w.1 == 1) != full) with
  | some w => waitFor (fewaitTrap (BitVec.ofNat 64 w.2) (if full then 0x50 else 0x51))
  | none => r

/-- Sets the words of pieces full or empty. -/
def State.feSet (s : State) (ps : List Piece) (full : Bool) : State :=
  { s with mem := { s.mem with fe := (feWords ps).foldl (fun m w => m.set w.1 (if full then 1 else 0)) s.mem.fe } }

/-- LDW (R277): an acquire at level 3, which joins the operation that filled the word (R280). What the release that filled it orders was performed on
every die of the module by that release (`relAll`; R262), so nothing further moves. -/
def execLdw (dbl consume : Bool) (d a : SReg) (b : SOp) (s : State) : Out :=
  let n := if dbl then 8 else 4
  let va := s.addr a b n
  finish s (s.feAccess va n n .load (fun ps =>
    s.feWait ps true
      (if ps.any (fun p => p.bad s.mem) then .trap { trap68 0x08 va.toNat 0xF .load 0x21 with addr := va }
       else
         let v := BitVec.ofNat 64 (leNat (winBytes s.vspad ps))
         let s := s.sb [.s d.toNat v]
         .ok (if consume then s.feSet ps false else s))))

/-- STW (R277): a release at level 3 (R280). -/
def execStw (dbl : Bool) (v a : SReg) (b : SOp) (s : State) : Out :=
  let n := if dbl then 8 else 4
  finish s (s.feAccess (s.addr a b n) n n .store (fun ps =>
    s.feWait ps false (.ok ((s.relAll s.curKey 3).winStore ps (leBytes (s.cur.readS v).toNat n)))))

/-- FECLR and FESET (R277). -/
def State.feRange (s : State) (a : SReg) (b : SOp) (full : Bool) : Res :=
  let n := fld (s.cur.readOp b) 16 0
  s.feAccess (s.cur.readS a) (4 * n) 4 .store (fun ps =>
    if n = 0 || decide (65536 < n) then .trap (s.illop 0x14)
    else s.stallFor ((n + 511) / 512 - 1) (.ok ((if full then s.relAll s.curKey 3 else s).feSet ps full)))

/-- FECLR (R277). -/
def execFeclr (a : SReg) (b : SOp) (s : State) : Out := finish s (s.feRange a b false)

/-- FESET (R277): a release at level 3 (R280). -/
def execFeset (a : SReg) (b : SOp) (s : State) : Out := finish s (s.feRange a b true)

/-- FEPOLL (R277): one that finds the word full is an acquire at level 3, and moves nothing further, as LDW. -/
def execFepoll (d : PReg) (a : SReg) (b : SOp) (s : State) : Out :=
  finish s (s.feAccess (s.addr a b 4) 4 4 .load (fun ps =>
    .ok (s.sb [.p d.toNat ((feWords ps).all (fun w => s.vfe.get w.1 == 1))])))

/-! BKLOCK (R287-R289). -/

/-- BKLOCK (R288): the hold begins; it lasts for the n bundles after this one. -/
def execBklock (mask : BitVec 16) (n : BitVec 4) (s : State) : Out :=
  finish s
    (if s.cur.hold.isSome then .trap (bkTrap 0x61 s.baddr)
     else .ok { s with cur := { s.cur with hold := some { mask := mask, left := n.toNat + 1 } } })

/-- BKLOCK_HOLD_END (R288): the n-th bundle after the BKLOCK has issued, and the hold ends. -/
def execBklockHoldEnd (key : Nat) (s : State) : Out :=
  .next (s.modStream key (fun x =>
    match x.hold with
    | some h => if h.left = 0 then { x with hold := none } else x
    | none => x))

/-- BKLOCK_STALL_LIMIT (R289): the bundle's stall would be the hold's ninth, so BKLOCK with SUB 0x63 is raised at it. -/
def execBklockStallLimit (key : Nat) (s : State) : Out :=
  let s := s.focus key
  .next (match s.cur.hold with
    | some h => if s.curLive && decide (8 ≤ h.stalls) then s.enterTrap (bkTrap 0x63 s.cur.pc) s.cur.pc else s
    | none => s)

/-- FEWAIT (R278): a bundle whose wait has reached FEWAITLIM cycles takes the trap of its wait. -/
def execFewait (key : Nat) (s : State) : Out :=
  let s := s.focus key
  .next (match s.cur.mark with
    | .stalled _ (some t) _ =>
      if s.curLive && s.cur.fewaitlim != 0 && decide (s.cur.fewaitlim.toNat ≤ s.cur.waitCyc) then s.enterTrap t s.cur.pc else s
    | _ => s)

/-! Granules (R241, R242). -/

/-- Whether [a, a + n) of window addresses meets a granule at g. -/
def meetsGran (g a n : Nat) : Bool := decide (a < g + 65536) && decide (g < a + n)

/-- Whether an engine operation works against the granule at a window address (R241). -/
def Op.uses (o : Op) (g : Nat) : Bool :=
  match o.kind with
  | .copy c =>
    meetsGran g c.src (c.rows * max c.sstride c.rowbytes) || meetsGran g c.dst (max (c.rows * max c.dstride c.rowbytes) (64 * c.dstride + 256))
      || (match c.fe with | some f => meetsGran g f 4 | none => false)
  | .fill _ b old =>
    meetsGran g b.slot (128 * b.lines) || meetsGran g b.few 4 || (match old with | some q => meetsGran g q.slot (128 * q.lines) | none => false)
  | .evict _ _ b => meetsGran g b.slot (128 * b.lines) || meetsGran g b.few 4
  | .nm n => meetsGran g n.stat 8
  | _ => false

/-- Whether the stream's work against a granule is not complete (R241). -/
def State.granBusy (s : State) (g : Nat) : Bool :=
  s.ops.any (fun o => o.key == s.curKey && o.uses g)
    || (!(s.ownCalls s.curKey).isEmpty && s.cur.rings.any (fun r => meetsGran g r.2.base (r.2.slot * r.2.count)))

/-- OWNGIVE (R241): the hold on the granule ends, and the granule sets out for the task; a release at level 3. -/
def execOwngive (a : SReg) (b : SOp) (s : State) : Out :=
  let va := (s.cur.readS a).toNat
  let core := s.curKey / 2
  finish s (s.unheldAt (s.cur.readS a)
    (if va % 65536 ≠ 0 then .trap (trapMisalign (s.cur.readS a))
     else
       match s.cur.winPieces core va 1 .store with
       | .error t => .trap t
       | .ok ps =>
         if s.granBusy va then .stall true none
         else
           let key := ((winKeys ps).headD (0, 0)).1
           let i := (va - Config.spwbase) / 65536
           let dest := s.cur.taskRef (fld (s.cur.readOp b) 31 0)
           let s := s.relAll s.curKey 3
           let x := if i < 16 then { s.cur with lgran := s.cur.lgran.del i } else { s.cur with recv := s.cur.recv.del (i - 16) }
           let (id, s) := { s with cur := x }.fresh
           let o : Op := { id := id, key := s.curKey, ctx := x.ctx, slot := x.slot, core := core, task := x.task,
                           kind := .gran (key / 2 ^ 20) (key % 2 ^ 20 / 65536) x.task dest }
           .ok { s with ops := s.ops ++ [o] }))

/-- OWNQRY (R242). -/
def execOwnqry (byAddr : Bool) (d : SReg) (a : SOp) (s : State) : Out :=
  let v := s.cur.readOp a
  let r : Word64 :=
    if byAddr then
      (if inWindow v.toNat then (match s.cur.winKey (s.curKey / 2) v.toNat with | .ok _ => 1 | .error _ => 0) else 0)
    else
      match s.cur.recv.find (fld v 3 0) with
      | some g => BitVec.ofNat 64 (2 ^ 63 + g.giver)
      | none => 0
  finish s (s.unheld (.ok (s.sb [.s d.toNat r])))

/-! Rings (R243, R244). -/

/-- Whether a ring number is outside the stream's range (R243). -/
def State.ringOut (s : State) (r : BitVec 4) : Bool := s.cur.tiles4 && decide (8 ≤ r.toNat)

/-- RGDEF (R243). -/
def execRgdef (r : BitVec 4) (a : SReg) (s : State) : Out :=
  let va := s.cur.readS a
  finish s (s.unheldAt va
    (if s.ringOut r then .trap (s.illop 0x14)
     else if !(s.ownCalls s.curKey).isEmpty then .stall true none
     else
       s.access va 16 8 .load (fun ps s =>
         if s.dramWait ps then .stall true none
         else
         let (l, s) := s.readNow ps
         let g0 := wordAt (words64 l) 0
         let g1 := wordAt (words64 l) 1
         let count := fld g1 40 32
         let slot := fld g1 31 0
         let base := fld g0 55 0
         if fld g1 63 41 ≠ 0 || fld g0 63 56 ≠ 0 || count = 0 || decide (256 < count) || slot % 128 ≠ 0 || decide (slot < 128)
             || decide (1048576 < slot) then .trap (s.illop 0x14)
         else if base % 128 ≠ 0 then .trap (trapMisalign (BitVec.ofNat 64 base))
         else
           let ring : Ring := { base := base, slot := slot, count := count }
           .ok { s with cur := { s.cur with rings := s.cur.rings.put r.toNat ring } })))

/-- A ring instruction's ring and count, or ILLOP (R244). -/
def State.ringArg (s : State) (r : BitVec 4) (b : SOp) (rings : Tbl Ring) (f : Ring → Nat → Res) : Res :=
  let n := fld (s.cur.readOp b) 8 0
  match (if s.ringOut r then none else rings.find r.toNat) with
  | none => .trap (s.illop 0x14)
  | some g => if n = 0 || decide (g.count < n) then .trap (s.illop 0x14) else f g n

/-- RGADVT (R244): a release at scope 0. -/
def execRgadvt (r : BitVec 4) (b : SOp) (s : State) : Out :=
  finish s (s.unheld (s.ringArg r b s.cur.rings (fun g n =>
    if g.count - g.filled < n then .trap (s.illop 0x14)
    else
      let s := s.relMark s.curKey 0
      .ok { s with cur := { s.cur with rings := s.cur.rings.put r.toNat (g.advT n) } })))

/-- RGADVH (R244): a release at scope 0. -/
def execRgadvh (r : BitVec 4) (b : SOp) (s : State) : Out :=
  finish s (s.unheld (s.ringArg r b s.cur.rings (fun g n =>
    if g.filled < n then .trap (s.illop 0x14)
    else
      let s := s.relMark s.curKey 0
      .ok { s with cur := { s.cur with rings := s.cur.rings.put r.toNat (g.advH n) } })))

/-- RGWAITF (R244): an acquire at scope 0, which joins the CVTOUT or the MACG copy that advanced the tail (R269). -/
def execRgwaitf (r : BitVec 4) (b : SOp) (s : State) : Out :=
  finish s (s.unheld (s.ringArg r b s.vrings (fun g n =>
    if g.filled < n then waitFor (fewaitTrap (BitVec.ofNat 64 g.tailAddr) 0x52) else .ok (s.joinMem s.curKey))))

/-- RGWAITE (R244): an acquire at scope 0. -/
def execRgwaite (r : BitVec 4) (b : SOp) (s : State) : Out :=
  finish s (s.unheld (s.ringArg r b s.vrings (fun g n =>
    if g.count - g.filled < n then waitFor (fewaitTrap (BitVec.ofNat 64 g.headAddr) 0x52) else .ok (s.joinMem s.curKey))))

end Sys2Proof.Machine
end

