-- ==== Sys2Proof/Machine/Micro.lean ====
section
/-! DEFINITION. The micro-ops of a running matrix call (R219-R229, R380). Each acts on the running call of the focused core. -/

namespace Sys2Proof.Machine

/-! Operand formats and panels (R210, R220). -/

/-- The element format of a matrix operand; SPT weights are bytes of their own (R125). -/
def mfmtVal (f : MFmt) (efr : BitVec 12) (b : Nat) : Ex :=
  match f with
  | .f32 => fp32.value b
  | .bf16 => bf16.value b
  | .f16 => fp16.value b
  | .e4m3 => e4m3.value b
  | .e5m2 => e5m2.value b
  | .e2m1 => e2m1.value b
  | .spt => sptValue b
  | .ni => .ofInt (niValue efr b)

/-- Bits of an element. -/
def mfmtWidth (f : MFmt) (efr : BitVec 12) : Nat :=
  match f with
  | .f32 => 32
  | .bf16 => 16
  | .f16 => 16
  | .e4m3 => 8
  | .e5m2 => 8
  | .e2m1 => 4
  | .spt => 8
  | .ni => niWidth efr

/-- Elements of a cell (R220). -/
def perCell (f : MFmt) (efr : BitVec 12) : Nat := 32 / mfmtWidth f efr

/-- The k of one chunk of a format (R133). -/
def mfmtRate (f : MFmt) (efr : BitVec 12) : Nat :=
  match f with
  | .f32 => 1
  | .bf16 => 4
  | .f16 => 4
  | .e4m3 => 8
  | .e5m2 => 8
  | .e2m1 => 16
  | .spt => 16
  | .ni => if niWidth efr = 6 then 8 else 16

/-- The rate R of a call (R210). -/
def Call.rate (c : Call) : Nat :=
  if c.fb = .spt then 16 else min (mfmtRate c.fa c.efr) (mfmtRate c.fb c.efr)

/-- The depth of a panel of a slot (R220). -/
def slotDepth (slot : Nat) (f : MFmt) (efr : BitVec 12) : Nat := slot / 4 * perCell f efr / 64

/-- Bits of element position p of a cell. -/
def cellElem (f : MFmt) (efr : BitVec 12) (c : Word32) (p : Nat) : Nat := elemW (mfmtWidth f efr) c p

/-- Elements lo to lo + n - 1 of a panel, given the words from cell lo / m on. -/
def panelElems (f : MFmt) (efr : BitVec 12) (ws : List Word32) (lo n : Nat) : List Ex :=
  let m := perCell f efr
  let a := ws.toArray
  (upto lo n).map (fun e => mfmtVal f efr (cellElem f efr (a.getD (e / m - lo / m) 0) (e % m)))

/-! What a micro-op's execution ends in. -/

inductive MRes where
  /-- its effects, flags, cycles and the next micro address -/
  | done (s : State) (fl : Flags) (cycles next : Nat)
  /-- it waits; the state it leaves -/
  | wait (s : State)
  /-- a stop of R228 with its SUB, after the effects that stand -/
  | stop (s : State) (fl : Flags) (sub : Nat)
  /-- a fault raised with its own cause; `disc` says whether its TRAPINFO has the DISC bit -/
  | fault (t : TrapRec) (disc : Bool)
  | exit

/-- Bytes of a ring slot from an address, or the fault of R228. -/
def State.ringBytes (s : State) (x : Stream) (core va n : Nat) : Except TrapRec (List Byte) :=
  match x.winPieces core va n .eread with
  | .error t => .error t
  | .ok ps => if ps.any (fun p => p.bad s.mem) then .error (trap68 0x08 va 0xF .eread 0x21) else .ok (winBytes s.mem.spad ps)

/-- The bytes of n elements from lo of the head slot's panel of a ring (R220). -/
def headRange (r : Ring) (f : MFmt) (efr : BitVec 12) (lo n : Nat) : Nat × Nat :=
  let m := perCell f efr
  (r.headAddr + 4 * (lo / m), 4 * ((lo + n - 1) / m + 1 - lo / m))

/-- Whether a call's ring accesses lie in banks that the other stream holds: they queue there (R288). -/
def State.ringHeld (s : State) (x : Stream) (key : Nat) (l : List (Nat × Nat)) : Bool :=
  l.any (fun r => match x.winPieces (key / 2) r.1 r.2 .eread with | .ok ps => s.bankHeld key (winKeys ps) | .error _ => false)

/-- The elements of k from k0 of the head slot's panel of a ring (R220, R221). -/
def State.headPanel (s : State) (x : Stream) (core : Nat) (r : Ring) (f : MFmt) (efr : BitVec 12) (lo n : Nat) : Except TrapRec (List Ex) :=
  let g := headRange r f efr lo n
  match s.ringBytes x core g.1 g.2 with
  | .error t => .error t
  | .ok l => .ok (panelElems f efr (words32 l) lo n)

/-! MACG's copy (R221). -/

/-- The bytes of a panel that hold kn values of k from k0: the offset of the first, and how many (R220, R221). -/
def panelBytes (f : MFmt) (efr : BitVec 12) (k0 kn : Nat) : Nat × Nat :=
  let m := perCell f efr
  let w := mfmtWidth f efr
  let lo := 4 * (64 * k0 / m) + w * (64 * k0 % m) / 8
  let z := 64 * (k0 + kn) - 1
  if kn = 0 then (lo, 0) else (lo, 4 * (z / m) + (w * (z % m) + w - 1) / 8 + 1 - lo)

/-- Copies a MACG's panel piece into the tail slot and advances the tail, before any check of R380: the state, or nothing yet, or a fault. Bytes past
the slot's end are copied past it (log 54). -/
def State.macgCopy (s : State) (c : Call) (ra rb : BitVec 4) (k0 kn : Nat) (g : Bool) (q : BitVec 3) : Except (Option TrapRec) State :=
  match s.stream c.key with
  | none => .error none
  | some x =>
    let core := c.key / 2
    let ring := (if g then rb else ra).toNat
    let f := if g then c.fb else c.fa
    match x.rings.find ring with
    | none => .error none
    | some r =>
      if r.count ≤ r.filled then .error none
      else
        let (off, n) := panelBytes f c.efr k0 kn
        match s.pieces x core (fld (c.q.get q.toNat) 55 0 + off) n .eread with
        | .error t => .error (some t)
        | .ok (ps, s) =>
          if s.piecesWait x.ctx c.key ps then .error none
          else if ps.any (fun p => p.bad s.mem) then .error (some (trap68 0x08 (fld (c.q.get q.toNat) 55 0 + off) 0xF .eread 0x21))
          else
            match x.winPieces core (r.tailAddr + off) n .ewrite with
            | .error t => .error (some t)
            | .ok ws =>
              if s.bankHeld c.key (winKeys ws) then .error none
              else
                let (l, s) := (s.latDone (s.streamLines ps)).readPieces s.mem.spad c.key x.slot x.ctx ps
                .ok ((s.winStore ws l).modRing c.key ring (fun r => r.advT 1))

/-- The word that follows the one at a call's micro address in execution. -/
def Call.follow (c : Call) (i : Instr) : Nat :=
  match i with
  | .microLoop k q t =>
    let n := if c.loops.get k.toNat = 0 then (c.q.get q.toNat).setWidth 16 else c.loops.get k.toNat
    if n.toNat ≤ 1 then c.upc + 1 else t.toNat
  | _ => c.upc + 1

/-- When a micro-word begins, the sequencer decodes the next, and makes its copy if that is a MACG (R221). A copy that cannot be
made yet, or faults, is made when the MACG itself begins. -/
def State.decodeAhead (s : State) (c : Call) (i : Instr) : State × Call :=
  let next := c.follow i
  let size := match s.stream c.key with | some x => x.partSize | none => 0
  if c.ahead || i == .exit || decide (size ≤ next) then (s, c)
  else
    match decodeMicro (s.microWord { c with upc := next }) with
    | some (.macg ra rb k0 kn g q) =>
      match s.macgCopy c ra rb k0.toNat kn.toNat g q with
      | .ok s' => (s', { c with ahead := true })
      | .error _ => (s, c)
    | _ => (s, c)

/-- The word's own copy, if it is a MACG whose copy has not been made (R221); the call is as it was where the copy cannot be made yet, or faults. -/
def State.ownCopy (s : State) (c : Call) (i : Instr) : State × Call :=
  match i with
  | .macg ra rb k0 kn g q =>
    if c.fetched then (s, c)
    else
      match s.macgCopy c ra rb k0.toNat kn.toNat g q with
      | .ok s' => (s', { c with fetched := true })
      | .error _ => (s, c)
  | _ => (s, c)

/-- The copies in the order of the words: the word's own, then, when no copy of its own is missing, that of the word after it (R221). -/
def State.copies (s : State) (c : Call) (i : Instr) : State × Call :=
  let r := s.ownCopy c i
  match i with
  | .macg .. => if r.2.fetched then r.1.decodeAhead r.2 i else r
  | _ => r.1.decodeAhead r.2 i

/-- The bytes that the copy of a micro-word reads, if it is a MACG (R221). -/
def Call.copyRange (c : Call) (i : Option Instr) : List (Nat × Nat × AKind) :=
  match i with
  | some (.macg _ _ k0 kn g q) =>
    let r := panelBytes (if g then c.fb else c.fa) c.efr k0.toNat kn.toNat
    [(fld (c.q.get q.toNat) 55 0 + r.1, r.2, .eread)]
  | _ => []

/-- The bytes that the copies due of the focused core's running call read (R221, R254). -/
def State.macgReads (s : State) (c : Call) : List (Nat × Nat × AKind) :=
  let i := decodeMicro (s.microWord c)
  (if c.fetched then [] else c.copyRange i) ++
    (match i with
    | some i => if c.ahead then [] else c.copyRange (decodeMicro (s.microWord { c with upc := c.follow i }))
    | none => [])

/-! Running one micro-op. -/

/-- Runs a micro-op of the focused core's running call: the copies due, the effects, flags and cycles, and the next micro
address, which must lie in the part (R225-R228, R380). -/
def State.micro (s : State) (i : Instr) (f : State → Stream → Call → MRes) : Out :=
  .next (match s.runCall with
    | none => s
    | some c =>
      match s.stream c.key with
      | none => s
      | some x0 =>
        if 2048 ≤ c.cycles then s
        else
          let (s, c) := s.copies c i
          let x := (s.stream c.key).getD x0
          let s := s.setCall c
          match f s x c with
          | .wait s =>
            let c := match s.core.calls with | d :: _ => d | [] => c
            s.setCall { c with cycles := c.cycles + 1 }
          | .exit => s.callDone c
          | .fault t d => s.callFault c t d
          | .stop s fl sub => s.callStop { c with flags := c.flags ||| fl } sub
          | .done s fl n next =>
            let c := match s.core.calls with | d :: _ => d | [] => c
            let c := { c with flags := c.flags ||| fl, cycles := c.cycles + n }
            if 2048 ≤ c.cycles then s.setCall c
            else if x.partSize ≤ next then s.callStop c 0x36
            else s.setCall { c with upc := next, fetched := c.ahead, ahead := false })

/-- The running call of the focused core stops at a word that is no micro-op (R219). -/
def State.microBad (s : State) : State :=
  match s.runCall with
  | some c => if 2048 ≤ c.cycles then s else s.callStop c 0x30
  | none => s

/-! The multiplies (R221, R222). -/

/-- The physical accumulator tile of a call; 255 when it is not granted. -/
def Call.accTile (c : Call) : Nat := c.tiles.getD c.acc 255

/-- Whether the call holds a physical tile. -/
def Call.holds (c : Call) (t : Nat) : Bool := c.mask.contains t

/-- One cell through a chunk (R133, R134, R221). -/
def addChunk (ovw : Bool) (acc : Word32) (ps : List (Ex × Flags)) : Word32 × Flags :=
  let (z, f) := chunkSum ps
  let (y, g) := if ovw then (z, 0) else exAdd .rne (fp32.value acc.toNat) z
  let (b, h) := narrow (.fp fp32) y .rne false
  (BitVec.ofNat 32 b, f ||| g ||| h)

/-- A product of a chunk (R134): that of two NI values is an exact integer, whose zero has no sign. -/
def mulOf (ni : Bool) (x y : Ex) : Ex × Flags :=
  let r := exMul x y
  if ni && r.1.isZero then (.zero false, r.2) else r

/-- A chunk of R values of k from an index of the operand lists: every cell of the tile. A holds element k × 64 + i and B element
k × 64 + j, both counted from the first k of the micro-op. -/
def chunkTile (ovw ni : Bool) (m : Cells 32) (t : Nat) (A B : Array Ex) (k R : Nat) : List (Nat × Word32) × Flags :=
  let r := (upto 0 4096).map (fun e =>
    let i := e / 64
    let j := e % 64
    let ps := (upto k R).map (fun k => mulOf ni (A.getD (64 * k + i) (.zero false)) (B.getD (64 * k + j) (.zero false)))
    (t * 4096 + e, addChunk ovw (m.get (t * 4096 + e)) ps))
  (r.map (fun e => (e.1, e.2.1)), r.foldl (fun a e => a ||| e.2.2) 0)

/-- Writes cells of the register file, whose parity is then good (R342). -/
def State.putCells (s : State) (cs : List (Nat × Word32)) : State :=
  let ks := cs.map (fun c => c.1)
  { s with core := { s.core with mrf := s.core.mrf.puts cs, parity := s.core.parity.filter (fun k => !ks.contains k) } }

/-- Adds n chunks of R into the accumulator; the call's first chunk into a tile overwrites when b = 1 (R221). -/
def State.addChunks (s : State) (c : Call) (A B : Array Ex) (R : Nat) : (n : Nat) → (k : Nat) → (fl : Flags) → State × Call × Flags
  | 0, _, fl => (s, c, fl)
  | n + 1, k, fl =>
    let t := c.accTile
    let (cs, f) := chunkTile (c.ovw && c.first.contains t) (c.fa == .ni) s.core.mrf t A B k R
    let c := { c with first := c.first.filter (fun u => u != t) }
    ((s.putCells cs).setCall c).addChunks c A B R n (k + R) (fl ||| f)

/-- The parity trap of a multiply that reads its accumulator (R342). -/
def State.accParity (s : State) (c : Call) : Option TrapRec :=
  if c.ovw && c.first.contains c.accTile then none else s.parityTrap (upto (c.accTile * 4096) 4096)

/-- A dense multiply: A's elements come from a function, B's from the head slot of RB (R221). Checks 2 to 6 of R380. -/
def State.dense (s : State) (x : Stream) (c : Call) (ringA : Option Ring) (tileA : Option Nat) (rb : BitVec 4) (k0 kn : Nat) (fmtOk : Bool)
    (depthA : Nat) (getA : State → Ring → Except (TrapRec × Bool) (List Ex)) : MRes :=
  match x.rings.find rb.toNat with
  | none => .stop s 0 0x38
  | some b =>
    if !fmtOk then .stop s 0 0x33
    else if !c.holds c.accTile || (match tileA with | some t => !c.holds t | none => false) then .stop s 0 0x31
    else if kn = 0 || kn % c.rate ≠ 0 || decide (min depthA (slotDepth b.slot c.fb c.efr) < k0 + kn) then .stop s 0 0x32
    else if (match ringA with | some a => a.filled = 0 | none => false) || b.filled = 0 then .wait s
    else if s.ringHeld x c.key (headRange b c.fb c.efr (64 * k0) (64 * kn) ::
        (match ringA with | some a => [headRange a c.fa c.efr (64 * k0) (64 * kn)] | none => [])) then .wait s
    else
      match getA s (ringA.getD b) with
      | .error (t, d) => .fault t d
      | .ok A =>
        match s.headPanel x (c.key / 2) b c.fb c.efr (64 * k0) (64 * kn) with
        | .error t => .fault t true
        | .ok B =>
          match s.accParity c with
          | some t => .fault t false
          | none =>
            let (s, _, fl) := s.addChunks c A.toArray B.toArray c.rate (kn / c.rate) 0 0
            .done s fl (kn / c.rate) (c.upc + 1)

/-- A dense multiply of the head slots of two rings. -/
def State.denseRings (s : State) (x : Stream) (c : Call) (ra rb : BitVec 4) (k0 kn : Nat) (fmtOk : Bool) : MRes :=
  match x.rings.find ra.toNat with
  | none => .stop s 0 0x38
  | some a =>
    s.dense x c (some a) none rb k0 kn fmtOk (slotDepth a.slot c.fa c.efr) (fun s a =>
      match s.headPanel x (c.key / 2) a c.fa c.efr (64 * k0) (64 * kn) with
      | .ok l => .ok l
      | .error t => .error (t, true))

/-- MAC (R221). -/
def execMac (ra rb : BitVec 4) (k0 kn : BitVec 10) (s : State) : Out :=
  s.micro (.mac ra rb k0 kn) (fun s x c => s.denseRings x c ra rb k0.toNat kn.toNat (c.fb != .spt))

/-- MACW (R221). -/
def execMacw (ra rb : BitVec 4) (k0 kn : BitVec 10) (s : State) : Out :=
  s.micro (.macw ra rb k0 kn) (fun s x c => s.denseRings x c ra rb k0.toNat kn.toNat (c.fa == .e4m3 && c.fb == .spt))

/-- MACT (R221): A from a held tile, rows or columns of packed cells. Where that tile is the accumulator, A is read once, before the first chunk
(DESIGN CHOICE, log 62: R221 does not say whether a later chunk reads what an earlier one has written). -/
def execMact (rb : BitVec 4) (k0 kn : BitVec 10) (tile : BitVec 3) (dir : Bool) (s : State) : Out :=
  s.micro (.mact rb k0 kn tile dir) (fun s x c =>
    let t := c.tiles.getD tile.toNat 255
    let m := perCell c.fa c.efr
    s.dense x c none (some t) rb k0.toNat kn.toNat (c.fb != .spt) (64 * m) (fun s _ =>
      let key (i k : Nat) : Nat := if dir then cellKey t (k / m) i else cellKey t i (k / m)
      let at' (i k : Nat) : Ex := mfmtVal c.fa c.efr (cellElem c.fa c.efr (s.core.mrf.get (key i k)) (k % m))
      let ks := (upto k0.toNat kn.toNat)
      match s.parityTrap ((ks.map (fun k => (upto 0 64).map (fun i => key i k))).flatten) with
      | some p => .error (p, false)
      | none => .ok ((ks.map (fun k => (upto 0 64).map (fun i => at' i k))).flatten)))

/-- MACG (R221): the multiply, once the copy has been made; a copy that faults stops the call with its own cause. -/
def execMacg (ra rb : BitVec 4) (k0 kn : BitVec 10) (g : Bool) (q : BitVec 3) (s : State) : Out :=
  s.micro (.macg ra rb k0 kn g q) (fun s x c =>
    if c.fetched then s.denseRings x c ra rb k0.toNat kn.toNat (c.fb != .spt)
    else
      match s.macgCopy c ra rb k0.toNat kn.toNat g q with
      | .error (some t) => .fault t true
      | _ =>
        -- not copied: the multiply's own checks stop it, or it waits for a free slot
        match s.denseRings x c ra rb k0.toNat kn.toNat (c.fb != .spt) with
        | .stop s fl sub => .stop s fl sub
        | _ => .wait s)

/-! MACS (R222). -/

/-- N of an NS code. -/
def sparseN (ns : BitVec 2) : Nat := if ns = 0 then 6 else if ns = 1 then 12 else 24

/-- Whether the position bytes of a column ascend strictly below 48 with bits 7:6 zero. -/
def ascending : List Nat → Bool
  | [] => true
  | [a] => decide (a < 48)
  | a :: b :: r => decide (a < 48) && decide (a < b) && ascending (b :: r)

/-- Whether the positions of one group are legal in every column; `pos` starts at the group's first byte. -/
def groupOk (pos : Array Nat) (N : Nat) : Bool :=
  (upto 0 64).all (fun j => ascending ((upto 0 N).map (fun n => pos.getD (64 * n + j) 255)))

/-- The expanded B of one group: 48 × 64 values (R222). -/
def expandGroup (val : Array Ex) (pos : Array Nat) (N : Nat) : List Ex :=
  ((upto 0 48).map (fun p => (upto 0 64).map (fun j =>
    match (upto 0 N).find? (fun n => pos.getD (64 * n + j) 255 == p) with
    | some n => val.getD (64 * n + j) (.zero false)
    | none => .zero false))).flatten

/-- The groups of a MACS, each checked before its first chunk: the state, the flags, and whether every group was legal. -/
def State.groups (s : State) (c : Call) (A B : List Ex) (pos : List Nat) (N : Nat) : (n : Nat) → (fl : Flags) → State × Flags × Bool
  | 0, fl => (s, fl, true)
  | n + 1, fl =>
    let p := (pos.take (64 * N)).toArray
    if !groupOk p N then (s, fl, false)
    else
      let (s, c, fl) := s.addChunks c (A.take (48 * 64)).toArray (expandGroup (B.take (64 * N)).toArray p N).toArray c.rate (48 / c.rate) 0 fl
      s.groups c (A.drop (48 * 64)) (B.drop (64 * N)) (pos.drop (64 * N)) N n fl

/-- Formats of MACS. -/
def sparseFmt (f : MFmt) : Bool := f == .bf16 || f == .e4m3 || f == .e5m2

/-- MACS (R222). -/
def execMacs (ra rb : BitVec 4) (k0 kn : BitVec 10) (rm : BitVec 4) (ns : BitVec 2) (s : State) : Out :=
  s.micro (.macs ra rb k0 kn rm ns) (fun s x c =>
    let N := sparseN ns
    let core := c.key / 2
    match x.rings.find ra.toNat, x.rings.find rb.toNat, x.rings.find rm.toNat with
    | some a, some b, some p =>
      if ns = 3 then .stop s 0 0x30
      else if !(sparseFmt c.fa && sparseFmt c.fb) then .stop s 0 0x33
      else if !c.holds c.accTile then .stop s 0 0x31
      else
        let depthB := 48 * (b.slot / 4 * perCell c.fb c.efr / (64 * N))
        if k0.toNat % 48 ≠ 0 || kn.toNat % 48 ≠ 0 || kn = 0
            || decide (min (slotDepth a.slot c.fa c.efr) depthB < k0.toNat + kn.toNat) then .stop s 0 0x32
        else if a.filled = 0 || b.filled = 0 || p.filled = 0 then .wait s
        else
          let g := k0.toNat / 48
          let n := kn.toNat / 48
          if s.ringHeld x c.key [headRange a c.fa c.efr (64 * k0.toNat) (64 * kn.toNat), headRange b c.fb c.efr (64 * N * g) (64 * N * n),
              (p.headAddr + 64 * N * g, 64 * N * n)] then .wait s
          else
          match s.headPanel x core a c.fa c.efr (64 * k0.toNat) (64 * kn.toNat) with
          | .error t => .fault t true
          | .ok A =>
            match s.headPanel x core b c.fb c.efr (64 * N * g) (64 * N * n) with
            | .error t => .fault t true
            | .ok B =>
              match s.ringBytes x core (p.headAddr + 64 * N * g) (64 * N * n) with
              | .error t => .fault t true
              | .ok pos =>
                match s.accParity c with
                | some t => .fault t false
                | none =>
                  let (s', fl, ok) := s.groups c A B (pos.map BitVec.toNat) N n 0
                  if ok then .done s' fl (if N = 24 then kn.toNat / (2 * c.rate) else kn.toNat / (4 * c.rate)) (c.upc + 1)
                  else .stop s' fl 0x34
    | _, _, _ => .stop s 0 (if ns = 3 then 0x30 else 0x38))

/-! Rings, the accumulator and the output (R223, R224). -/

/-- UNOP (R225). -/
def execUnop (s : State) : Out := s.micro .unop (fun s _ c => .done s 0 1 (c.upc + 1))

/-- RINGADV (R223). -/
def execRingadv (ring count : BitVec 4) (s : State) : Out :=
  s.micro (.ringadv ring count) (fun s x c =>
    match x.rings.find ring.toNat with
    | none => .stop s 0 0x38
    | some r =>
      if r.filled < count.toNat then .stop s 0 0x38
      else .done (s.modRing c.key ring.toNat (fun r => r.advH count.toNat)) 0 1 (c.upc + 1))

/-- WAITRING (R223). -/
def execWaitring (ring : BitVec 4) (count : Byte) (s : State) : Out :=
  s.micro (.waitring ring count) (fun s x c =>
    match x.rings.find ring.toNat with
    | none => .stop s 0 0x38
    | some r => if r.filled < count.toNat then .wait s else .done s 0 1 (c.upc + 1))

/-- SETC (R224). -/
def execSetc (q : BitVec 3) (s : State) : Out :=
  s.micro (.setc q) (fun s _ c => .done (s.setCall { c with acc := fld (c.q.get q.toNat) 2 0 }) 0 1 (c.upc + 1))

/-- The scaled cells of the accumulator (R224). -/
def Call.scaled (c : Call) (m : Cells 32) (z : Bool) (reg : Nat) (dir : Bool) : List (Nat × Word32 × Flags) :=
  let mode := RMode.of c.rmm
  (upto 0 4096).map (fun e =>
    let k := c.accTile * 4096 + e
    let sg := if z then c.z.get (reg % 4 * 64 + (if dir then e % 64 else e / 64)) else c.c.get reg
    let (y, f) := exMul (fp32.value (m.get k).toNat) (fp32.value sg.toNat)
    let (b, g) := narrow (.fp fp32) y mode false
    (k, BitVec.ofNat 32 b, f ||| g))

/-- ACCSCL (R224). -/
def execAccscl (z : Bool) (reg : BitVec 4) (dir : Bool) (s : State) : Out :=
  s.micro (.accscl z reg dir) (fun s _ c =>
    if (z && decide (4 ≤ reg.toNat)) || (!z && dir) then .stop s 0 0x30
    else if !c.holds c.accTile then .stop s 0 0x31
    else
      match s.parityTrap (upto (c.accTile * 4096) 4096) with
      | some t => .fault t false
      | none =>
        let r := c.scaled s.core.mrf z reg.toNat dir
        .done (s.putCells (r.map (fun e => (e.1, e.2.1)))) (r.foldl (fun a e => a ||| e.2.2) 0) 4 (c.upc + 1))

/-- The words and flags of the accumulator narrowed to a format, by rows or by columns (R224). -/
def Call.outWords (c : Call) (m : Cells 32) (f : Fmt) (sat tr : Bool) : List Word32 × Flags :=
  let w := Fmt.width f c.efr
  let n := Fmt.count f c.efr
  let mode := RMode.of c.rmm
  let el (e : Nat) : Nat × Flags :=
    let x := fp32.value (m.get (c.accTile * 4096 + (if tr then e % 64 * 64 + e / 64 else e))).toNat
    let (b, g) := toFmt f c.efr x mode sat
    (b, g ||| nvOf [x])
  let r := (upto 0 ((4095 + n) / n)).map (fun q =>
    let es := ((upto (q * n) n).filter (fun e => decide (e < 4096))).map el
    (packW w (es.map (fun e => e.1)), es.foldl (fun a e => a ||| e.2) 0))
  (r.map (fun e => e.1), r.foldl (fun a e => a ||| e.2) 0)

/-- CVTOUT (R224). -/
def execCvtout (ring : BitVec 4) (fmt : BitVec 3) (sat tr : Bool) (s : State) : Out :=
  s.micro (.cvtout ring fmt sat tr) (fun s x c =>
    if fmt = 6 then .stop s 0 0x30
    else
      match x.rings.find ring.toNat with
      | none => .stop s 0 0x38
      | some r =>
        let f := Fmt.of fmt
        if !c.holds c.accTile then .stop s 0 0x31
        else if r.slot / 4 * Fmt.count f c.efr < 4096 then .stop s 0 0x35
        else if r.count ≤ r.filled then .wait s
        else
          match s.parityTrap (upto (c.accTile * 4096) 4096) with
          | some t => .fault t false
          | none =>
            let (ws, fl) := c.outWords s.core.mrf f sat tr
            match x.winPieces (c.key / 2) r.tailAddr (4 * ws.length) .ewrite with
            | .error t => .fault t true
            | .ok ps =>
              if s.bankHeld c.key (winKeys ps) then .wait s
              else
              let s := s.winStore ps ((ws.map (fun w => leBytes w.toNat 4)).flatten)
              .done (s.modRing c.key ring.toNat (fun r => r.advT 1)) fl 16 (c.upc + 1))

/-! Sequencing (R225). -/

/-- LOOP of a call (R225). -/
def execMicroLoop (ctr : BitVec 2) (q : BitVec 3) (target : BitVec 11) (s : State) : Out :=
  s.micro (.microLoop ctr q target) (fun s _ c =>
    let n := if c.loops.get ctr.toNat = 0 then (c.q.get q.toNat).setWidth 16 else c.loops.get ctr.toNat
    if n.toNat ≤ 1 then .done (s.setCall { c with loops := c.loops.set ctr.toNat 0 }) 0 1 (c.upc + 1)
    else .done (s.setCall { c with loops := c.loops.set ctr.toNat (n - 1) }) 0 1 target.toNat)

/-- EXIT (R225). -/
def execExit (s : State) : Out := s.micro .exit (fun _ _ _ => .exit)

end Sys2Proof.Machine
end

