-- ==== Sys2Proof/Machine/Engine.lean ====
section
/-! DEFINITION. Engine operations: load blocks (R245-R247), copies (R248-R250), near-memory commands (R251-R253), and HBM refresh
(R254, R255). -/

namespace Sys2Proof.Machine

/-! Forking and completing (R248, R249, R268, R321, R330). -/

/-- An engine operation forks at the focused stream's issue, after every earlier access of the stream (R268). -/
def State.fork (s : State) (k : OpKind) : State :=
  let (id, s) := s.resolveAll.fresh
  let x := s.cur
  let o : Op := { id := id, key := s.curKey, ctx := x.ctx, slot := x.slot, core := s.curKey / 2, task := x.task, kind := k,
                  started := false, tag := x.heatKey, wid := x.wid }
  { s with ops := s.ops ++ [o] }

/-- Whether an operation counts toward the 32 of R248. -/
def Op.queued (o : Op) : Bool :=
  match o.kind with
  | .copy _ => true
  | .fill _ _ _ => true
  | .evict _ _ _ => true
  | .nm _ => true
  | _ => false

/-- Forks one of them, or stalls while 32 are outstanding (R248, R111). -/
def State.forkQ (s : State) (k : OpKind) : Res :=
  if 32 ≤ (s.ops.filter (fun o => o.key == s.curKey && o.queued)).length then .stall true none else .ok (s.fork k)

/-- Changes an operation. -/
def State.modOp (s : State) (id : Nat) (f : Op → Op) : State := { s with ops := mapIf (fun o => o.id == id) f s.ops }

/-- Removes an operation. -/
def State.dropOp (s : State) (id : Nat) : State := { s with ops := s.ops.filter (fun o => o.id != id) }

/-- The saved stream of a holder key. -/
def State.savedOf (s : State) (key : Nat) : Option Saved :=
  if key < 1024 then none else (s.ctxAt ((key - 1024) / 65536)).saved.find? (fun v => v.area == (key - 1024) % 65536)

/-- Changes a saved stream. -/
def State.modSaved (s : State) (ctx area : Nat) (f : Saved → Saved) : State :=
  s.modCtx ctx (fun c => { c with saved := mapIf (fun v => v.area == area) f c.saved })

/-- Writes bytes into a window place of a stream, each word set full: its own completion objects. A saved stream's resident granule is
written in place, and a write into a saved granule waits for the restore (R330). A granule no longer held takes nothing. -/
def State.complete (s : State) (key va : Nat) (bytes : List Byte) : State :=
  match s.savedOf key with
  | some v =>
    if v.full && decide (va < Config.spwbase + 2 ^ 20) then
      s.modSaved ((key - 1024) / 65536) v.area (fun w => { w with helds := w.helds ++ [(va, bytes)] })
    else
      match v.stream.winPieces v.core va bytes.length .ewrite with
      | .ok ps => s.winStore ps bytes
      | .error _ => s
  | none =>
    match s.stream key with
    | some x =>
      match x.winPieces (key / 2) va bytes.length .ewrite with
      | .ok ps => s.winStore ps bytes
      | .error _ => s
    | none => s

/-- Whether the place of a completion object lies in held banks: the fill waits at them (R288). -/
def State.fillHeld (s : State) (key va n : Nat) : Bool :=
  let held (x : Stream) (core : Nat) : Bool :=
    match x.winPieces core va n .ewrite with | .ok ps => s.bankHeld 2048 (winKeys ps) | .error _ => false
  match s.savedOf key with
  | some v => !(v.full && decide (va < Config.spwbase + 2 ^ 20)) && held v.stream v.core
  | none => match s.stream key with | some x => held x (key / 2) | none => false

/-- The status code of a fault (R249, R253). -/
def TrapRec.status (t : TrapRec) : Nat :=
  if t.cause = 0x05 then 1 else if t.cause = 0x06 then 2 else if t.cause = 0x08 then 3 else if t.cause = 0x07 then 4 else 0

/-- ENGINE of R319. -/
def engineTrap (src code va : Nat) : TrapRec := { cause := 0x13, addr := BitVec.ofNat 64 va, info := BitVec.ofNat 64 (src * 4096 + code) }

/-- What a piece of an operation ends in: a wait on a version bump or a bank, or a stop with its status and trap. -/
inductive OpFail where
  | wait
  | stop (code : Nat) (t : TrapRec)

/-- An engine read (R249, R342). -/
def State.opRead (s : State) (x : Stream) (key va n : Nat) : Except OpFail (List Byte × State) :=
  match s.pieces x (key / 2) va n .eread with
  | .error t => .error (.stop t.status t)
  | .ok (ps, s) =>
    if s.piecesWait x.ctx 2048 ps then .error .wait
    else if ps.any (fun p => p.bad s.mem) then .error (.stop 3 (trap68 0x08 va 0xF .eread 0x21))
    else .ok ((s.latDone (s.streamLines ps)).readPieces s.mem.spad key x.slot x.ctx ps)

/-- An engine write, page by page: bytes before a fault stand (R249). -/
def State.opWriteAll (s : State) (x : Stream) (key : Nat) (cnt : Bool) : List (Nat × Nat) → List Byte → State × Option OpFail
  | [], _ => (s, none)
  | (va, n) :: r, l =>
    match s.pieces x (key / 2) va n .ewrite with
    | .error t => (s, some (.stop t.status t))
    | .ok (ps, s') =>
      if s.piecesWait x.ctx 2048 ps then (s, some .wait)
      else ((s'.latDone (s'.streamLines ps)).enginePuts x key cnt ps (l.take n)).opWriteAll x key cnt r (l.drop n)

def State.opWrite (s : State) (x : Stream) (key : Nat) (cnt : Bool) (va : Nat) (l : List Byte) : State × Option OpFail :=
  s.opWriteAll x key cnt (cut 4096 va l.length) l

/-- An operation's piece stops it, or waits. -/
def State.opFail (s : State) (id : Nat) : OpFail → State
  | .wait => s
  | .stop c t => s.modOp id (fun o => { o with status := some c, trap := some t })

/-- A piece of an operation has moved n units of its total. -/
def State.opMoved (s : State) (id n total : Nat) : State :=
  s.modOp id (fun o =>
    let m := o.moved + n
    { o with moved := m, piece := o.piece + 1, status := if total ≤ m then some 0 else none })

/-- One contiguous piece from a source to a destination. -/
def State.opMove (s : State) (x : Stream) (key id : Nat) (cnt : Bool) (src dst n total : Nat) : State :=
  match s.opRead x key src n with
  | .error f => s.opFail id f
  | .ok (l, s') =>
    match s'.opWrite x key cnt dst l with
    | (_, some .wait) => s
    | (s', some f) => s'.opFail id f
    | (s', none) => s'.opMoved id n total

/-! Copies (R248-R250). -/

/-- The 4-bit element i of a byte list. -/
def nibble (l : List Byte) (i : Nat) : Nat := (l.getD (i / 2) 0).toNat / 16 ^ (i % 2) % 16

/-- Writes one nibble, keeping the other of its byte (R250). -/
def State.putNibble (s : State) (x : Stream) (key base i v : Nat) : State × Option OpFail :=
  let va := base + i / 2
  match s.pieces x (key / 2) va 1 .ewrite with
  | .error t => (s, some (.stop t.status t))
  | .ok (ps, s') =>
    let (l, s') := s'.readPieces s'.mem.spad key x.slot x.ctx ps
    let old := (l.headD 0).toNat
    let new := if i % 2 = 0 then old / 16 * 16 + v else v * 16 + old % 16
    s'.opWrite x key true va [BitVec.ofNat 8 new]

/-- Where element j of source row i of a tile goes: byte address and nibble index (R249). -/
def Copy.place (c : Copy) (i j : Nat) : Nat × Nat :=
  if c.layout = 1 then
    (if c.nib then (c.dst + j * c.dstride, i) else (c.dst + j * c.dstride + i * c.esz, 0))
  else (c.dst + ((i / 8 * 8 + j / 8) * 64 + i % 8 * 8 + j % 8) * c.esz, 0)

/-- The bytes of a source row from byte `off` on go to the places of their elements, in order (R249): an E2M1 byte as its two nibbles. -/
def State.tileRow (s : State) (x : Stream) (key : Nat) (c : Copy) (i : Nat) : (off : Nat) → List Byte → State × Option OpFail
  | _, [] => (s, none)
  | off, v :: l =>
    let one (s : State) (e : Nat) : State × Option OpFail :=
      let (a, k) := c.place i (2 * off + e)
      s.putNibble x key a k (v.toNat / 16 ^ e % 16)
    let r := if c.nib then
        (match one s 0 with
         | (s, none) => one s 1
         | r => r)
      else s.opWrite x key true (((c.place i (off / c.esz)).1 + off % c.esz) % 2 ^ 64) [v]
    match r with
    | (s, none) => s.tileRow x key c i (off + 1) l
    | (s, some f) => (s, some f)

/-- The first address of a source range whose page has HOME 10 or 11 (R249). -/
def homeBad (ps : List Piece) : Option Nat :=
  (ps.find? (fun p => match p.pl with | .glob _ e => decide (2 ≤ e.home.toNat) | .win _ => false)).map (fun p => p.va)

/-- The next piece of a copy: a run of a row inside one source page (R249). -/
def State.copyStep (s : State) (x : Stream) (o : Op) (c : Copy) : State :=
  let r := o.moved / c.rowbytes
  let off := o.moved % c.rowbytes
  let total := c.rows * c.rowbytes
  let sa := (c.src + r * c.sstride + off) % 2 ^ 64
  let n := min (c.rowbytes - off) (4096 - sa % 4096)
  if c.layout = 0 then s.opMove x o.key o.id true sa ((c.dst + r * c.dstride + off) % 2 ^ 64) n total
  else
    match s.pieces x (o.key / 2) sa n .eread with
    | .error t => s.opFail o.id (.stop t.status t)
    | .ok (ps, _) =>
      match homeBad ps with
      | some a => s.opFail o.id (.stop 5 (engineTrap 2 5 a))
      | none =>
        match s.opRead x o.key sa n with
        | .error f => s.opFail o.id f
        | .ok (l, s') =>
          match s'.tileRow x o.key c r off l with
          | (_, some .wait) => s
          | (s', some f) => s'.opFail o.id f
          | (s', none) => s'.opMoved o.id n total

/-- The bytes of a descriptor that must lie in held granules (R248, R251). -/
def State.descriptor (s : State) (va : Word64) (n al : Nat) (f : List Word64 → Res) : Res :=
  if va.toNat % al ≠ 0 then .trap (trapMisalign va)
  else
    match s.cur.winPieces (s.curKey / 2) va.toNat n .load with
    | .error t => .trap { t with addr := va }
    | .ok ps =>
      if ps.any (fun p => p.bad s.mem) then .trap (trap68 0x08 va.toNat 0xF .load 0x21)
      else if s.bankHeld s.curKey (winKeys ps) then .stall true none
      else f (words64 (winBytes s.vspad ps))

/-- A window place of n bytes, a multiple of al, that the stream must hold (R245, R248, R251). -/
def State.mustHold (s : State) (va n : Nat) (f : Res) : Res :=
  match s.cur.winPieces (s.curKey / 2) va n .ewrite with
  | .error t => .trap { t with addr := BitVec.ofNat 64 va }
  | .ok _ => f

/-- CPY (R248). -/
def execCpy (a : SReg) (s : State) : Out :=
  finish s (s.unheldAt (s.cur.readS a) (s.descriptor (s.cur.readS a) 40 8 (fun y =>
    let y0 := wordAt y 0
    let y1 := wordAt y 1
    let y2 := wordAt y 2
    let y3 := wordAt y 3
    let y4 := wordAt y 4
    let rows := fld y3 63 48
    let rb := fld y3 47 24
    let lay := fld y3 23 22
    let e := fld y3 21 20
    let src := fld y0 55 0
    let fe := Config.spwbase + fld y4 52 32
    let tell := y4.getLsbD 62
    if fld y4 61 53 ≠ 0 || fld y3 19 0 ≠ 0 || fld y1 63 56 ≠ 0 || fld y0 63 56 ≠ 0 || rows = 0 || rb = 0 || lay = 3
        || (lay ≠ 0 && (e = 3 || rows ≠ 64 || rb ≠ 64 * 2 ^ e || inWindow src)) then .trap (s.illop 0x14)
    else if tell && fe % 4 ≠ 0 then .trap (trapMisalign (BitVec.ofNat 64 fe))
    else
      let c : Copy :=
        { src := src, dst := fld y1 55 0, rows := rows, rowbytes := rb, sstride := fld y2 63 32, dstride := fld y2 31 0, layout := lay,
          esz := 2 ^ e, fe := if tell then some fe else none, tref := if y4.getLsbD 63 then some (s.cur.taskRef (fld y4 31 0)) else none }
      if tell then s.mustHold fe 4 (s.forkQ (.copy c)) else s.forkQ (.copy c))))

/-- CPYT (R250). -/
def execCpyt (f : Fmt) (tr : Bool) (d a b : SReg) (s : State) : Out :=
  let dst := s.cur.readS d
  let src := s.cur.readS a
  let fe := s.cur.readS b
  let rb := 8 * Fmt.width f 0
  finish s (s.unheldAt src
    (if src.toNat % 128 ≠ 0 then .trap (trapMisalign src)
     else if dst.toNat % 128 ≠ 0 then .trap (trapMisalign dst)
     else if fe.toNat % 4 ≠ 0 then .trap (trapMisalign fe)
     else if tr && inWindow src.toNat then .trap (s.illop 0x14)
     else
       let c : Copy :=
         { src := src.toNat, dst := dst.toNat, rows := 64, rowbytes := rb, sstride := rb, dstride := rb, layout := if tr then 1 else 0,
           esz := rb / 64, nib := f == .e2m1 && tr, fe := some fe.toNat }
       s.mustHold fe.toNat 4 (s.forkQ (.copy c))))

/-- The trap of an operation sets out for its stream, where it becomes pending in a later cycle (R321, R366); a saved stream's waits with its saved traps. -/
def State.opTrap (s : State) (o : Op) : State :=
  match o.trap with
  | none => s
  | some t =>
    match s.savedOf o.key with
    | some v => s.modSaved o.ctx v.area (fun w => { w with stream := { w.stream with async := w.stream.async ++ [t] } })
    | none => { s with ops := s.ops.filter (fun p => p.id != o.id) ++ [{ o with kind := .trap }] }

/-- A completion with a status word: it is a release at level 3 that covers the operation's writes (R269). -/
def State.opStatus (s : State) (o : Op) (fe : Option Nat) (code : Nat) : State :=
  let s := s.relAll o.key 3 (some o.id)
  match fe with
  | some a => s.complete o.key a (leBytes code 4)
  | none => s

/-- COPY_COMPLETE (R249): the status word, then for OK the decrement, then any trap. -/
def execCopyComplete (id : Nat) (s : State) : Out :=
  .next (match s.ops.find? (fun o => o.id == id) with
    | some o =>
      match o.kind, o.status with
      | .copy c, some code =>
        if (match c.fe with | some a => s.fillHeld o.key a 4 | none => false) then s
        else
        let s := (s.opStatus o c.fe code).dropOp id
        let s := match c.tref with
          | some t => if code = 0 then s.sendDec o.key t 1 else s
          | none => s
        s.opTrap o
      | _, _ => s
    | none => s)

/-! Load blocks (R245-R247). -/

/-- Whether an entry number is outside the stream's range (R245). -/
def State.blkOut (s : State) (e : Nat) : Bool := s.cur.tiles4 && decide (32 ≤ e)

/-- Sets the completion word of an entry empty. -/
def State.fewEmpty (s : State) (few : Nat) : State :=
  match s.cur.winPieces (s.curKey / 2) few 4 .ewrite with
  | .ok ps => s.feSet ps false
  | .error _ => s

/-- Whether the n bytes of a completion object that the focused stream empties at issue lie in held banks: the bundle waits (R288). -/
def State.fewHeld (s : State) (va n : Nat) : Bool :=
  match s.cur.winPieces (s.curKey / 2) va n .ewrite with
  | .ok ps => s.bankHeld s.curKey (winKeys ps)
  | .error _ => false

/-- Records an entry and forks its fill, after the write-back of the block it held. -/
def State.startFill (s : State) (e : Nat) (b : LBlk) (old : Option LBlk) (f : State → State) : Res :=
  if s.fewHeld b.few 4 then .stall true none
  else
    (s.forkQ (.fill e b old)).bind (fun s =>
      .ok (f ({ s with cur := { s.cur with blks := s.cur.blks.put e { b with valid := true, filling := true, evicting := false } } }.fewEmpty b.few)))

/-- LBLK (R245). -/
def execLblk (a : SReg) (b : SOp) (s : State) : Out :=
  let e := fld (s.cur.readOp b) 5 0
  let va := s.cur.readS a
  finish s (s.unheldAt va
    (if s.blkOut e then .trap (s.illop 0x14)
     else
       s.access va 24 8 .load (fun ps s =>
         if s.dramWait ps then .stall true none
         else
         let (l, s) := s.readNow ps
         let b0 := wordAt (words64 l) 0
         let b1 := wordAt (words64 l) 1
         let b2 := wordAt (words64 l) 2
         let blk : LBlk := { tag := fld b0 55 0, slot := fld b1 55 0, few := fld b2 55 0, lines := fld b0 63 58 + 1, wb := b1.getLsbD 63 }
         if fld b2 63 56 ≠ 0 || fld b1 62 56 ≠ 0 || fld b0 57 56 ≠ 0 then .trap (s.illop 0x14)
         else if blk.slot % 128 ≠ 0 then .trap (trapMisalign (BitVec.ofNat 64 blk.slot))
         else if blk.tag % 128 ≠ 0 then .trap (trapMisalign (BitVec.ofNat 64 blk.tag))
         else if blk.few % 4 ≠ 0 then .trap (trapMisalign (BitVec.ofNat 64 blk.few))
         else
           let old := match s.cur.blks.find e with | some q => if q.valid && !q.evicting then some q else none | none => none
           s.mustHold blk.slot (128 * blk.lines) (s.mustHold blk.few 4 (s.startFill e blk old id)))))

/-- PROBE (R246). It follows an EVICT of the entry that is under way (R245): it finds the entry invalid. -/
def execProbe (k : BitVec 3) (d a : SReg) (b : SOp) (s : State) : Out :=
  let e := fld (s.cur.readOp b) 5 0
  let va := (s.cur.readS a).toNat
  let res (v : Nat) (fill : Bool) : List Tgt :=
    .s d.toNat (BitVec.ofNat 64 v) :: (if k = 0 then [] else [.p k.toNat fill])
  finish s (s.unheldAt (s.cur.readS a)
    (match (if s.blkOut e then none else s.cur.blks.find e) with
     | none => .trap (s.illop 0x14)
     | some q =>
       let n := 128 * q.lines
       if q.valid && !q.evicting && decide (q.tag ≤ va) && decide (va < q.tag + n) then .ok (s.sb (res (q.slot + (va - q.tag)) q.filling))
       else if !([1, 2, 4, 8, 16, 32, 64].contains q.lines) then .trap (s.illop 0x14)
       else
         let tag := va / n * n
         s.startFill e { q with tag := tag } (if q.valid && !q.evicting then some q else none) (fun s => s.sb (res (q.slot + (va - tag)) true))))

/-- EVICT (R247): the entry stays valid until the eviction is done. One issued while another invalidates the entry finds it invalid in its turn. -/
def execEvict (mode : EvMode) (b : SOp) (s : State) : Out :=
  let e := fld (s.cur.readOp b) 5 0
  finish s (s.unheld
    (match (if s.blkOut e then none else s.cur.blks.find e) with
     | none => .trap (s.illop 0x14)
     | some q =>
       if s.fewHeld q.few 4 then .stall true none
       else if !q.valid then .ok (s.complete s.curKey q.few (leBytes 0 4))
       else
         let keep := mode == EvMode.writeKeep
         (s.forkQ (.evict e mode (if q.evicting then { q with wb := false } else q))).bind (fun s =>
           .ok ({ s with cur := { s.cur with blks := s.cur.blks.put e { q with evicting := q.evicting || !keep } } }.fewEmpty q.few))))

/-- The entry a load-block operation works on. -/
def Op.entry (o : Op) : Option Nat :=
  match o.kind with
  | .fill e _ _ => some e
  | .evict e _ _ => some e
  | _ => none

/-- Whether an earlier operation on the same entry is not complete (R245). -/
def State.blkBehind (s : State) (o : Op) : Bool :=
  (s.ops.takeWhile (fun p => p.id != o.id)).any (fun p => p.key == o.key && p.entry.isSome && p.entry == o.entry)

/-- The next piece of a load-block operation: a block's write-back, then a fill (R245-R247). -/
def State.blkStep (s : State) (x : Stream) (o : Op) (back : Option LBlk) (fill : Option LBlk) : State :=
  let nb := match back with | some q => 128 * q.lines | none => 0
  let nf := match fill with | some q => 128 * q.lines | none => 0
  let piece (src dst m n : Nat) : State := s.opMove x o.key o.id false (src + m) (dst + m) (min (n - m) (4096 - (src + m) % 4096)) (nb + nf)
  if o.moved < nb then
    match back with
    | some q => piece q.slot q.tag o.moved nb
    | none => s
  else
    match fill with
    | some q => if o.moved - nb < nf then piece q.tag q.slot (o.moved - nb) nf else s.modOp o.id (fun o => { o with status := some 0 })
    | none => s.modOp o.id (fun o => { o with status := some 0 })

/-- LOAD_BLOCK_FILL_COMPLETE (R245): the entry becomes ready, and FEW receives the status word. An entry whose fill stopped is no longer
valid. -/
def execLoadBlockFillComplete (id : Nat) (s : State) : Out :=
  .next (match s.ops.find? (fun o => o.id == id) with
    | some o =>
      match o.kind, o.status with
      | .fill e b _, some code =>
        if s.fillHeld o.key b.few 4 then s
        else
        let s := s.dropOp id
        let later := s.ops.any (fun p => p.key == o.key && (match p.kind with | .fill e' _ _ => e' == e | _ => false))
        let s := s.modStream o.key (fun x =>
          match x.blks.find e with
          | some q => if later then x else { x with blks := x.blks.put e { q with filling := false, valid := q.valid && code == 0 } }
          | none => x)
        (s.opStatus o (some b.few) code).opTrap o
      | _, _ => s
    | none => s)

/-- LOAD_BLOCK_EVICT_COMPLETE (R247): the eviction is done, the entry is invalid unless it was kept or recorded anew, and FEW receives the status
word. An entry whose write-back stopped stays valid. -/
def execLoadBlockEvictComplete (id : Nat) (s : State) : Out :=
  .next (match s.ops.find? (fun o => o.id == id) with
    | some o =>
      match o.kind, o.status with
      | .evict e mode b, some code =>
        if s.fillHeld o.key b.few 4 then s
        else
        let s := s.dropOp id
        let later := s.ops.any (fun p => p.key == o.key && (match p.kind with | .fill e' _ _ => e' == e | _ => false))
        let s := s.modStream o.key (fun x =>
          match x.blks.find e with
          | some q => if later || mode == EvMode.writeKeep || !q.evicting then x
                      else { x with blks := x.blks.put e { q with valid := q.valid && code != 0, evicting := false } }
          | none => x)
        (s.opStatus o (some b.few) code).opTrap o
      | _, _ => s
    | none => s)

/-! Near-memory commands (R251-R253). -/

/-- NMOP (R251). -/
def execNmop (a : SReg) (s : State) : Out :=
  finish s (s.unheldAt (s.cur.readS a) (s.descriptor (s.cur.readS a) 64 64 (fun n =>
    let n0 := wordAt n 0
    let n1 := wordAt n 1
    let n2 := wordAt n 2
    let n3 := wordAt n 3
    let n4 := wordAt n 4
    let op := fld n0 63 60
    let w := fld n0 55 0
    let stat := fld n4 55 0
    if (n.drop 5).any (fun v => v != 0) || fld n4 63 56 ≠ 0 || fld n2 31 0 ≠ 0 || fld n1 63 56 ≠ 0 || fld n0 58 56 ≠ 0 || op = 0
        || decide (4 < op) || fld n2 63 32 = 0 || (decide (3 ≤ op) && fld n1 55 0 ≠ 0) then .trap (s.illop 0x14)
    else if w % 128 ≠ 0 then .trap (trapMisalign (BitVec.ofNat 64 w))
    else if stat % 8 ≠ 0 then .trap (trapMisalign (BitVec.ofNat 64 stat))
    else
      let c : Nm := { op := op, bf16 := n0.getLsbD 59, w := w, x := fld n1 55 0, count := fld n2 63 32, a := n3.extractLsb' 32 32,
                      b := n3.extractLsb' 0 32, stat := stat }
      s.mustHold stat 8 (if s.fewHeld stat 8 then .stall true none
        else (s.forkQ (.nm c)).bind (fun s => .ok ((s.fewEmpty stat).fewEmpty (stat + 4)))))))

/-- An element of a near-memory command (R252): the exact value, rounded once. -/
def Nm.elem (c : Nm) (w x : Nat) : Nat × Flags :=
  let F := if c.bf16 then Machine.bf16 else fp32
  let a := fp32.value c.a.toNat
  let b := fp32.value c.b.toNat
  let w := F.value w
  let x := F.value x
  let add (p q : Ex × Flags) : Ex × Flags := let (y, f) := exAdd .rne p.1 q.1; (y, f ||| p.2 ||| q.2)
  let mul (p : Ex) (q : Ex × Flags) : Ex × Flags := let (y, f) := exMul p q.1; (y, f ||| q.2)
  let (y, f) :=
    match c.op with
    | 1 => let (y, f) := mul a (add (x, 0) (mul b (w, 0))); add (w, 0) (y.neg, f)
    | 2 => add (mul a (x, 0)) (mul b (w, 0))
    | 3 => (a, nvOf [a])
    | _ => mul a (w, 0)
  let (v, g) := narrow (.fp F) y .rne false
  (v, f ||| g)

/-- A region of a near-memory piece: its pages must have HOME 00 or 01 and lie in the command's stack (R253). -/
def nmPages (stack : Option Nat) (ps : List Piece) : Except (Nat × Nat) (Option Nat) :=
  ps.foldl (fun (a : Except (Nat × Nat) (Option Nat)) p =>
    match a with
    | .error e => .error e
    | .ok st =>
      match p.pl with
      | .win _ => .error (6, p.va)
      | .glob pa e =>
        if 2 ≤ e.home.toNat then .error (5, p.va)
        else if st.isSome && st != some (pa / 2 ^ 37) then .error (6, p.va)
        else .ok (some (pa / 2 ^ 37))) (.ok stack)

/-- Global pieces whose HOME is left to the command to judge: an OWNERSHIP fault of a page of another core is its HOME status (R253). -/
def nmFault (t : TrapRec) : Nat × TrapRec :=
  if t.cause = 0x07 then
    (if inWindow t.addr.toNat then (6, engineTrap 3 6 t.addr.toNat) else (5, engineTrap 3 5 t.addr.toNat))
  else (t.status, t)

/-- The issuer's earlier writes to the regions are performed before the command reads or writes them (R268). -/
def State.drainPieces (s : State) (key : Nat) (ps : List Piece) : State :=
  ps.foldl (fun (s : State) p => match p.pl with | .glob pa _ => s.drainOn key pa p.n | .win _ => s) s

/-- Writes base-die results: no key, no tags; the slices and replicas give up their copies (R253, R273). -/
def State.nmPut (s : State) (ctx slot : Nat) (ps : List Piece) (l : List Byte) : State :=
  let put (s : State) (e : Tlb) (pa : Nat) (l : List Byte) : State :=
    (cut 128 pa l.length).foldl (fun (s : State) r =>
      let s := s.homePut ctx e.buf r.1 ((l.drop (r.1 - pa)).take r.2)
      { s with mem := { s.mem with reps := s.mem.reps.filter (fun q => q.1 / 4 != r.1 / 128) } }.feedReplicas none ctx e.buf r.1 r.2) s
  match ps with
  | [] => s
  | p :: r =>
    match p.pl with
    | .glob pa e => ((put s e pa (l.take p.n)).bucketCount slot (upto p.va p.n)).nmPut ctx slot r (l.drop p.n)
    | .win _ => s.nmPut ctx slot r (l.drop p.n)

/-- The next 4 KiB piece of a near-memory command (R253): every read before any write. -/
def State.nmStep (s : State) (x : Stream) (o : Op) (c : Nm) : State :=
  let size := if c.bf16 then 2 else 4
  let wa := c.w + o.moved * size
  let n := min (c.count - o.moved) ((4096 - wa % 4096) / size)
  let x := { x with det := false }
  let fail (code : Nat) (t : TrapRec) : State := s.opFail o.id (.stop code t)
  let xs (s : State) : Except TrapRec (List Piece × State) :=
    if 3 ≤ c.op then .ok ([], s) else s.pieces x (o.key / 2) (c.x + o.moved * size) (n * size) .eread
  match s.pieces x (o.key / 2) wa (n * size) .ewrite with
  | .error t => fail (nmFault t).1 (nmFault t).2
  | .ok (wp, s1) =>
    match xs s1 with
    | .error t => fail (nmFault t).1 (nmFault t).2
    | .ok (xp, s2) =>
      match nmPages c.stack wp with
      | .error (code, a) => fail code (engineTrap 3 code a)
      | .ok st =>
        match nmPages st xp with
        | .error (code, a) => fail code (engineTrap 3 code a)
        | .ok _ =>
          if s2.piecesWait x.ctx 2048 (wp ++ xp) then s
          else
            let s2 := (s2.latDone (s2.streamLines (wp ++ xp))).drainPieces o.key (wp ++ xp)
            let rd (ps : List Piece) : List Byte :=
              (ps.map (fun p => match p.pl with | .glob pa e => s2.homeBytes x.ctx e.buf pa p.n | .win _ => [])).flatten
            let wl := rd wp
            let xl := rd xp
            let el (l : List Byte) (i : Nat) : Nat := leNat ((l.drop (size * i)).take size)
            let r := (upto 0 n).map (fun i => c.elem (el wl i) (el xl i))
            let s3 := s2.nmPut x.ctx x.slot wp ((r.map (fun e => leBytes e.1 size)).flatten)
            let fl := r.foldl (fun a e => a ||| e.2) 0
            let s3 := s3.modOp o.id (fun o => { o with flags := o.flags ||| fl, kind := .nm { c with stack := st } })
            s3.opMoved o.id n c.count

/-- NMOP_COMPLETE (R253, R365, R366): word 1, then word 0, then any trap. -/
def execNmopComplete (id : Nat) (s : State) : Out :=
  .next (match s.ops.find? (fun o => o.id == id) with
    | some o =>
      match o.kind, o.status with
      | .nm c, some code =>
        if s.fillHeld o.key c.stat 8 then s
        else
        let s := s.relAll o.key 3 (some o.id)
        let s := s.complete o.key (c.stat + 4) (leBytes o.moved 4)
        let s := s.complete o.key c.stat (leBytes (code * 2 ^ 24 + o.flags.toNat * 2 ^ 16) 4)
        (s.dropOp id).opTrap o
      | _, _ => s
    | none => s)

/-- The progress of a copy, load-block operation or near-memory command by one piece. A cut operation makes none (R328). -/
def State.opStep (s : State) (o : Op) : State :=
  match s.stream o.key with
  | none => s
  | some x =>
    if o.cut || o.status.isSome then s
    else if !o.started then (if x.halted then s else s.modOp o.id (fun o => { o with started := true }))
    else
      match o.kind with
      | .copy c => s.copyStep x o c
      | .fill _ b old =>
        if s.blkBehind o then s
        else s.blkStep x o (match old with | some q => if q.wb then some q else none | none => none) (some b)
      | .evict _ mode b => if s.blkBehind o then s else s.blkStep x o (if mode != EvMode.drop && b.wb then some b else none) none
      | .nm c => s.nmStep x o c
      | _ => s

/-! Refresh (R254, R255, R362). -/

/-- The ranges that the next piece of a stream's operation reads or writes. -/
def Op.next (o : Op) : List (Nat × Nat × AKind) :=
  match o.kind with
  | .copy c =>
    let r := o.moved / c.rowbytes
    let off := o.moved % c.rowbytes
    let sa := c.src + r * c.sstride + off
    let n := min (c.rowbytes - off) (4096 - sa % 4096)
    (sa, n, .eread) ::
      (if c.layout = 0 then [(c.dst + r * c.dstride + off, n, .ewrite)]
       else (upto 0 (if c.nib then 2 * n else n)).map (fun k =>
         if c.nib then ((c.place r (2 * off + k)).1 + (c.place r (2 * off + k)).2 / 2, 1, .ewrite)
         else ((c.place r ((off + k) / c.esz)).1 + (off + k) % c.esz, 1, .ewrite)))
  | .fill _ b old =>
    let nb := match old with | some q => if q.wb then 128 * q.lines else 0 | none => 0
    if o.moved < nb then (match old with | some q => [(q.tag + o.moved, min (nb - o.moved) 4096, .ewrite)] | none => [])
    else [(b.tag + (o.moved - nb), min (128 * b.lines - (o.moved - nb)) 4096, .eread)]
  | .evict _ _ b => if b.wb then [(b.tag + o.moved, min (128 * b.lines - o.moved) 4096, .ewrite)] else []
  | .nm c =>
    let size := if c.bf16 then 2 else 4
    let n := min 4096 ((c.count - o.moved) * size)
    (c.w + o.moved * size, n, .ewrite) :: (if 3 ≤ c.op then [] else [(c.x + o.moved * size, n, .eread)])
  | _ => []

/-- The HOME = 01 lines of ranges of a stream, each with LAT. -/
def State.linesOf (s : State) (x : Stream) (core : Nat) (rs : List (Nat × Nat × AKind)) : List (Nat × Bool) :=
  (rs.map (fun r => match s.pieces x core (r.1 % 2 ^ 64) r.2.1 r.2.2 with | .ok (ps, _) => s.streamLines ps | .error _ => [])).flatten

/-- The lines that a pending write takes to DRAM; one of a tagged heat is held in the slice (R273). -/
def State.writeLines (s : State) (w : PWrite) : List Nat := if w.tag.isSome then [] else s.streamed w.home w.pa w.bytes.length

/-- The DRAM lines of the requests queued or in service: those of loads, writes not performed, the next pieces of running operations,
the copies of running calls (R221), the line that a stream waits to fetch, and the window agent's next record (R200). -/
def State.dramLoads (s : State) : List (Nat × Bool) :=
  let xs := s.allStreams
  let loads := (xs.map (fun e => (e.2.pend.map (fun p =>
    (p.dram.filter (fun r => r.stage == 1 || r.stage == 2)).map (fun r => (r.pa, r.lat)))).flatten)).flatten
  let stores := (s.mem.wq.map (fun w => (s.writeLines w).map (fun a => (a, w.lat)))).flatten
  let engines := ((s.ops.filter (fun o => o.started && !o.cut && o.status.isNone)).map (fun o =>
    match s.stream o.key with | some x => s.linesOf x (o.key / 2) o.next | none => [])).flatten
  let fetches := (xs.map (fun e =>
    if e.2.ending = 0 && !e.2.stopped && e.2.bundle.isNone && !e.2.code.any (fun l => l.1 == e.2.pc.toNat / 128 * 128)
    then s.linesOf e.2 (e.1 / 2) [(e.2.pc.toNat / 128 * 128, 128, .fetch)] else [])).flatten
  let spills := (xs.map (fun e =>
    let p := (s.rank e.2.slot).stkptr.toNat
    if e.2.winAgent = 1 then s.linesOf e.2 (e.1 / 2) [(p, 272, .ewrite)]
    else if e.2.winAgent = 2 then s.linesOf e.2 (e.1 / 2) [(p - 272, 272, .eread)] else [])).flatten
  let copies := ((upto 0 512).map (fun k =>
    match (s.coreOf k).calls with
    | c :: _ => if !c.running then [] else (match s.stream c.key with | some x => s.linesOf x k ((s.focus (2 * k)).macgReads c) | none => [])
    | [] => [])).flatten
  loads ++ stores ++ engines ++ fetches ++ spills ++ copies

/-- Whether a latency-critical request waits on a channel, in a bank group when one is given (R254). -/
def State.latReq (s : State) (ch : Nat) (grp : Option Nat) : Bool :=
  s.dramLoads.any (fun r => r.2 && dramChan r.1 == ch && (match grp with | some g => dramBank r.1 % 4 == g | none => true))

def State.putChan (s : State) (ch : Nat) (p : PChan) : State := { s with mem := { s.mem with chans := s.mem.chans.put ch p } }

/-- A refresh that waits for accesses in service to end begins when they have; it closes the rows (R254, R363). -/
def State.startDue (s : State) (ch : Nat) : State :=
  let p := s.mem.chans.at ch {}
  if p.allDue then
    (if (upto 0 16).any (s.bankBusy ch) then s else s.putChan ch { p with allDue := false, due := [], busy := upto 0 16, rows := [] })
  else
    let go := p.due.filter (fun b => !s.bankBusy ch b)
    s.putChan ch { p with due := p.due.filter (fun b => !go.contains b), busy := p.busy ++ go,
                          rows := p.rows.filter (fun r => !go.contains r.1) }

/-- REFRESH_DUE (R254): postponed, all banks, or the bank itself; the refresh begins when the accesses in service have ended. -/
def execRefreshDue (stack pc bank : Nat) (s : State) : Out :=
  let ch := stack * 64 + pc
  let p := s.mem.chans.at ch {}
  .next (if s.latReq ch (some (bank % 4)) && decide (p.owed.length < 8) then s.putChan ch { p with owed := p.owed ++ [bank] }
    else if s.latReq ch (some (bank % 4)) then (s.putChan ch { p with owed := [], allDue := true }).startDue ch
    else (s.putChan ch { p with due := p.due ++ [bank] }).startDue ch)

/-- OWED_REFRESH_PAYMENT (R255): the oldest owed refresh, once the channel has had no latency-critical request for 400 cycles. -/
def execOwedRefreshPayment (stack pc : Nat) (s : State) : Out :=
  let ch := stack * 64 + pc
  let p := s.mem.chans.at ch {}
  .next (match p.owed with
    | [] => s
    | b :: r =>
      if s.latReq ch none || decide (s.cycle.toNat < p.lastLat + 400) || !p.busy.isEmpty || !p.due.isEmpty || p.allDue then s
      else (s.putChan ch { p with owed := r, due := [b] }).startDue ch)

/-- A request of a load moves on: to the controller, into service when its bank serves no other and no refresh is there or due, out of service
(R254, R363). -/
def State.dramStep (s : State) (key id i : Nat) : State :=
  match (s.stream key).bind (fun x => (x.pend.find? (fun p => p.id == id)).bind (fun p => p.dram[i]?)) with
  | none => s
  | some r =>
    if r.stage = 1 && (s.refreshing r.pa || s.bankBusy (dramChan r.pa) (dramBank r.pa)) then s
    else
      let s := s.modStream key (fun x => { x with
        pend := mapIf (fun p => p.id == id) (fun p => { p with dram := p.dram.set i { r with stage := min 3 (r.stage + 1) } }) x.pend })
      if r.stage = 2 then s.latDone [(r.pa, r.lat)] else s

/-- REFRESH_END (R255): a bank's refresh ends, and its requests enter service. -/
def execRefreshEnd (stack pc bank : Nat) (s : State) : Out :=
  let ch := stack * 64 + pc
  let p := s.mem.chans.at ch {}
  .next (if p.busy.contains bank then s.putChan ch { p with busy := p.busy.filter (fun b => b != bank) } else s)

/-- Registers and cells a result writes, for the order of R111: scalar r, predicate 32 + n, cell 64 + key. -/
def Tgt.keys : Tgt → List Nat
  | .s r _ => [r]
  | .p r _ => [32 + r]
  | .srd d _ => [d.toNat]
  | .ev (.reg r) _ _ => [r.toNat]
  | .ev (.pred n) _ _ => [32 + n.toNat]
  | .evTake (.reg r) _ _ => [r.toNat]
  | .evTake (.pred n) _ _ => [32 + n.toNat]
  | .cells cs => cs.map (fun c => 64 + c.1)
  | _ => []

/-- Whether two lists of results meet. -/
def tgtsMeet (a b : List Tgt) : Bool := a.any (fun t => t.keys.any (fun k => b.any (fun u => u.keys.contains k)))

/-- Whether a load that has not read waits for a version bump (R72). -/
def State.loadWaits (s : State) (x : Stream) (p : Pend) : Bool :=
  match p.rd with
  | some r => r.parts.any (fun q => q.win.isNone && s.bumping x.ctx q.piece)
  | none => false

/-- Whether a pending result may land: no earlier result to the same destination is under way (R111), its DRAM requests are served (R255, R363), no
buffer it reads is being bumped (R72). -/
def State.landable (s : State) (x : Stream) (p : Pend) : Bool :=
  p.dram.all (fun r => r.stage == 3) && !s.loadWaits x p
    && !(x.pend.takeWhile (fun q => q.id != p.id)).any (fun q => tgtsMeet q.tgts p.tgts || s.loadWaits x q)
    && !x.land.any (fun e => tgtsMeet [e.tgt] p.tgts)

/-- A pending result lands: its registers and cells, its flags. -/
def State.landPend (s : State) (p : Pend) : State :=
  let (x, m) := applyAll s.cur s.core.mrf p.tgts
  let x := { x with pend := x.pend.filter (fun q => q.id != p.id), flags := x.flags ||| p.flags }
  let keys := (p.tgts.map (fun t => t.cellKeys)).flatten
  { s with cur := x, core := { s.core with mrf := m, parity := s.core.parity.filter (fun k => !keys.contains k) } }

/-- SCOREBOARD_RESULT_LANDS (R111, R255): a load that has not read reads now (R258). -/
def execScoreboardResultLands (key id : Nat) (s : State) : Out :=
  let s := s.focus key
  .next (match s.cur.pend.find? (fun p => p.id == id) with
    | none => s
    | some p =>
      if !s.curLive || !s.landable s.cur p then s
      else
        let s := s.resolveFor p
        let p := (s.cur.pend.find? (fun q => q.id == id)).getD p
        s.landPend p)

end Sys2Proof.Machine
end

