-- ==== Sys2Proof/Machine/Sync.lean ====
section
/-! DEFINITION. Fences and ICINV (R266, R267), atomics (R281-R283), deques (R284-R286), and the steps by which writes are performed
(R258, R260). -/

namespace Sys2Proof.Machine

/-! Fences (R266). -/

/-- Whether every earlier load of the focused stream has returned. -/
def State.loadsDone (s : State) : Bool := s.cur.pend.isEmpty

/-- FENCE.ACQ (R266). A load of its own bundle's C0 slot stands before it, and reads before it acts. -/
def execFenceAcq (n : BitVec 3) (s : State) : Out :=
  finish s (s.unheld (if s.before.loadsDone then .ok (s.resolveAll.acq s.curKey n.toNat) else .stall true none))

/-- Whether a releasing fence need wait no more: every access before its bundle performed, for stores at their homes and at every replica within
the level (R266). -/
def State.fenceDone (s : State) (n : BitVec 3) : Bool := s.before.loadsDone && s.before.released s.curKey n.toNat

/-- What a releasing fence then does: the release, of everything before it, a store of its own bundle's C0 slot too. The stream's later stores carry it
(R264): what dies outside the level have not applied is still on its way to them. -/
def State.fenceRel (s : State) (n : BitVec 3) : State :=
  let s := s.relMem s.curKey n.toNat
  let ids := s.relSet s.curKey
  let old := s.cur.fences.filter (fun e => e.ids.any s.mem.isOpen)
  { s with cur := { s.cur with fences := if ids.isEmpty then old else { level := n.toNat, ids := ids } :: old } }

/-- FENCE.REL (R266). -/
def execFenceRel (n : BitVec 3) (s : State) : Out :=
  finish s (s.unheld (if s.fenceDone n then .ok (s.fenceRel n) else .stall true none))

/-- FENCE.FULL (R266). -/
def execFenceFull (n : BitVec 3) (s : State) : Out :=
  finish s (s.unheld (if s.fenceDone n then .ok ((s.fenceRel n).acq s.curKey n.toNat) else .stall true none))

/-- Whether an engine operation is one that a join waits for. -/
def Op.joins (o : Op) : Bool :=
  match o.kind with
  | .gran _ _ _ _ => false
  | .dec _ _ _ => false
  | .trap => false
  | _ => true

/-- Whether every engine operation of a stream has completed or stopped, except Tulle requests parked at a home slice (R266). -/
def State.joined (s : State) (key : Nat) : Bool :=
  !s.ops.any (fun o => o.key == key && o.joins)
    && !s.treqs.any (fun t => t.key == key && !t.parked)
    && !(s.coreOf (key / 2)).calls.any (fun c => c.key == key)
    && (match s.stream key with | some x => x.winAgent != 1 && x.winAgent != 2 | none => true)

/-- FENCE.JOIN (R266, R269): the join of every engine operation, with the flags of the calls (R214), then an acquire. -/
def execFenceJoin (n : BitVec 3) (s : State) : Out :=
  finish s (s.unheld (if s.before.joined s.curKey then .ok ((s.joinMem s.curKey).joinCalls.resolveAll.acq s.curKey n.toNat) else .stall true none))

/-! ICINV (R267). -/

/-- Translates each page of a range as ICINV does: no check of W, X or poison. -/
def State.icinvPages (s : State) (core slot : Nat) : List (Nat × Nat) → Except TrapRec (List (Nat × Nat) × State)
  | [] => .ok ([], s)
  | (va, n) :: r =>
    if 2 ^ 56 ≤ va then .error (trap68 0x05 va 0xF .load 0x01)
    else
      match s.leaf core slot va .load with
      | .error t => .error t
      | .ok (e, _, s) =>
        match s.icinvPages core slot r with
        | .error t => .error t
        | .ok (l, s) => .ok ((e.phys va, n) :: l, s)

/-- ICINV (R267): 32 cycles and one for every 16 lines. -/
def execIcinv (n : BitVec 3) (a : SReg) (b : SOp) (s : State) : Out :=
  let va := (s.cur.readS a).toNat
  let len := fld (s.cur.readOp b) 31 0
  finish s (s.unheldAt (s.cur.readS a)
    (if 2 ^ 24 ≤ len || (len ≠ 0 && decide (va < 2 ^ 56) && decide (Config.spwbase < va + len)) then .trap (s.illop 0x14)
     else if len = 0 then .ok s
     else
       orTrap (s.icinvPages (s.curKey / 2) s.cur.slot (cut 4096 va len)) (fun (ps, s) =>
         let lines := (ps.map (fun p => (cut 128 p.1 p.2).map (fun r => r.1 / 128))).flatten
         s.stallFor (32 + lines.length / 16) (.ok { s with mem := { s.mem with
           reps := s.mem.reps.filter (fun q => !(lines.contains (q.1 / 4) && s.inScope n.toNat (s.curKey / 2) (q.1 % 4))) } }))))

/-! Atomics (R281-R283). -/

/-- Bytes of an atomic's size. -/
def aszLen : ASz → Nat
  | .b1 => 1
  | .b2 => 2
  | .b4 => 4
  | .b8 => 8
  | .b16 => 16

/-- The value of a register, or of an even pair for 16 bytes (R281). -/
def Stream.pairVal (x : Stream) (r : SReg) (n : Nat) : Nat :=
  if n = 16 then (x.readS r).toNat + 2 ^ 64 * (if r = 0 then x.s.get 1 else x.readS (r + 1)).toNat else (x.readS r).toNat % 2 ^ (8 * n)

/-- The operand value of an atomic. -/
def State.atomArg (s : State) (b : SOp) (n : Nat) : Nat :=
  match b with
  | .reg r => s.cur.pairVal r n
  | o => (s.cur.readOp o).toNat % 2 ^ (8 * n)

/-- The results of an atomic: the old value, in a register or an even pair whose writes to s0 and s1 are discarded. -/
def atomTgts (d : SReg) (n : Nat) (sx : Bool) (old : Nat) : List Tgt :=
  if n = 16 then
    (if d = 0 then [] else [.s d.toNat (BitVec.ofNat 64 old), .s (d.toNat + 1) (BitVec.ofNat 64 (old / 2 ^ 64))])
  else [.s d.toNat (if sx && decide (2 ^ (8 * n - 1) ≤ old) then BitVec.ofInt 64 ((old : Int) - 2 ^ (8 * n)) else BitVec.ofNat 64 old)]

/-- An atomic at its home slice (R282): `op` gives the new value, if it writes, and flags. One that orders is a release and an acquire at level 3
(R281): it synchronises with the releases whose writes it reads, and with those before them that only atomics followed (R264). -/
def State.atomic (s : State) (n : Nat) (ord sx : Bool) (d a : SReg) (op : Nat → Option Nat × Flags) : Res :=
  let va := (s.cur.readS a).toNat
  let key := s.curKey
  let core := key / 2
  if 2 ^ 56 ≤ va then .trap (trap68 0x05 va 0xF .atomic 0x01)
  else if Config.spwbase ≤ va then .trap (s.illop 0x14)
  else if va % n ≠ 0 then .trap (trapMisalign (BitVec.ofNat 64 va))
  else
    match s.xlat core s.cur.slot va .atomic with
    | .error t => .trap t
    | .ok (e, s) =>
      if (s.ctxAt s.cur.ctx).bumps.contains e.buf.toNat || (s.streamed e.home (e.phys va) n).any s.refreshing then .stall true none
      else
        let pa := e.phys va
        let s := if ord then s.relMark key 3 else s
        let s := (s.resolveOn pa n).drainOn key pa n
        let s := if e.home = 3 then s.unpin core (pa / 128) else s
        let s := if e.home = 2 then s.pinHome s.cur.slot va pa n else s
        let h := paDie pa
        let own := coreDie core
        let s := if h = own then s else (s.settle h (s.mem.clock own)).settle own (s.mem.lclk.at (pa / 128) [])
        let old := leNat (s.homeBytes s.cur.ctx e.buf pa n)
        let x := if ord then s.releasing key 3 s.cur else s.cur
        let hs := s.mem.heardAt h pa n
        let s := s.observe key h pa n
        let s := if ord then s.acqOf core 3 hs else s
        let (new, fl) := op old
        let s := match new with
          | none => s
          | some v =>
            let (i, s) := s.fresh
            s.putNow { mkWrite x key i va pa e (leBytes v n) with tag := none, atom := true }
        .ok (s.sb (atomTgts d n sx old) fl ((s.streamed e.home pa n).map (fun a => (a, e.lat))))

/-- A bitwise atomic. -/
def State.atomBits (s : State) (sz : ASz) (ord : Bool) (d a : SReg) (b : SOp) (f : Nat → Nat → Nat) : Res :=
  let n := aszLen sz
  let v := s.atomArg b n
  s.atomic n ord false d a (fun old => (some (f old v), 0))

/-- AADD (R282). -/
def execAadd (sz : Sz) (ord : Bool) (d a : SReg) (b : SOp) (s : State) : Out :=
  let n := szLen sz
  let v := s.atomArg b n
  finish s (s.unheldAt (s.cur.readS a) (s.atomic n ord false d a (fun old => (some ((old + v) % 2 ^ (8 * n)), 0))))

/-- The lesser or greater value of n bytes, signed or not (R282). -/
def atomMinMax (sx max : Bool) (n old v : Nat) : Nat :=
  let val (x : Nat) : Int := if sx && decide (2 ^ (8 * n - 1) ≤ x) then (x : Int) - 2 ^ (8 * n) else x
  if max then (if val old < val v then v else old) else (if val v < val old then v else old)

/-- AMIN (R282). -/
def execAmin (sx : Bool) (sz : Sz) (ord : Bool) (d a : SReg) (b : SOp) (s : State) : Out :=
  let n := szLen sz
  let v := s.atomArg b n
  finish s (s.unheldAt (s.cur.readS a) (s.atomic n ord sx d a (fun old => (some (atomMinMax sx false n old v), 0))))

/-- AMAX (R282). -/
def execAmax (sx : Bool) (sz : Sz) (ord : Bool) (d a : SReg) (b : SOp) (s : State) : Out :=
  let n := szLen sz
  let v := s.atomArg b n
  finish s (s.unheldAt (s.cur.readS a) (s.atomic n ord sx d a (fun old => (some (atomMinMax sx true n old v), 0))))

/-- AAND (R282). -/
def execAand (sz : ASz) (ord : Bool) (d a : SReg) (b : SOp) (s : State) : Out :=
  finish s (s.unheldAt (s.cur.readS a) (s.atomBits sz ord d a b (fun x y => x &&& y)))

/-- AOR (R282). -/
def execAor (sz : ASz) (ord : Bool) (d a : SReg) (b : SOp) (s : State) : Out :=
  finish s (s.unheldAt (s.cur.readS a) (s.atomBits sz ord d a b (fun x y => x ||| y)))

/-- AXOR (R282). -/
def execAxor (sz : ASz) (ord : Bool) (d a : SReg) (b : SOp) (s : State) : Out :=
  finish s (s.unheldAt (s.cur.readS a) (s.atomBits sz ord d a b (fun x y => x ^^^ y)))

/-- ASWAP (R282). -/
def execAswap (sz : ASz) (ord : Bool) (d a : SReg) (b : SOp) (s : State) : Out :=
  finish s (s.unheldAt (s.cur.readS a) (s.atomBits sz ord d a b (fun _ y => y)))

/-- ACAS (R282): the comparand is in the destination. -/
def execAcas (sz : ASz) (ord : Bool) (d a : SReg) (b : SOp) (s : State) : Out :=
  let n := aszLen sz
  let v := s.atomArg b n
  let c := s.cur.pairVal d n
  finish s (s.unheldAt (s.cur.readS a) (s.atomic n ord false d a (fun old => (if old = c then some v else none, 0))))

/-- AFADD (R282). -/
def execAfadd (f32 : Bool) (ord : Bool) (d a : SReg) (b : SOp) (s : State) : Out :=
  let n := if f32 then 4 else 2
  let F := if f32 then fp32 else bf16
  let v := s.atomArg b n
  finish s (s.unheldAt (s.cur.readS a) (s.atomic n ord false d a (fun old =>
    let (y, f) := exAdd .rne (F.value old) (F.value v)
    let (r, g) := narrow (.fp F) y .rne false
    (some r, f ||| g))))

/-! Deques (R284-R286). -/

/-- The crew engine that the focused stream uses, and one of its deques. -/
def State.crewOf (s : State) : Nat := s.curKey / 2 / 8
def State.deque (s : State) (i : Nat) : Deque := (s.crews.at s.crewOf {}).deques.at i {}

def State.putDeque (s : State) (i : Nat) (q : Deque) : State :=
  let c := s.crews.at s.crewOf {}
  let q := if q.n = 0 then { q with ctx := 0, rank := 0 } else q
  { s with crews := s.crews.put s.crewOf { c with deques := c.deques.put i q } }

/-- Whether a deque is bound to the issuer's context and rank. -/
def State.dequeMine (s : State) (q : Deque) : Bool := q.ctx == s.cur.ctx && q.rank == s.cur.vrank.toNat

/-- The acquire of a pop or steal: it synchronises with the push that stored its element (R286), and observes what that released (R261). -/
def State.acqPush (s : State) (ids : List Nat) : State :=
  let s := s.performAll ids (fun d => d == coreDie (s.curKey / 2))
  { s with cur := { s.cur with obs := ((s.cur.obs ++ ids).filter s.mem.isOpen).eraseDups } }

/-- DQPUSH (R285): a successful one is a release at level 1 (R286). -/
def execDqpush (d : PReg) (a : SReg) (b : SOp) (s : State) : Out :=
  let i := fld (s.cur.readOp b) 5 0
  let q := s.deque i
  finish s (s.unheld
    (if q.n = 256 || (q.n ≠ 0 && !s.dequeMine q) then .ok (s.sb [.p d.toNat false])
     else
       let q := { q with elems := q.elems.set q.bottom (s.cur.readS a), bottom := (q.bottom + 1) % 256, n := q.n + 1,
                         ctx := s.cur.ctx, rank := s.cur.vrank.toNat }
       let s := s.relMark s.curKey 1
       .ok ((s.putDeque i { q with rls := q.rls.put ((q.bottom + 255) % 256) (s.relSet s.curKey) }).sb [.p d.toNat true])))

/-- DQPOP (R285). -/
def execDqpop (d : SReg) (p : PReg) (b : SOp) (s : State) : Out :=
  let i := fld (s.cur.readOp b) 5 0
  let q := s.deque i
  finish s (s.unheld
    (if q.n = 0 || !s.dequeMine q then .ok (s.sb [.s d.toNat 0, .p p.toNat false])
     else
       let k := (q.bottom + 255) % 256
       .ok (((s.acqPush (q.rls.at k [])).putDeque i { q with bottom := k, n := q.n - 1, rls := q.rls.del k }).sb
         [.s d.toNat (q.elems.get k), .p p.toNat true])))

/-- DQSTEAL (R285). -/
def execDqsteal (d : SReg) (p : PReg) (b : SOp) (s : State) : Out :=
  let i := fld (s.cur.readOp b) 5 0
  let q := s.deque i
  finish s (s.unheld
    (if q.n = 0 || !s.dequeMine q then .ok (s.sb [.s d.toNat 0, .p p.toNat false])
     else
       .ok (((s.acqPush (q.rls.at q.top [])).putDeque i { q with top := (q.top + 1) % 256, n := q.n - 1, rls := q.rls.del q.top }).sb
         [.s d.toNat (q.elems.get q.top), .p p.toNat true])))

/-! Performing writes (R258, R260). -/

/-- Whether a pending write may be performed, or set out for its home, now: no earlier one of its stream meets it (R257), the die may send (R260), and no
bank of its lines is in refresh (R255). -/
def State.writeMay (s : State) (w : PWrite) : Bool :=
  !(s.mem.wq.takeWhile (fun v => v.id != w.id)).any (fun v => v.key == w.key && w.meets v.pa v.bytes.length) && !w.sent
    && s.mem.maySend (coreDie (w.key / 2)) && !(s.writeLines w).any s.refreshing

/-- WRITE_PERFORMED (R258): a pending write reaches its home, after the stream's earlier writes to the same bytes; one to another die sets
out with its die's clock (R260). -/
def execWritePerformed (id : Nat) (s : State) : Out :=
  .next (match s.mem.wq.find? (fun w => w.id == id) with
    | none => s
    | some w =>
      if !s.writeMay w then s
      else if coreDie (w.key / 2) = paDie w.pa then
        ((s.latDone ((s.writeLines w).map (fun a => (a, w.lat)))).dropWrite id).perform w
      else s.sendWrite w)

/-- INCOMING_WRITE_APPLY (R260). -/
def execIncomingWriteApply (id : Nat) (s : State) : Out :=
  .next (match s.mem.rq.find? (fun r => r.id == id) with
    | some r => if s.mem.mayApply r then s.applyR r else s
    | none => s)

end Sys2Proof.Machine
end

