-- ==== Sys2Proof/Machine/Tulle.lean ====
section
/-! DEFINITION. Tulle: the instructions, the home slices, stops and detached requests (R290-R301). -/

namespace Sys2Proof.Machine

/-! Matching (R290, R293). -/

/-- Whether two requests, or a request and a tuple, name one instance (R290). -/
def TReq.same (t : TReq) (ctx slot : Nat) (job : Option Word32) (handle : Nat) : Bool :=
  t.ctx == ctx && t.handle == handle && t.job == job && (t.job.isSome || t.slot == slot)

/-- Whether a tuple matches a pattern (R293). -/
def tulleMatch (p f : List Word64) : Bool :=
  fld (wordAt p 0) 63 45 == fld (wordAt f 0) 63 45
    && (upto 1 7).all (fun i =>
      let v := wordAt p (i + 1)
      let m := wordAt p (i + 8)
      match fld (wordAt p 1) (2 * i - 1) (2 * i - 2) with
      | 0 => true
      | 1 => wordAt f i == v
      | 2 => wordAt f i &&& m == v &&& m
      | _ => false)

/-! Issue (R295, R296). -/

/-- TULLE with its SUB (R296). -/
def tulleTrap (sub : Nat) (a : Word64) : TrapRec := { cause := 0x0F, addr := a, info := BitVec.ofNat 64 sub }

/-- A nonzero reserved bit or code 11 in a pattern. -/
def patternBad (p : List Word64) : Bool :=
  fld (wordAt p 0) 44 0 != 0 || fld (wordAt p 1) 31 15 != 0
    || (upto 0 7).any (fun i => fld (wordAt p 1) (2 * i + 1) (2 * i) == 3)

/-- A nonzero reserved bit or a nonzero field above ARITY in a tuple. -/
def tupleBad (f : List Word64) : Bool :=
  fld (wordAt f 0) 44 32 != 0 || (upto 1 7).any (fun i => decide (fld (wordAt f 0) 47 45 < i) && wordAt f i != 0)

/-- Bytes of a request's result area (R294). -/
def TKind.size : TKind → Nat
  | .dep => 8
  | _ => 72

/-- A request sets out to its home, or to the module that holds rank 0 of its job (R290, R74). -/
def State.setOut (s : State) (t : TReq) : State :=
  match (match t.job with | some j => s.deliverTo t.ctx j 0 | none => some t.slot) with
  | some i =>
    { s with treqs := s.treqs ++ [{ t with state := 0, home := s.survivor (s.rank i).homedie (blockIndex t.kind t.keyed t.words) }] }
  | none =>
    let (p, s) := s.fresh
    { s with
      treqs := s.treqs ++ [{ t with state := 3, home := 1024 }],
      front := { s.front with pkts := s.front.pkts ++ [{ id := p, ctx := t.ctx, job := t.job.getD 0, rank := 0, kind := .tulle t.id }] } }

/-- A Tulle request issues (R296): the checks, and then it sets out. -/
def State.tulle (s : State) (kind : TKind) (nowait : Bool) (r a : SReg) (b : SOp) : Res :=
  let sr := s.cur.readS r
  let sa := s.cur.readS a
  let h := s.cur.readOp b
  let core := s.curKey / 2
  let n := if kind = .dep then 64 else 128
  let x := s.cur
  let u := (s.ctxAt x.ctx).tulle.get (fld h 9 0)
  if sr.toNat % 8 ≠ 0 then .trap (trapMisalign sr)
  else if sa.toNat % 64 ≠ 0 then .trap (trapMisalign sa)
  else
    match x.winPieces core sa.toNat n .load with
    | .error t => .trap t
    | .ok bp =>
      match x.winPieces core sr.toNat kind.size .ewrite with
      | .error t => .trap t
      | .ok rp =>
        let w := words64 (winBytes s.vspad bp)
        let keyed := u.getLsbD 62
        if fld h 63 10 ≠ 0 || !u.getLsbD 63 then .trap (tulleTrap 0x70 sa)
        else if kind ≠ .dep && keyed && fld (wordAt w 1) 1 0 ≠ 1 then .trap (tulleTrap 0x71 sa)
        else if kind ≠ .dep && patternBad w then .trap (tulleTrap 0x72 sa)
        else if kind = .dep && tupleBad w then .trap (tulleTrap 0x73 sa)
        else if s.treqs.any (fun t => t.key == s.curKey && decide (t.res < sr.toNat + kind.size) && decide (sr.toNat < t.res + t.kind.size)) then
          .trap (tulleTrap 0x74 sr)
        else if bp.any (fun p => p.bad s.mem) then .trap (trap68 0x08 sa.toNat 0xF .load 0x21)
        else if s.bankHeld s.curKey (winKeys (bp ++ rp)) then .stall true none
        else if 16 ≤ (s.treqs.filter (fun t => t.key == s.curKey)).length then .stall true none
        else
          let s := if kind = .dep then s.relAll s.curKey 3 else s
          let (id, s) := (s.feSet rp false).fresh
          let job := if u.getLsbD 61 then some (s.rank x.slot).job else none
          .ok (s.setOut
            { id := id, key := s.curKey, ctx := x.ctx, slot := x.slot, task := x.task, job := job, handle := fld h 9 0, cap := fld u 31 0,
              kind := kind, nowait := nowait, keyed := keyed, words := w, pat := sa.toNat, res := sr.toNat, place := winKeys rp, home := 0,
              tref := if kind = .dep then {} else x.taskRef (fld (wordAt w 1) 63 32), detach := kind != .dep && (wordAt w 1).getLsbD 14 })

/-- TDEP (R296): a release at level 3 (R298). In a hold the address of BKLOCK is the block's, as of TULLE (R289; log 63). -/
def execTdep (r a : SReg) (b : SOp) (s : State) : Out := finish s (s.unheldAt (s.cur.readS a) (s.tulle .dep false r a b))

/-- TCPY (R296). -/
def execTcpy (nowait : Bool) (r a : SReg) (b : SOp) (s : State) : Out := finish s (s.unheldAt (s.cur.readS a) (s.tulle .copy nowait r a b))

/-- TTAK (R296). -/
def execTtak (nowait : Bool) (r a : SReg) (b : SOp) (s : State) : Out := finish s (s.unheldAt (s.cur.readS a) (s.tulle .take nowait r a b))

/-- TCAN (R299): the cancellation of the stream's request at sR sets out; a deposit is not cancelled, and a second TCAN
adds nothing to the first. -/
def execTcan (r : SReg) (s : State) : Out :=
  let (id, s1) := s.fresh
  finish s (s.unheldAt (s.cur.readS r) (.ok
    (match s.treqs.find? (fun t => t.key == s.curKey && t.res == (s.cur.readS r).toNat && t.kind != .dep) with
     | some t => s1.modReq t.id (fun t => { t with cancel := some (t.cancel.getD id) })
     | none => s)))

/-! The home slice (R297). -/

/-- The status word of R294. -/
def tulleStatus (seq ncopy : Nat) (taken : Bool) (home status : Nat) : Nat :=
  seq * 2 ^ 32 + min ncopy 255 * 2 ^ 24 + (if taken then 2 ^ 16 else 0) + home % 256 * 2 ^ 8 + status

/-- Writes bytes over physical scratchpad places, each word set full. -/
def State.putPlaces (s : State) : List (Nat × Nat) → List Byte → State
  | [], _ => s
  | (k, n) :: r, l => (s.winPut k (l.take n)).putPlaces r (l.drop n)

/-- The places from byte m of a list of places. -/
def dropPlaces (m : Nat) : List (Nat × Nat) → List (Nat × Nat)
  | [] => []
  | (k, n) :: r => if m = 0 then (k, n) :: r else if n ≤ m then dropPlaces (m - n) r else (k + m, n - m) :: r

/-- Sends a packet to a node: to another module at once, or to this module's own port. -/
def State.sendTo (s : State) (node : Nat) (p : Pkt) : State :=
  if node = s.mgmt.node.toNat then { s with front := { s.front with pkts := s.front.pkts ++ [p] } }
  else { s with outs := { s.outs with fabric := s.outs.fabric ++ [(node, p)] } }

/-- Tells the module of a request's stream what became of it: nothing for a stream of this one (R290). -/
def State.tellOrg (s : State) (t : TReq) (f : Option (List Word64)) (status : Option Nat) : State :=
  match t.org with
  | none => s
  | some (node, id, rank) =>
    let (i, s) := s.fresh
    s.sendTo node { id := i, ctx := t.ctx, job := t.job.getD 0, rank := rank, kind := .tulleAns id f status }

/-- The bytes of a tuple's fields. -/
def tupBytes (f : Option (List Word64)) : List Byte := ((f.getD []).map (fun (w : Word64) => leBytes w.toNat 8)).flatten

/-- Answers a request: the tuple's fields, if any, then the status word; the request is complete (R297). In a granule that a full save has taken the
writes wait for the restore (R330). -/
def State.answer (s : State) (t : TReq) (f : Option (List Word64)) (status : Nat) : State :=
  let s := s.tellOrg t f (some status)
  let gone := match s.savedOf t.key with | some v => v.full && decide (t.res < Config.spwbase + 2 ^ 20) | none => false
  let s := if gone then (if f.isSome then s.complete t.key (t.res + 8) (tupBytes f) else s).complete t.key t.res (leBytes status 8)
    else (s.putPlaces (dropPlaces 8 t.place) (tupBytes f)).putPlaces t.place (leBytes status 8)
  s.dropReqs [t.id]

/-- Whether the place of a request's answer lies in held banks: the answer waits at them (R288). -/
def State.answerHeld (s : State) (t : TReq) : Bool := s.bankHeld 2048 t.place

/-- The SEQ of a status that has no tuple: the spec states none. -/
def State.openSeq (s : State) : Nat := (Config.freeWord s.tick).toNat % 2 ^ 32

/-- A request stands next at its home: it heads the arrivals, or none has arrived and none goes before it on the way there (R298, R265). An answer to
held banks waits (R288). -/
def State.tulleNext (s : State) (t : TReq) : Bool :=
  let sl := s.slice t.home
  (match sl.arrived with
   | i :: _ => i == t.id && t.state == 2
   | [] => t.state == 0 && !s.reqWaits t && !s.behindRel t.key t.id)
  && !s.answerHeld t
  && (t.kind != .dep || !s.treqs.any (fun u => sl.parked.contains u.id && s.answerHeld u))

/-- A TCAN reaches the slice: what its stream issued to that slice before it has been processed (R298, R299). -/
def State.cancelNext (s : State) (t : TReq) : Bool :=
  match t.cancel with
  | none => false
  | some c =>
    t.state == 1 && !s.answerHeld t && !s.treqs.any (fun u => u.key == t.key && u.home == t.home && decide (u.id < c) && (u.state == 0 || u.state == 2))

/-- Satisfies parked requests of a deposit in their order, up to the first matching take: copies made, and whether it was taken. -/
def State.satisfy (s : State) (d : TReq) (seq : Nat) : List Nat → Nat → State × Nat × Bool
  | [], n => (s, n, false)
  | i :: r, n =>
    match s.treqs.find? (fun t => t.id == i) with
    | none => s.satisfy d seq r n
    | some t =>
      if t.same d.ctx d.slot d.job d.handle && tulleMatch t.words d.words then
        let s := s.answer t (some d.words) (tulleStatus seq 0 false t.home 0)
        if t.kind = .take then (s, n, true) else s.satisfy d seq r (n + 1)
      else s.satisfy d seq r n

/-- Takes a request off the arrivals. -/
def State.unarrive (s : State) (t : TReq) : State :=
  let sl := s.slice t.home
  s.putSlice t.home { sl with arrived := sl.arrived.filter (fun i => i != t.id) }

/-- TULLE_DEPOSIT_PROCESS (R297). -/
def execTulleDepositProcess (id : Nat) (s : State) : Out :=
  .next (match s.treqs.find? (fun t => t.id == id) with
    | none => s
    | some d =>
      if d.kind ≠ .dep || !s.tulleNext d then s
      else
        let s := s.unarrive d
        let sl := s.slice d.home
        let seq := sl.seq
        let s := s.putSlice d.home { sl with seq := sl.seq + 1 }
        let (s, n, taken) := s.satisfy d seq.toNat sl.parked 0
        let sl := s.slice d.home
        let mine := sl.tuples.filter (fun u => d.same u.ctx u.slot u.job u.handle)
        let full := !taken && (decide (d.cap ≤ mine.length) || decide (4096 ≤ sl.tuples.length))
        let s := if taken || full then s
          else
            let u : Tup := { ctx := d.ctx, slot := d.slot, job := d.job, handle := d.handle, seq := seq, f := d.words.take 8 }
            s.putSlice d.home { sl with tuples := sl.tuples ++ [u] }
        s.answer d none (tulleStatus seq.toNat n taken d.home (if full then 3 else 0)))

/-- TULLE_MATCH_PROCESS (R297). -/
def execTulleMatchProcess (id : Nat) (s : State) : Out :=
  .next (match s.treqs.find? (fun t => t.id == id) with
    | none => s
    | some t =>
      if t.kind = .dep || !s.tulleNext t then s
      else
        let s := s.unarrive t
        let sl := s.slice t.home
        match sl.tuples.find? (fun u => t.same u.ctx u.slot u.job u.handle && tulleMatch t.words u.f) with
        | some u =>
          let s := if t.kind = .take then s.putSlice t.home { sl with tuples := sl.tuples.erase u } else s
          s.answer t (some u.f) (tulleStatus u.seq.toNat 0 false t.home 0)
        | none =>
          if t.nowait then s.answer t none (tulleStatus s.openSeq 0 false t.home 1)
          else if 256 ≤ sl.parked.length then s.answer t none (tulleStatus s.openSeq 0 false t.home 2)
          else ((s.putSlice t.home { sl with parked := sl.parked ++ [t.id] }).modReq id (fun t => { t with state := 1 })).tellOrg t none none)

/-- TULLE_CANCEL_PROCESS (R299): a parked request is removed with CANCELLED. -/
def execTulleCancelProcess (id : Nat) (s : State) : Out :=
  .next (match s.treqs.find? (fun t => t.id == id) with
    | some t => if s.cancelNext t then s.answer t none (tulleStatus s.openSeq 0 false t.home 4) else s
    | none => s)

/-- The end of a withdrawal on the issuer's module: a stream that is stopping keeps the request for the restore (R300). -/
def State.withdrawn (s : State) (t : TReq) : State :=
  let stopping := match s.stream t.key with | some x => x.stopped | none => false
  if stopping then s.modReq t.id (fun t => { t with state := 4, withdraw := false, cancel := none }) else s.dropReqs [t.id]

/-- Whether a withdrawal is due at the slice: a TCAN that the stream issued before it goes first (R298, R299). -/
def TReq.leaving (t : TReq) : Bool := t.withdraw && t.state == 1 && t.cancel.isNone

/-- TULLE_WITHDRAWAL (R300): a withdrawn parked request leaves the slice and nothing is written. -/
def execTulleWithdrawal (id : Nat) (s : State) : Out :=
  .next (match s.treqs.find? (fun t => t.id == id) with
    | some t =>
      if t.leaving then
        let sl := s.slice t.home
        let s := (s.putSlice t.home { sl with parked := sl.parked.filter (fun i => i != id) }).tellOrg t none (some (2 ^ 64))
        if t.org.isSome then s.dropReqs [id] else s.withdrawn t
      else s
    | none => s)

/-! Requests between modules (R290). -/

/-- The holder key of requests from other modules. -/
def remoteKey : Nat := 2 ^ 41

/-- A request of another module's stream sets out to its home slice here. -/
def State.takeRemote (s : State) (p : Pkt) (node slot : Nat) (t : TReq) : State :=
  let (i, s) := s.fresh
  { s with treqs := s.treqs ++ [{ t with
      id := i, key := remoteKey, ctx := p.ctx, slot := slot, place := [], res := 0, org := some (node, t.id, t.slot), state := 0, cancel := none,
      withdraw := false, rel := 0, home := s.survivor (s.rank slot).homedie (blockIndex t.kind t.keyed t.words) }] }

/-- An answer from the module that holds the home slice. -/
def State.takeAnswer (s : State) (req : Nat) (f : Option (List Word64)) (status : Option Nat) : State :=
  match s.treqs.find? (fun t => t.id == req && (t.state == 5 || t.state == 6)) with
  | none => s
  | some t =>
    match status with
    | none => s.modReq req (fun t => { t with state := 6 })
    | some v => if v = 2 ^ 64 then s.withdrawn t else s.answer t f v

/-- A TCAN or a withdrawal of a request that came from another module. -/
def State.takeEndOf (s : State) (node req : Nat) (withdraw : Bool) : State :=
  let (i, s) := s.fresh
  let is (t : TReq) : Bool := match t.org with | some (n, r, _) => n == node && r == req | none => false
  { s with treqs := mapIf is (fun t => if withdraw then { t with withdraw := true } else { t with cancel := some i }) s.treqs }

/-- A TCAN or a withdrawal of a request that stands parked at another module sets out for it. -/
def State.sendEnd (s : State) (t : TReq) : State :=
  if t.state ≠ 6 || (t.cancel.isNone && !t.withdraw) then s
  else
    let j := t.job.getD 0
    match s.mapNode t.ctx j 0 with
    | none => s
    | some n =>
      let (i, s) := s.fresh
      let p : Pkt := { id := i, ctx := t.ctx, job := j, rank := 0, kind := .tulleEnd s.mgmt.node.toNat t.id t.cancel.isNone }
      (s.sendTo n p).modReq t.id (fun t => if t.cancel.isSome then { t with cancel := none } else { t with state := 5 })

/-! What another module answers (R290, R384). That module and its tuples are open: every answer that the rules allow may come. -/

/-- A tuple that a pattern may meet: what the pattern leaves open is free. -/
def freeTuple (pick : Nat) (p : List Word64) : List Word64 :=
  (upto 0 8).map (fun i =>
    let w := Config.freeWord (pick + i)
    let v := wordAt p (i + 1)
    let m := wordAt p (i + 8)
    if i = 0 then (wordAt p 0 &&& BitVec.ofNat 64 (2 ^ 64 - 2 ^ 45)) ||| (w &&& 0xFFFFFFFF)
    else if fld (wordAt p 0) 47 45 < i then 0
    else match fld (wordAt p 1) (2 * i - 1) (2 * i - 2) with
      | 1 => v
      | 2 => (v &&& m) ||| (w &&& ~~~m)
      | _ => w)

/-- Whether a TCAN of a request has set out for another module. -/
def State.canSent (s : State) (t : TReq) : Bool :=
  s.outs.fabric.any (fun e => match e.2.kind with | .tulleEnd _ r w => r == t.id && !w | _ => false)

/-- What another module may answer now: the tuple's fields, and the status. No status parks the request, and 2^64 ends its withdrawal. -/
def State.foreignAnswers (s : State) (t : TReq) : List (Option (List Word64) × Option Nat) :=
  let f := freeTuple (8 * s.tick) t.words
  let home := Config.freeSched (s.tick + 1) % 256
  let said (n : Nat) : Option Nat := some (tulleStatus s.openSeq 0 false home n)
  if t.kind = .dep then
    (if t.state = 5 then [(none, some (tulleStatus s.openSeq (Config.freeSched (s.tick + 2)) (Config.freePick s.tick) home 0)), (none, said 3)] else [])
  else
    (if tulleMatch t.words f then [(some f, said 0)] else [])
      ++ (if t.state = 5 && t.withdraw then [(none, some (2 ^ 64))]
          else if t.state = 5 then (if t.nowait then [(none, said 1)] else [(none, none), (none, said 2)])
          else [(none, said 5)] ++ (if s.canSent t then [(none, said 4)] else []))

/-- Another module answers a request: one of its answers, which is free, sets out for this module. -/
def State.foreignTulle (s : State) (id : Nat) : State :=
  match s.treqs.find? (fun t => t.id == id && (t.state == 5 || t.state == 6)) with
  | none => s
  | some t =>
    let l := s.foreignAnswers t
    match l[Config.freeSched s.tick % l.length]? with
    | none => s
    | some (f, st) =>
      let (i, s) := s.fresh
      { s with front := { s.front with pkts := s.front.pkts ++ [{ id := i, ctx := t.ctx, job := t.job.getD 0, rank := 0, kind := .tulleAns id f st }] } }

/-! Detached requests (R301). -/

/-- Whether a request's result area lies in a granule. -/
def TReq.inGran (t : TReq) (core gran : Nat) : Bool := t.place.any (fun p => p.1 / 65536 == core * 16 + gran)

/-- DETACHED_GRANULE_DELIVERY (R301): every detached request in a waiting granule is satisfied, so the granule sets out for TREF's task, whose
count drops by 1; a reference that the agent drops frees the granule and counts once (R42). -/
def execDetachedGranuleDelivery (slot gran : Nat) (s : State) : Out :=
  let r := s.rank slot
  .next (match r.waiting.find? (fun w => w.core * 16 + w.gran == gran) with
    | none => s
    | some w =>
      if s.treqs.any (fun t => t.detach && t.inGran w.core w.gran) then s
      else
        let s := s.putRank slot { r with waiting := r.waiting.filter (fun v => v != w) }
        if s.refDrop w.dest then s.lost r.ctx
        else
          let (id, s) := (s.sendDec deadKey w.dest 1).fresh
          let o : Op := { id := id, key := deadKey, ctx := r.ctx, slot := slot, core := w.core, task := w.giver, kind := .gran w.core w.gran w.giver w.dest,
                          moved := id }
          { s with ops := s.ops ++ [o] })

end Sys2Proof.Machine
end

