-- ==== Sys2Proof/Machine/Chan.lean ====
section
/-! DEFINITION. Channels and their overflow lists (R302-R307), the canonical rank tree, collectives (R308-R312), gradient buckets
(R313-R315), and the packets that carry them (R74, R265, R382). -/

namespace Sys2Proof.Machine

/-! Agents' traffic in a rank's address space. -/

/-- A stand-in for the agent that accesses a rank's memory. -/
def agentStream (slot ctx : Nat) : Stream := { slot := slot, ctx := ctx }

/-- A trap of a rank's traffic for the stream with a key, live or saved; a task that has ended takes none (R321), and the frame that the access met is
contained all the same (R69). -/
def State.trapTo (s : State) (slot key : Nat) (t : TrapRec) : State :=
  match s.savedOf key with
  | some v =>
    s.modSaved ((key - 1024) / 65536) v.area (fun w => { w with stream := { w.stream with async := w.stream.async ++ [t] } })
  | none =>
    if (s.stream key).isSome then s.asyncTrap key t
    else match t.frame with | some (f, va) => s.contain slot va f | none => s

/-- The number of an agent that is no core: it stands beside the core whose tables it uses, and no page of HOME = 11 is its own (R67). -/
def agentOf (core : Nat) : Nat := 512 + core

/-- The pieces of an agent's access. -/
def State.agentPieces (s : State) (core slot va n : Nat) (k : AKind) : Except TrapRec (List Piece × State) :=
  match s.pieces (agentStream slot (s.rank slot).ctx) (core % 512) va n k with
  | .error t => .error t
  | .ok (ps, s) =>
    match ps.find? (fun p => match p.pl with | .glob _ e => e.home == 3 && decide (512 ≤ core) | .win _ => false) with
    | some p => .error (trap68 0x07 p.va 0xF k 0x42)
    | none => .ok (ps, s)

/-- An agent's read of a rank's memory, through the tables of a core's crew. One that is an acquire (`fresh`) follows every write performed at the homes
it reads (R314). -/
def State.agentRead (s : State) (core slot va n : Nat) (fresh : Bool := false) : Except OpFail (List Byte × State) :=
  let c := (s.rank slot).ctx
  match s.agentPieces core slot va n .eread with
  | .error t => .error (.stop t.status t)
  | .ok (ps, s) =>
    let core := core % 512
    if s.piecesWait c 2048 ps then .error .wait
    else
      let s := if fresh then ps.foldl (fun (s : State) p => match p.pl with | .glob pa _ => s.freshen (coreDie core) pa p.n | .win _ => s) s else s
      .ok ((s.latDone (s.streamLines ps)).readPieces s.mem.spad (2 * core) slot c ps false)

/-- An agent's write: the rank and core as which it writes, the stream whose earlier accesses it follows (R268, R306), heat tag and WID (R273). -/
structure AWrite where
  core : Nat
  slot : Nat
  by_ : Nat := deadKey
  tag : Option (List Nat) := none
  wid : Word64 := 0

/-- One piece of an agent's write, performed at once, after what the stream it is made for has pending there; the buckets do not count it (R314). -/
def State.agentPut (s : State) (w : AWrite) (p : Piece) (l : List Byte) : State :=
  match p.pl with
  | .win _ => s
  | .glob pa e =>
    let x := agentStream w.slot (s.rank w.slot).ctx
    let key := 2 * (w.core % 512)
    let s := (if s.curLive && w.by_ == s.curKey then s.resolveOn pa l.length else s).drainOn w.by_ pa l.length
    if e.home = 3 then s.pinPut x key p.va pa e l false
    else
      let (i, s) := s.fresh
      s.putNow { mkWrite x key i p.va pa e l false with tag := w.tag, wid := w.wid }

/-- An agent's write, page by page: bytes before a fault stand. -/
def State.agentWrites (s : State) (w : AWrite) : List (Nat × Nat) → List Byte → State × Option OpFail
  | [], _ => (s, none)
  | (va, n) :: r, l =>
    let c := (s.rank w.slot).ctx
    match s.agentPieces w.core w.slot va n .ewrite with
    | .error t => (s, some (.stop t.status t))
    | .ok (ps, s') =>
      if s.piecesWait c 2048 ps then (s, some .wait)
      else
        (ps.foldl (fun (a : State × List Byte) p => (a.1.agentPut w p (a.2.take p.n), a.2.drop p.n)) (s'.latDone (s'.streamLines ps), l.take n)).1.agentWrites
          w r (l.drop n)

def State.agentWrite (s : State) (w : AWrite) (va : Nat) (l : List Byte) : State × Option OpFail := s.agentWrites w (cut 4096 va l.length) l

/-- The first core of a rank's home die. -/
def State.homeCore (s : State) (slot : Nat) : Nat := (s.rank slot).homedie * 128

/-! Packets (R74, R265, R382). -/

/-- The front reads a word of a rank map. One at an address that no stack holds is an uncorrectable error of its frame (R232, R69). -/
def State.readMap (s : State) (c : Nat) (j : Word32) (rank : Nat) : State :=
  match s.jobOf c j with
  | some (_, b) =>
    let a := b.mapbase + 4 * rank
    if hbmExists a || s.mem.poison.contains (a / 4096) then s else s.badAgent a
  | none => s

/-- Sends a packet to a rank: where the map says, or, while it names no node, to this module's port (R348, R382). -/
def State.post (s : State) (ctx : Nat) (job : Word32) (rank : Nat) (k : PktKind) : State :=
  let (i, s) := (s.readMap ctx job rank).fresh
  let n := s.mapNode ctx job rank
  s.sendTo (n.getD s.mgmt.node.toNat) { id := i, ctx := ctx, job := job, rank := rank, kind := k, node := n }

def State.dropPkt (s : State) (id : Nat) : State := { s with front := { s.front with pkts := s.front.pkts.filter (fun p => p.id != id) } }
def State.modPkt (s : State) (id : Nat) (f : Pkt → Pkt) : State :=
  { s with front := { s.front with pkts := mapIf (fun p => p.id == id) f s.front.pkts } }
def State.pkt (s : State) (id : Nat) : Option Pkt := s.front.pkts.find? (fun p => p.id == id)

/-- Where a packet may be delivered now. -/
def State.deliverP (s : State) (p : Pkt) : Option Nat := s.deliverTo p.ctx p.job p.rank

/-- Whether an operation must wait for one that a release separates from it (R265). -/
def State.relBehind (s : State) (o : Op) : Bool := s.behindRel o.key o.id

/-- Whether a held packet for the same rank goes before a packet (R74). -/
def State.heldBefore (s : State) (p : Pkt) : Bool :=
  (s.front.pkts.takeWhile (fun q => q.id != p.id)).any (fun q => q.held && q.ctx == p.ctx && q.job == p.job && q.rank == p.rank)

/-! Overflow lists (R303). Every access is the rank's own engine traffic. -/

/-- The agent that reads and writes a rank's lists: the front, which is no core. -/
def State.listAgent (s : State) (slot : Nat) : Nat := agentOf (s.homeCore slot)

/-- A read of list memory, after every write that the front has made there. -/
def State.listRead (s : State) (slot va n : Nat) : Except OpFail ((List Byte) × State) := s.agentRead (s.listAgent slot) slot va n true

def State.listPut (s : State) (slot va : Nat) (l : List Byte) : Except OpFail (Unit × State) :=
  match s.agentWrite { core := s.listAgent slot, slot := slot } va l with
  | (s, none) => .ok ((), s)
  | (_, some f) => .error f

def State.listPutW (s : State) (slot va v : Nat) : Except OpFail (Unit × State) := s.listPut slot va (leBytes v 8)

/-- The control block's words. -/
def State.listCtl (s : State) (slot : Nat) : Except OpFail ((List Word64) × State) := do
  let (l, s) ← s.listRead slot (s.rank slot).ovfhead.toNat 48
  .ok (words64 l, s)

/-- The first node from one on whose words satisfy a test, with the node before it (0 for none). -/
def State.listFind (s : State) (slot : Nat) (f : List Word64 → Bool) : (fuel prev node : Nat) → Except OpFail (Option (Nat × Nat × List Word64) × State)
  | 0, _, _ => .ok (none, s)
  | n + 1, prev, node =>
    if node = 0 then .ok (none, s)
    else
      match s.listRead slot node 24 with
      | .error e => .error e
      | .ok (l, s) =>
        let w := words64 l
        if f w then .ok (some (prev, node, w), s) else s.listFind slot f n node (wordAt w 0).toNat

/-- How far a list is followed: there are no more nodes than multiples of 128 among the addresses (R303). -/
def listFuel : Nat := 2 ^ 49

/-- Unlinks a node from the list whose first node stands at a control word. -/
def State.unlink (s : State) (slot ctl prev next : Nat) : Except OpFail (Unit × State) :=
  if prev = 0 then s.listPutW slot ((s.rank slot).ovfhead.toNat + ctl) next else s.listPutW slot prev next

/-- Bytes a message takes in the node area. -/
def nodeSize (bytes : Nat) : Nat := 128 + (bytes + 127) / 128 * 128

/-- A node for a message of a size: the first free one large enough, else new space; none when neither is found. -/
def State.newNode (s : State) (slot need : Nat) : Except OpFail ((Option Nat) × State) := do
  let h := (s.rank slot).ovfhead.toNat
  let (c, s) ← s.listCtl slot
  let (r, s) ← s.listFind slot (fun w => decide (need ≤ fld (wordAt w 2) 31 0)) listFuel 0 (wordAt c 2).toNat
  match r with
  | some (prev, node, w) =>
    let (_, s) ← s.unlink slot 16 prev (wordAt w 0).toNat
    .ok (some node, s)
  | none =>
    let bump := (wordAt c 3).toNat
    if bump + need ≤ (wordAt c 4).toNat then
      let (_, s) ← s.listPutW slot (h + 24) (bump + need)
      .ok (some bump, s)
    else .ok (none, s)

/-- Appends an arrival; answers whether there was space. -/
def State.listAppend (s : State) (slot ch : Nat) (seq : Word32) (bytes : List Byte) : Except OpFail (Bool × State) := do
  let h := (s.rank slot).ovfhead.toNat
  let (r, s) ← s.newNode slot (nodeSize bytes.length)
  match r with
  | none => .ok (false, s)
  | some node =>
    let (_, s) ← s.listPut slot node
      (leBytes 0 8 ++ leBytes (seq.toNat * 2 ^ 32 + ch * 2 ^ 24 + bytes.length) 8 ++ leBytes (nodeSize bytes.length) 8)
    let (_, s) ← s.listPut slot (node + 128) bytes
    let (c, s) ← s.listCtl slot
    let (_, s) ← (if wordAt c 0 = 0 then s.listPutW slot h node else s.listPutW slot (wordAt c 1).toNat node)
    let (_, s) ← s.listPutW slot (h + 8) node
    let (_, s) ← s.listPut slot (h + 40) (leBytes (fld (wordAt c 5) 31 0 + 1) 4)
    .ok (true, s)

/-- One more arrival held for lack of space. -/
def State.listHeld (s : State) (slot : Nat) : Except OpFail (Unit × State) := do
  let (c, s) ← s.listCtl slot
  s.listPut slot ((s.rank slot).ovfhead.toNat + 44) (leBytes (fld (wordAt c 5) 63 32 + 1) 4)

/-- Takes the node of message (ch, seq) off the list, if it is there, to FREE: its payload. -/
def State.listTake (s : State) (slot ch : Nat) (seq : Word32) : Except OpFail ((Option (List Byte)) × State) := do
  let h := (s.rank slot).ovfhead.toNat
  let (c, s) ← s.listCtl slot
  let (r, s) ← s.listFind slot (fun w => fld (wordAt w 1) 63 32 == seq.toNat && fld (wordAt w 1) 31 24 == ch) listFuel 0 (wordAt c 0).toNat
  match r with
  | none => .ok (none, s)
  | some (prev, node, w) =>
    let (l, s) ← s.listRead slot (node + 128) (fld (wordAt w 1) 23 0)
    let (_, s) ← s.unlink slot 0 prev (wordAt w 0).toNat
    let (_, s) ← (if (wordAt c 1).toNat = node then s.listPutW slot (h + 8) prev else .ok ((), s))
    let (_, s) ← s.listPutW slot node (wordAt c 2).toNat
    let (_, s) ← s.listPutW slot (h + 16) node
    let (_, s) ← s.listPut slot (h + 40) (leBytes (fld (wordAt c 5) 31 0 - 1) 4)
    .ok (some l, s)

/-! Rows, status words, completion (R304-R306). -/

/-- Changes a channel row. -/
def State.modRow (s : State) (slot ch : Nat) (f : Row → Row) : State :=
  let r := s.rank slot
  match r.rows.find ch with
  | some w => s.putRank slot { r with rows := r.rows.put ch (f w) }
  | none => s

/-- The VALID row of a channel (R302). -/
def Rank.row (r : Rank) (ch : Nat) : Option Row := (r.rows.find ch).filter (fun w => w.valid)

/-- Writes a channel status word: a release at level 7 after the deliveries it reports; a fault on a global one is an asynchronous trap
(R304, R306). None while the page is being bumped, or the banks of the word are held (R72, R288). -/
def State.chanStatus (s : State) (key core slot : Nat) (tag : Option (List Nat)) (wid : Word64) (stat : Option Nat) (v : Nat) : Option State :=
  match stat with
  | none => some s
  | some a =>
    let s := s.relAll (2 * (core % 512)) 7
    if inWindow a then (if s.fillHeld key a 8 then none else some (s.complete key a (leBytes v 8)))
    else
      match s.agentWrite { core := core, slot := slot, by_ := key, tag := tag, wid := wid } a (leBytes v 8) with
      | (_, some .wait) => none
      | (s, some (.stop _ t)) => some (s.trapTo slot key t)
      | (s, none) => some s

/-- The status word of R304. -/
def chanWord (seq : Word32) (n code : Nat) : Nat := seq.toNat * 2 ^ 32 + n * 2 ^ 8 + code

/-- Delivers a message into a posted receive and completes it (R305, R306); none while a write of it waits (R72, R288). A fault on the
buffer is an asynchronous trap, and the receive does not complete. -/
def State.receive (s : State) (slot : Nat) (p : Post) (bytes : List Byte) : Option State :=
  let fin (s : State) : Option State :=
    (s.chanStatus p.key p.core slot p.tag p.wid p.stat (chanWord p.seq bytes.length 0)).map (fun s =>
      match p.tref with
      | some t => s.sendDec p.key t 1
      | none => s)
  if inWindow p.buf then (if s.fillHeld p.key p.buf bytes.length then none else fin (s.complete p.key p.buf bytes))
  else
    match s.agentWrite { core := p.core, slot := slot, by_ := p.key, tag := p.tag, wid := p.wid } p.buf bytes with
    | (_, some .wait) => none
    | (s, some (.stop _ t)) => some (s.trapTo slot p.key t)
    | (s, none) => fin s

/-- CHAN with its SUB (R304, R311). -/
def chanTrap (sub : Nat) (a : Word64) : TrapRec := { cause := 0x10, addr := a, info := BitVec.ofNat 64 sub }

/-- The checks of R304 in their order, and the row. -/
def State.chanCheck (s : State) (r a : SReg) (h : Word64) (bad : Bool) (k : AKind) (f : Nat → Row → Res) : Res :=
  let sr := s.cur.readS r
  let sa := s.cur.readS a
  let ch := fld h 7 0
  let row := (s.rank s.cur.slot).row ch
  let n := match row with | some w => w.bytes | none => 1
  let core := s.curKey / 2
  if r ≠ 0 && sr.toNat % 8 ≠ 0 then .trap (trapMisalign sr)
  else if sa.toNat % 4 ≠ 0 then .trap (trapMisalign sa)
  else if bad then .trap (s.illop 0x14)
  else
    match (if r ≠ 0 && inWindow sr.toNat then s.cur.winPieces core sr.toNat 8 .ewrite else .ok []) with
    | .error t => .trap t
    | .ok _ =>
      match (if inWindow sa.toNat then s.cur.winPieces core sa.toNat n k else .ok []) with
      | .error t => .trap t
      | .ok _ =>
        match row with
        | none => .trap (chanTrap 0x80 (BitVec.ofNat 64 ch))
        | some w => f ch w

/-- Whether a status area in the window that is set empty at issue lies in held banks: the bundle waits (R288). -/
def State.statHeld (s : State) (stat : Option Nat) (n : Nat := 8) : Bool := match stat with | some a => inWindow a && s.fewHeld a n | none => false

/-- Sets a window status word empty at issue. -/
def State.statEmpty (s : State) (stat : Option Nat) : State :=
  match stat with
  | some a => if inWindow a then (s.fewEmpty a).fewEmpty (a + 4) else s
  | none => s

/-- CHSEND (R304-R306). -/
def execChsend (r a : SReg) (b : SOp) (s : State) : Out :=
  let h := s.cur.readOp b
  let stat := if r = 0 then none else some (s.cur.readS r).toNat
  finish s (s.unheldAt (s.cur.readS a) (s.chanCheck r a h (fld h 63 8 != 0) .eread (fun ch w =>
    if (s.rank s.cur.slot).chanStop || s.statHeld stat then .stall true none
    else if w.depth ≤ (w.sseq - w.ackseq).toNat then waitFor (fewaitTrap (BitVec.ofNat 64 ch) 0x53)
    else
      let s := (s.relAll s.curKey 7).statEmpty stat
      let s := s.modRow s.cur.slot ch (fun w => { w with sseq := w.sseq + 1 })
      .ok (s.fork (.send ch w.sseq (s.cur.readS a).toNat stat)))))

/-- A send reads its buffer and delivers its message (R305); a fault there is an asynchronous trap, and nothing is sent. -/
def State.sendStep (s : State) (o : Op) : State :=
  match o.kind with
  | .send ch seq src _ =>
    match (s.rank o.slot).row ch with
    | none => s
    | some w =>
      if o.moved ≠ 0 || (s.rank o.slot).chanStop || s.relBehind o then s
      else
        let rd : Except OpFail (List Byte × State) :=
          if let some l := o.data then .ok (l, s)
          else if inWindow src then (match s.stream o.key with | some x => s.opRead x o.key src w.bytes | none => .error .wait)
          else s.agentRead o.core o.slot src w.bytes
        match rd with
        | .error .wait => s
        | .error (.stop _ t) => (s.dropOp o.id).trapTo o.slot o.key t
        | .ok (l, s) =>
          let r := s.rank o.slot
          (s.modOp o.id (fun o => { o with moved := w.bytes })).post r.ctx r.job w.peer (.msg r.vrank.toNat ch seq l o.id)
  | _ => s

/-- Window receives the stream has outstanding. -/
def State.windowPosts (s : State) (key slot : Nat) : Nat :=
  (((s.rank slot).rows.map (fun (e : Nat × Row) => e.2.posted.filter (fun p => p.key == key && p.window))).flatten).length

/-- CHRECV (R304, R305, R307): a message on the list is taken at once, else the receive is posted. -/
def execChrecv (r a : SReg) (b : SOp) (s : State) : Out :=
  let h := s.cur.readOp b
  let stat := if r = 0 then none else some (s.cur.readS r).toNat
  let buf := (s.cur.readS a).toNat
  finish s (s.unheldAt (s.cur.readS a) (s.chanCheck r a h (fld h 15 8 != 0 || fld h 62 48 != 0) .ewrite (fun ch w =>
    let slot := s.cur.slot
    if (s.rank slot).chanStop || s.statHeld stat then .stall true none
    else
      match s.listTake slot ch w.rseq with
      | .error .wait => .stall true none
      | .error (.stop _ t) => .stall true none (.list t)
      | .ok (l, s) =>
        let window := inWindow buf || (match stat with | some v => inWindow v | none => false)
        let p : Post :=
          { seq := w.rseq, buf := buf, stat := stat, tref := if h.getLsbD 63 then some (s.cur.taskRef (fld h 47 16)) else none,
            key := s.curKey, window := window, core := s.curKey / 2, tag := s.cur.heatKey, wid := s.cur.wid }
        let s := (s.statEmpty stat).modRow slot ch (fun w => { w with rseq := w.rseq + 1 })
        match l with
        | some bytes =>
          match s.receive slot p bytes with
          | some s => .ok s
          | none => .stall true none
        | none =>
          if 16 ≤ w.posted.length || (window && decide (16 ≤ s.windowPosts s.curKey slot)) then .stall true none
          else .ok (s.modRow slot ch (fun w => { w with posted := w.posted ++ [p] })))))

/-- The peer accepts or refuses a message: the answer sets out for the sender (R305). -/
def State.answerMsg (s : State) (p : Pkt) (src ch : Nat) (seq : Word32) (n code op : Nat) : State :=
  (s.dropPkt p.id).post p.ctx p.job src (.ack ch seq n code op)

/-- A message arrives at the peer's row (R303, R305). -/
def State.arrive (s : State) (p : Pkt) (slot : Nat) : State :=
  match p.kind with
  | .msg src ch seq bytes op =>
    let r := s.rank slot
    if r.chanStop then s
    else
      match r.row ch with
      | none => s.answerMsg p src ch seq 0 0x10 op
      | some w =>
        if w.peer ≠ src then s.answerMsg p src ch seq 0 0x11 op
        else if w.bytes ≠ bytes.length then s.answerMsg p src ch seq 0 0x12 op
        else
          match w.posted.find? (fun q => q.seq == seq) with
          | some q =>
            match (s.modRow slot ch (fun w => { w with posted := w.posted.filter (fun v => v != q) })).receive slot q bytes with
            | some s => s.answerMsg p src ch seq bytes.length 0 op
            | none => s
          | none =>
            match s.listAppend slot ch seq bytes with
            | .error .wait => s
            | .error (.stop _ t) => s.listFault slot t
            | .ok (true, s) => s.answerMsg p src ch seq bytes.length 0 op
            | .ok (false, s') =>
              if p.full then s
              else
                match s'.listHeld slot with
                | .error .wait => s
                | .error (.stop _ t) => s.listFault slot t
                | .ok (_, s) => s.modPkt p.id (fun p => { p with full := true })
  | _ => s

/-- CHANNEL_ARRIVAL (R305): a message that the port does not hold arrives, after those a release put before it (R265). -/
def execChannelArrival (id : Nat) (s : State) : Out :=
  .next (match s.pkt id with
    | some p =>
      match p.kind with
      | .msg _ _ _ _ op =>
        let behind := match s.ops.find? (fun o => o.id == op) with | some o => s.relBehind o | none => false
        if p.held || p.full || behind || s.heldBefore p then s
        else match s.deliverP p with | some slot => s.arrive p slot | none => s
      | _ => s
    | none => s)

/-- HELD_ARRIVAL_RETRY (R303): the arrivals held for space are tried again, oldest first. -/
def execHeldArrivalRetry (slot : Nat) (s : State) : Out :=
  .next ((s.front.pkts.filter (fun p => p.full && s.deliverP p == some slot)).foldl (fun (s : State) p => s.arrive p slot) s)

/-- SEND_ACCEPTANCE (R305, R306). -/
def execSendAcceptance (id : Nat) (s : State) : Out :=
  .next (match s.pkt id with
    | some p =>
      match p.kind with
      | .ack ch seq n code op =>
        match s.slotOfRank p.ctx p.job p.rank with
        | none => s
        | some slot =>
          if (s.rank slot).chanStop then s
          else
            let t := (s.dropPkt id).modRow slot ch (fun w => { w with ackseq := w.ackseq + 1 })
            match t.ops.find? (fun o => o.id == op) with
            | some o =>
              match o.kind with
              | .send _ _ _ stat =>
                match t.chanStatus o.key o.core slot o.tag o.wid stat (chanWord seq (if code = 0 then n else 0) code) with
                | some u => u.dropOp op
                | none => s
              | _ => t
            | none => t
      | _ => s
    | none => s)

/-- Whether a message that an operation sent to another module has not been answered. -/
def State.awaitsAck (s : State) (o : Op) : Bool :=
  s.outs.fabric.any (fun e => match e.2.kind with | .msg _ _ _ _ op => op == o.id | _ => false)
    && !s.front.pkts.any (fun p => match p.kind with | .msg _ _ _ _ op => op == o.id | .ack _ _ _ _ op => op == o.id | _ => false)

/-- Another module accepts or refuses a message (R305, R384): which of the two its row decides is open here. -/
def State.foreignAck (s : State) (id : Nat) : State :=
  match s.ops.find? (fun o => o.id == id) with
  | none => s
  | some o =>
    match o.kind with
    | .send ch seq _ _ =>
      let code := [0, 0x10, 0x11, 0x12].getD (Config.freeSched s.tick % 4) 0
      let r := s.rank o.slot
      let n := match r.row ch with | some w => w.bytes | none => 0
      if !s.awaitsAck o then s
      else
        let (i, s) := s.fresh
        { s with front := { s.front with
            pkts := s.front.pkts ++ [{ id := i, ctx := r.ctx, job := r.job, rank := r.vrank.toNat, kind := .ack ch seq n code id }] } }
    | _ => s

/-! The tree of R308. -/

/-- Element size of a collective's format. -/
def CollD.size (d : CollD) : Nat := if d.fmt = 1 then 2 else 4

/-- n elements as the tree's leaves: BF16 widened exactly. -/
def CollD.leaf (d : CollD) (n : Nat) (l : List Byte) : List Word32 :=
  (upto 0 n).map (fun i =>
    let v := leNat ((l.drop (d.size * i)).take d.size)
    BitVec.ofNat 32 (if d.fmt = 1 then v * 2 ^ 16 else v))

/-- Combine of one element (R308): the left operand covers the lower ranks. -/
def CollD.combine (d : CollD) (a b : Word32) : Word32 × Flags :=
  if d.fmt = 2 then
    (if d.op = 0 then a + b
     else if d.op = 1 then (if a.slt b then b else a)
     else (if b.slt a then b else a), 0)
  else
    let x := fp32.value a.toNat
    let y := fp32.value b.toNat
    if d.op = 0 then
      let (v, f) := exAdd .rne x y
      let (r, g) := narrow (.fp fp32) v .rne false
      (BitVec.ofNat 32 r, f ||| g)
    else
      let (v, f) := minMaxBits fp32 0x7FC00000 (d.op == 1) a.toNat b.toNat
      (BitVec.ofNat 32 v, f)

/-- Combine of two nodes' values; in a broadcast the values are ROOT's. -/
def CollD.combineAll (d : CollD) (a b : List Word32) : List Word32 × Flags :=
  if d.kind = 2 then (if a.isEmpty then b else a, 0)
  else
    let r := (a.zip b).map (fun e => d.combine e.1 e.2)
    (r.map (fun e => e.1), r.foldl (fun f e => f ||| e.2) 0)

/-- What the root's values become: BF16 is narrowed, a broadcast's bits stay as they are. -/
def CollD.final (d : CollD) (l : List Word32) : List Word32 × Flags :=
  if d.fmt = 1 && d.kind ≠ 2 then
    let r := l.map (fun v => narrow (.fp bf16) (fp32.value v.toNat) .rne false)
    (r.map (fun e => BitVec.ofNat 32 e.1), r.foldl (fun f e => f ||| e.2) 0)
  else (if d.fmt = 1 then l.map (fun (v : Word32) => v >>> (16 : Nat)) else l, 0)

/-- Ranks of the group. -/
def CollD.group (d : CollD) : Nat := d.last - d.first + 1

/-- Pieces of 1,024 elements (R309). -/
def CollD.pieces (d : CollD) : Nat := (d.count + 1023) / 1024

/-- Elements of a piece. -/
def CollD.pieceLen (d : CollD) (p : Nat) : Nat := min 1024 (d.count - 1024 * p)

/-- Whether two descriptors agree as R311 asks. -/
def CollD.agrees (a b : CollD) : Bool :=
  a.kind == b.kind && (a.op == b.op || a.kind == 2) && a.fmt == b.fmt && a.count == b.count && a.first == b.first && a.last == b.last
    && a.root == b.root

/-! The engines of R309. -/

def State.coll (s : State) (ctx : Nat) (job cid : Word32) : Option Coll :=
  s.front.colls.find? (fun c => c.ctx == ctx && c.job == job && c.d.cid == cid)

def State.putColl (s : State) (c : Coll) : State :=
  let same (v : Coll) : Bool := v.ctx == c.ctx && v.job == c.job && v.d.cid == c.d.cid
  { s with front := { s.front with
      colls := if s.front.colls.any same then mapIf same (fun _ => c) s.front.colls else s.front.colls ++ [c] } }

/-- The group ranks that other modules hold, one for each module. -/
def State.otherModules (s : State) (c : Coll) : List Nat :=
  ((upto c.d.first c.d.group).foldl (fun (a : List (Nat × Nat)) r =>
    match s.mapNode c.ctx c.job r with
    | some n => if n = s.mgmt.node.toNat || a.any (fun e => e.2 == n) then a else a ++ [(r, n)]
    | none => a) []).map (fun e => e.1)

/-- Sends a collective's result or failure to the other modules that hold a rank of the group. -/
def State.tellResult (s : State) (c : Coll) (vals : List Word32) (fl : Flags) (status : Nat) : State :=
  let outs := if c.d.kind = 1 && status = 0 then (if (s.slotOfRank c.ctx c.job c.d.root).isSome then [] else [c.d.root]) else s.otherModules c
  outs.foldl (fun (s : State) r => s.post c.ctx c.job r (.result c.d vals fl status)) s

/-- A failure of a collective, which every rank then receives (R311, R312). -/
def State.failColl (s : State) (c : Coll) (status : Nat) : State :=
  if c.status ≠ 0 then s else (s.putColl { c with status := status, nodes := [] }).tellResult c [] 0 status

/-- One action on a collective's nodes: the root becomes its piece of the result, which goes out when it is whole, a node without a right sibling passes on, two siblings combine, a node
whose parent belongs to another module goes there. -/
def State.nodeStep (s : State) (c : Coll) : Option (State × Coll) :=
  let home (lvl i : Nat) : Nat := c.d.first + i * 2 ^ lvl
  let mine (r : Nat) : Bool := (s.slotOfRank c.ctx c.job r).isSome
  let rest (v : CNode) : List CNode := c.nodes.filter (fun w => w != v)
  c.nodes.findSome? (fun v =>
    if v.index = 0 && decide (c.d.group ≤ 2 ^ v.level) then
      let (l, f) := c.d.final v.vals
      let c := { c with nodes := rest v, flags := c.flags ||| f, roots := c.roots.put v.piece l }
      if c.roots.length < c.d.pieces then some (s, c)
      else
        let all := (c.roots.map (fun e => e.2)).flatten
        some (s.tellResult c all c.flags 0, { c with result := some all })
    else if v.index % 2 = 1 then
      (if mine (home (v.level + 1) (v.index / 2)) then none
       else some (s.post c.ctx c.job (home (v.level + 1) (v.index / 2)) (.node c.d v c.flags false), { c with nodes := rest v }))
    else if c.d.group ≤ (v.index + 1) * 2 ^ v.level then
      some (s, { c with nodes := { v with level := v.level + 1, index := v.index / 2 } :: rest v })
    else
      match c.nodes.find? (fun w => w.piece == v.piece && w.level == v.level && w.index == v.index + 1) with
      | some w =>
        let (l, f) := c.d.combineAll v.vals w.vals
        let left := (rest v).filter (fun u => u != w)
        some (s, { c with nodes := { v with level := v.level + 1, index := v.index / 2, vals := l } :: left, flags := c.flags ||| f })
      | none => none)

/-- Forms every node that can be formed. -/
def State.nodeRun (s : State) (c : Coll) : (fuel : Nat) → State × Coll
  | 0 => (s, c)
  | n + 1 => match s.nodeStep c with | some (s, c) => s.nodeRun c n | none => (s, c)

/-- The die whose engine handles a collective here: the home die of the lowest rank of the group that the module holds (R309). -/
def State.collDie (s : State) (c : Coll) : Nat :=
  match (upto c.d.first c.d.group).findSome? (fun r => s.slotOfRank c.ctx c.job r) with
  | some i => (s.rank i).homedie
  | none => 0

/-- The nodes with two inputs that belong to this module in one piece of a collective: for each of its ranks, at relative rank x, those of the levels k at
which x starts a node whose right half is not empty (R308, R309). -/
def State.homedNodes (s : State) (c : Coll) : Nat :=
  ((s.jobSlots c.ctx c.job).map (fun i =>
    let v := (s.rank i).vrank.toNat
    let x := v - c.d.first
    if v < c.d.first || c.d.last < v then 0 else ((upto 1 17).filter (fun k => x % 2 ^ k == 0 && decide (x + 2 ^ (k - 1) < c.d.group))).length)).sum

/-- The 4 KiB parts of the reduction scratchpad that a piece holds at most: one for each node that it forms here, of 1,024 (R309). -/
def State.pieceRoom (s : State) (c : Coll) : Nat := min 1024 (s.homedNodes c)

/-- The pieces of a collective that are in the reduction scratchpad. -/
def Coll.open (c : Coll) : List Nat := (c.nodes.map (fun v => v.piece)).eraseDups

/-- Whether the 4 MiB reduction scratchpad of a collective's engine has room for a piece: it holds nodes there already, or its parts fit beside those of the
other pieces there (R11, R309). -/
def State.redRoom (s : State) (c : Coll) (piece : Nat) : Bool :=
  c.open.contains piece
    || decide (((s.front.colls.filter (fun v => s.collDie v == s.collDie c)).map (fun v => v.open.length * s.pieceRoom v)).sum + s.pieceRoom c ≤ 1024)

/-- A node joins a collective. -/
def State.addNode (s : State) (c : Coll) (v : CNode) : State :=
  if c.status ≠ 0 then s.putColl c
  else
    let c := { c with nodes := c.nodes ++ [v] }
    let (s, c) := s.nodeRun c (34 * (c.nodes.length + 1))
    s.putColl c

/-- Whether a contribution to a piece of a collective finds room in the engine; one of a collective that has failed needs none. -/
def State.collRoom (s : State) (ctx : Nat) (job : Word32) (d : CollD) (piece : Nat) : Bool :=
  let c := (s.coll ctx job d.cid).getD { ctx := ctx, job := job, d := d }
  c.status != 0 || s.redRoom c piece

/-- The contribution of an operation is complete, with what it met. -/
def State.partDone (s : State) (o : Op) (c : Coll) (code : Nat) (t : Option TrapRec := none) : State :=
  (s.putColl { c with parts := c.parts ++ [(o.slot, code)] }).modOp o.id (fun o => { o with moved := 1, piece := 0, trap := t })

/-- The next piece of a rank's contribution (R309, R311): the engine reads it from SRC, and it meets the contributions that came before. -/
def State.contribute (s : State) (o : Op) (d : CollD) : State :=
  let r := s.rank o.slot
  let c := (s.coll r.ctx r.job d.cid).getD { ctx := r.ctx, job := r.job, d := d }
  let n := d.pieceLen o.piece
  let takes := d.kind ≠ 2 || r.vrank.toNat = d.root
  let rd : Except OpFail (List Byte × State) :=
    if takes && c.status = 0 then s.agentRead o.core o.slot (d.src + 1024 * o.piece * d.size) (n * d.size) d.fresh else .ok ([], s)
  let fails (s : State) (code : Nat) : State := match s.coll r.ctx r.job d.cid with | some c => s.failColl c code | none => s
  match rd with
  | .error .wait => s
  | .error (.stop code t) => fails (s.partDone o c code (some t)) code
  | .ok (l, s) =>
    if c.status ≠ 0 then s.partDone o c c.status
    else if !c.d.agrees d then fails (s.partDone o c 0x20) 0x20
    else
      let last := d.pieces ≤ o.piece + 1
      let s := if last then s.modOp o.id (fun o => { o with moved := 1, piece := 0 }) else s.modOp o.id (fun o => { o with piece := o.piece + 1 })
      s.addNode (if last then { c with parts := c.parts ++ [(o.slot, 0)] } else c)
        { piece := o.piece, level := 0, index := r.vrank.toNat - d.first, vals := if takes then d.leaf n l else [] }

/-- The ranks whose DST a collective writes. -/
def CollD.takers (d : CollD) : Nat := if d.kind = 1 then 1 else d.group

/-- n more ranks have their result: the root's home counts them, and when every one has it, the collective has succeeded everywhere (R312). -/
def State.noteWritten (s : State) (c : Coll) (n : Nat) : State :=
  if (s.slotOfRank c.ctx c.job c.d.first).isNone then s.post c.ctx c.job c.d.first (.written c.d n)
  else
    let c := { c with written := c.written + n }
    if c.written < c.d.takers || c.status ≠ 0 then s.putColl c
    else
      let outs := if c.d.kind = 1 then (if (s.slotOfRank c.ctx c.job c.d.root).isSome then [] else [c.d.root]) else s.otherModules c
      outs.foldl (fun (s : State) r => s.post c.ctx c.job r (.final c.d)) (s.putColl { c with final := true })

/-- A node result or a result arrives from another module. -/
def State.collPacket (s : State) (p : Pkt) : State :=
  match p.kind with
  | .node d v fl _ =>
    let c := (s.coll p.ctx p.job d.cid).getD { ctx := p.ctx, job := p.job, d := d }
    let s := s.dropPkt p.id
    if !c.d.agrees d then s.failColl c 0x20 else s.addNode { c with flags := c.flags ||| fl } v
  | .result d vals fl status =>
    let c := (s.coll p.ctx p.job d.cid).getD { ctx := p.ctx, job := p.job, d := d }
    (s.dropPkt p.id).putColl
      (if c.status ≠ 0 then c
       else if status ≠ 0 then { c with status := status, nodes := [] }
       else { c with result := some vals, flags := fl })
  | .written d n => (s.dropPkt p.id).noteWritten ((s.coll p.ctx p.job d.cid).getD { ctx := p.ctx, job := p.job, d := d }) n
  | .final d =>
    match s.coll p.ctx p.job d.cid with
    | some c => (s.dropPkt p.id).putColl { c with final := true }
    | none => s.dropPkt p.id
  | _ => s

/-- COLLECTIVE_CONTRIBUTION (R309): a rank's own, or a packet's. -/
def execCollectiveContribution (id : Nat) (s : State) : Out :=
  .next (match s.ops.find? (fun o => o.id == id) with
    | some o =>
      match o.kind with
      | .coll d => if o.moved ≠ 0 || s.relBehind o || !s.collRoom o.ctx (s.rank o.slot).job d o.piece then s else s.contribute o d
      | _ => s
    | none =>
      match s.pkt id with
      | some p =>
        let room := match p.kind with | .node d v _ _ => s.collRoom p.ctx p.job d v.piece | _ => true
        if p.held || s.heldBefore p || (s.deliverP p).isNone || !room then s else s.collPacket p
      | none => s)

/-- SWITCH_LATE_FORWARD (R309): a node result goes on marked late. -/
def execSwitchLateForward (id : Nat) (s : State) : Out :=
  .next (s.modPkt id (fun p => match p.kind with
    | .node d v fl _ => { p with kind := .node d v fl true }
    | _ => p))

/-- The status word of R312. -/
def collWord (cid : Word32) (fl : Flags) (status : Nat) : Nat := cid.toNat * 2 ^ 32 + fl.toNat * 2 ^ 16 + status

/-- Ends a rank's collective: the status word, a release at level 7, then for OK the decrement, then any trap (R312, R321). -/
def State.endColl (s : State) (o : Op) (d : CollD) (fl : Flags) (status : Nat) : State :=
  let s := s.relAll (2 * (o.core % 512)) 7
  let s := match d.stat with
    | some a => s.complete o.key a (leBytes (collWord d.cid fl status) 8)
    | none => s
  let s := s.dropOp o.id
  let s := match d.tref with
    | some t => if status = 0 then s.sendDec o.key t 1 else s
    | none => s
  match o.trap with
  | some t => s.trapTo o.slot o.key t
  | none => s

/-- The bytes a rank's DST receives. -/
def CollD.bytes (d : CollD) (l : List Word32) : List Byte := (l.map (fun (v : Word32) => leBytes v.toNat d.size)).flatten

/-- COLLECTIVE_COMPLETE (R311, R312): a failure, an accepted contribution to another rank's reduce, or the result: first in DST, then, when every rank
has it there, the status word. FLAGS of a failure is a free value. -/
def execCollectiveComplete (slot : Nat) (cid : Word32) (s : State) : Out :=
  let r := s.rank slot
  .next (match s.ops.find? (fun o => o.slot == slot && (match o.kind with | .coll d => d.cid == cid | _ => false)), s.coll r.ctx r.job cid with
    | some o, some c =>
      match o.kind with
      | .coll d =>
        match c.parts.find? (fun e => e.1 == slot) with
        | none => s
        | some (_, st) =>
          let open7 : Flags := (Config.freeWord s.tick).setWidth 7
          if (match d.stat with | some a => s.fillHeld o.key a 8 | none => false) then s
          else if d.kind = 1 && r.vrank.toNat ≠ d.root then s.endColl o d 0 st
          else if c.status ≠ 0 then s.endColl o d open7 c.status
          else if o.piece ≠ 0 then (if c.final then s.endColl o d c.flags 0 else s)
          else
            match c.result with
            | none => s
            | some l =>
              match s.agentWrite { core := o.core, slot := slot, by_ := o.key, tag := o.tag, wid := o.wid } d.dst (d.bytes l) with
              | (_, some .wait) => s
              | (s, some (.stop code t)) => (s.failColl c code).endColl { o with trap := some t } d open7 code
              | (s, none) => (s.modOp o.id (fun o => { o with piece := 1 })).noteWritten c 1
      | _ => s
    | _, _ => s)

/-! COLL and BKARM (R310-R315). -/

/-- Reads a collective's descriptor at issue with the checks of R311. `stat` is the size of the status area, `more` a further check. -/
def State.collCheck (s : State) (a : SReg) (stat : Nat) (more : CollD → Bool) (f : CollD → State → Res) : Res :=
  let va := s.cur.readS a
  let rk := s.rank s.cur.slot
  s.access va 64 64 .load (fun ps s =>
    if s.dramWait ps then .stall true none
    else
    let (l, s) := s.readNow ps
    let w := words64 l
    let a0 := wordAt w 0
    let a1 := wordAt w 1
    let a2 := wordAt w 2
    let a3 := wordAt w 3
    let a4 := wordAt w 4
    let a5 := wordAt w 5
    let a6 := wordAt w 6
    let ck := fld a4 25 24
    let fmt := fld a4 27 26
    let op := fld a4 29 28
    let kind := fld a4 31 30
    let d : CollD :=
      { src := fld a0 55 0, dst := fld a1 55 0, cid := a2.extractLsb' 32 32, first := fld a3 31 16, last := fld a3 47 32, root := fld a3 63 48,
        count := fld a4 23 0, kind := kind, op := op, fmt := fmt, stat := if ck % 2 = 1 then some (fld a5 55 0) else none,
        tref := if 2 ≤ ck then some (s.cur.taskRef (fld a6 63 32)) else none }
    let v := match s.jobOf s.cur.ctx rk.job with | some (_, j) => j.v | none => 0
    let rsv := wordAt w 7 != 0 || fld a6 31 0 != 0 || fld a5 63 56 != 0 || fld a4 63 32 != 0 || fld a3 15 0 != 0 || fld a2 31 0 != 0
      || fld a1 63 56 != 0 || fld a0 63 56 != 0
    let area := d.stat.getD 0
    if area % 8 ≠ 0 then .trap (trapMisalign (BitVec.ofNat 64 area))
    else if d.src % d.size ≠ 0 then .trap (trapMisalign (BitVec.ofNat 64 d.src))
    else if d.dst % d.size ≠ 0 then .trap (trapMisalign (BitVec.ofNat 64 d.dst))
    else if rsv || kind = 3 || fmt = 3 || ck = 0 || d.count = 0 || (op = 3 && kind ≠ 2) || decide (d.last < d.first) || decide (v ≤ d.last)
        || (kind ≠ 0 && (decide (d.root < d.first) || decide (d.last < d.root))) then .trap (s.illop 0x14)
    else if inWindow d.src || inWindow d.dst then .trap (s.illop 0x14)
    else if more d then .trap (s.illop 0x14)
    else
      match (match d.stat with | some q => s.cur.winPieces (s.curKey / 2) q stat .ewrite | none => .ok []) with
      | .error t => .trap t
      | .ok _ =>
        if s.cur.vrank.toNat < d.first || d.last < s.cur.vrank.toNat then .trap (chanTrap 0x81 (Config.freeWord s.tick))
        else if rk.cids.contains d.cid then .trap (chanTrap 0x82 (Config.freeWord s.tick))
        else f d s)

/-- The CID is used from now on in this step, and the status word is empty. -/
def State.useCid (s : State) (d : CollD) : State :=
  let r := s.rank s.cur.slot
  (s.putRank s.cur.slot { r with cids := r.cids ++ [d.cid] }).statEmpty d.stat

/-- COLL (R310, R311). -/
def execColl (a : SReg) (s : State) : Out :=
  finish s (s.unheldAt (s.cur.readS a) (s.collCheck a 8 (fun _ => false) (fun d s =>
    if 8 ≤ (s.ops.filter (fun o => o.key == s.curKey && (match o.kind with | .coll _ => true | _ => false))).length || s.statHeld d.stat then
      .stall true none
    else .ok (((s.relAll s.curKey 7).useCid d).fork (.coll d)))))

/-- The lowest free bucket number. -/
def freeBucket (t : Tbl Bucket) : Nat := ((upto 0 16).find? (fun i => !t.has i)).getD 16

/-- BKARM (R313): c15 is latched as visible at issue. -/
def execBkarm (a : SReg) (b : SOp) (s : State) : Out :=
  let total := fld (s.cur.readOp b) 31 0
  finish s (s.unheldAt (s.cur.readS a) (s.collCheck a 16 (fun d => total == 0 || decide (d.count * d.size < total)) (fun d s =>
    let r := s.rank s.cur.slot
    if 16 ≤ r.buckets.length || s.statHeld d.stat 16 then .stall true none
    else
      let k : Bucket := { d := d, bytes := d.count * d.size, scale := s.cur.c.get 15, total := total, key := s.curKey, task := s.cur.task,
                          tag := s.cur.heatKey, wid := s.cur.wid }
      let s := (s.useCid d).statEmpty (d.stat.map (fun q => q + 8))
      let r := s.rank s.cur.slot
      .ok (s.putRank s.cur.slot { r with buckets := r.buckets.put (freeBucket r.buckets) k }))))

/-- A full bucket disarms, the latched scale is written, and its collective starts (R314). Where its task runs on no core the engine acts as no core's agent
(R67). -/
def State.fire (s : State) (slot bucket : Nat) (k : Bucket) : State :=
  let r := s.rank slot
  let s := s.putRank slot { r with buckets := r.buckets.del bucket }
  let s := match k.d.stat with
    | some a => s.complete k.key (a + 8) (leBytes k.scale.toNat 8)
    | none => s
  let (id, s) := s.fresh
  let core := if k.key < 1024 then k.key / 2 else agentOf (s.homeCore slot)
  { s with ops := s.ops ++ [{ id := id, key := k.key, ctx := r.ctx, slot := slot, core := core, task := k.task,
                              kind := .coll { k.d with fresh := true }, tag := k.tag, wid := k.wid }] }

/-- BUCKET_FIRE (R314). -/
def execBucketFire (slot bucket : Nat) (s : State) : Out :=
  .next (match (s.rank slot).buckets.find bucket with
    | none => s
    | some k =>
      if !k.full || (match k.d.stat with | some a => s.fillHeld k.key (a + 8) 8 | none => false) then s else s.fire slot bucket k)

/-- The buckets of a rank that have not fired are disarmed: they count no more, and their status words are still to be written. A full one has fired, and
its collective starts (R314, R315). -/
def State.disarm (s : State) (slot : Nat) : State :=
  let r := s.rank slot
  s.putRank slot { r with buckets := r.buckets.map (fun (e : Nat × Bucket) => (e.1, if e.2.full then e.2 else { e.2 with off := true })) }

/-- The status word of a disarmed bucket is written, which ends it (R315). At held banks the write waits (R288). -/
def State.disarmed (s : State) (slot bucket : Nat) : State :=
  let r := s.rank slot
  match r.buckets.find bucket with
  | none => s
  | some k =>
    if !k.off || (match k.d.stat with | some a => s.fillHeld k.key a 8 | none => false) then s
    else
      let s := s.putRank slot { r with buckets := r.buckets.del bucket }
      match k.d.stat with
      | some a => s.complete k.key a (leBytes (collWord k.d.cid 0 0x23) 8)
      | none => s

end Sys2Proof.Machine
end

