-- ==== Sys2Proof/Machine/Cox.lean ====
section
/-! DEFINITION. The Cox: messages and completions (R33-R36, R381), the event vector (R37-R39), launches (R23-R25, R38, R46, R345-R350),
predecessor counts (R40-R43), starting, scheduling and retiring tasks (R27-R31, R44-R51), heats (R347) and the catch (R348-R350). -/

namespace Sys2Proof.Machine

/-! The launch header (R23-R25). -/

def Launch.w (l : Launch) (i : Nat) : Word64 := wordAt l.d i
def Launch.codebase (l : Launch) : Nat := fld (l.w 0) 55 0
def Launch.tasktab (l : Launch) : Nat := fld (l.w 1) 55 0
def Launch.argptr (l : Launch) : Nat := fld (l.w 2) 55 0
def Launch.taskcnt (l : Launch) : Nat := fld (l.w 3) 63 48
def Launch.widths (l : Launch) : BitVec 42 := (l.w 3).extractLsb' 0 42
def Launch.det (l : Launch) : Bool := fld (l.w 4) 63 62 == 1
def Launch.grans (l : Launch) : Nat := fld (l.w 4) 39 32
def Launch.tiles (l : Launch) : Nat := fld (l.w 4) 27 24
def Launch.job (l : Launch) : Word32 := (l.w 5).extractLsb' 32 32
def Launch.last (l : Launch) : Nat := fld (l.w 5) 31 16
def Launch.first (l : Launch) : Nat := fld (l.w 5) 15 0
def Launch.step (l : Launch) : Word32 := (l.w 6).extractLsb' 32 32
def Launch.sl (l : Launch) : Bool := (l.w 6).getLsbD 31
def Launch.mask (l : Launch) (i : Nat) : BitVec 256 := l.w (i + 3) ++ l.w (i + 2) ++ l.w (i + 1) ++ l.w i

/-- Width field k. -/
def widthOf (w : BitVec 42) (k : Nat) : Nat := (w.extractLsb' (7 * k) 7).toNat

/-- w0 + … + wk. -/
def widthSum (w : BitVec 42) (k : Nat) : Nat := ((upto 0 (k + 1)).map (widthOf w)).sum

/-- Legal widths (R24). -/
def widthsOk (w : BitVec 42) : Bool :=
  (upto 0 6).all (fun k => decide (widthOf w k ≤ 64)) && decide (widthSum w 5 ≤ 64)
    && (upto 0 5).all (fun k => widthOf w k != 0 || widthOf w (k + 1) == 0)

/-- BADHDR of R25. The rule asks for an address field that is aligned; that TVOFF, an offset, is asked for the same is the model's choice (log 56). -/
def Launch.badHdr (l : Launch) : Bool :=
  fld (l.w 0) 63 56 != 1 || fld (l.w 1) 63 56 != 0 || fld (l.w 2) 63 56 != 0 || fld (l.w 3) 47 42 != 0 || fld (l.w 4) 47 40 != 0
    || fld (l.w 4) 31 28 != 0 || fld (l.w 4) 23 0 != 0 || fld (l.w 6) 30 0 != 0 || fld (l.w 7) 63 32 != 0
    || (upto 20 4).any (fun i => l.w i != 0) || decide (2 ≤ fld (l.w 4) 63 62) || (l.tiles != 4 && l.tiles != 8) || decide (16 < l.grans)
    || l.taskcnt == 0 || decide (l.last < l.first) || l.codebase % 64 != 0 || l.tasktab % 64 != 0 || l.argptr % 8 != 0
    || fld (l.w 7) 31 0 % 4 != 0 || (l.sl && l.origin)

/-- The held ranks of a launch's set (R24). -/
def State.setSlots (s : State) (c : Nat) (l : Launch) : List Nat :=
  (s.jobSlots c l.job).filter (fun i => decide (l.first ≤ (s.rank i).vrank.toNat) && decide ((s.rank i).vrank.toNat ≤ l.last))

/-- The status of the checks of R25. -/
def State.checkLaunch (s : State) (c : Nat) (l : Launch) : Nat :=
  let dpb := fld (l.w 4) 60 48
  if l.badHdr then 1
  else if !widthsOk l.widths then 2
  else if dpb = 0 || (s.ctxAt c).dpb.toNat < dpb then 3
  else if (s.jobOf c l.job).isNone || (s.setSlots c l).isEmpty then 4
  else 0

/-! Completion records (R34, R35). -/

/-- K0 to K2 of a record. -/
def record (status queue serial : Nat) (origin : Bool) (fcause : Byte) (step : Word32) (cycle : Word64) (run last first : Nat) : List Word64 :=
  [BitVec.ofNat 64 (status * 2 ^ 56 + queue * 2 ^ 53 + (if origin then 2 ^ 52 else 0) + serial * 2 ^ 45 + fcause.toNat * 2 ^ 37 + step.toNat),
   cycle, BitVec.ofNat 64 (run * 2 ^ 32 + last * 2 ^ 16 + first)]

/-- Records the host has not consumed. -/
def Ctx.unconsumed (c : Ctx) : Nat := (c.cqWritten + 2 ^ 32 - c.cqConsumed.toNat) % 2 ^ 32

/-- Writes one record into the ring. -/
def State.cqWrite (s : State) (c : Nat) (k : List Word64) : State :=
  let x := s.ctxAt c
  let n := x.cqWritten
  let size := 2 ^ x.cqlog.toNat
  let k3 : Word64 := BitVec.ofNat 64 (1 - n / size % 2)
  let s := s.putCtx c { x with cqWritten := n + 1 }
  { s with outs := { s.outs with host := s.outs.host ++ [(c, x.cqbase.toNat + 32 * (n % size), k ++ [k3])] } }

/-- Whether a record may be written now: the ring has space and no older record is held. -/
def Ctx.cqRoom (c : Ctx) : Bool := c.cqHeld.isEmpty && decide (c.unconsumed < 2 ^ c.cqlog.toNat)

/-- A record that no launch owns. -/
def State.cqPut (s : State) (c : Nat) (k : List Word64) : State :=
  if (s.ctxAt c).cqRoom then s.cqWrite c k else s.modCtx c (fun x => { x with cqHeld := x.cqHeld ++ [k] })

/-- Removes a launch from its queue. -/
def State.dropLaunch (s : State) (c q n : Nat) : State :=
  s.modCtx c (fun x => { x with queues := x.queues.put q ((x.queues.at q []).filter (fun l => l.serial != n)) })

/-- A launch ends with a status: its record is written and it leaves, or the record is held and it keeps its slot (R34, R35). RANKSRUN counts every held
rank of a launch that has started, also one on which no task ran: that is the model's choice (log 65). -/
def State.endLaunch (s : State) (c q : Nat) (l : Launch) (status : Nat) (fcause : Byte) : State :=
  let k := record status q l.serial l.origin fcause l.step s.cycle (if l.started then l.ranks.length else 0) l.last l.first
  if (s.ctxAt c).cqRoom then (s.cqWrite c k).dropLaunch c q l.serial
  else (s.modLaunch c q l.serial (fun l => { l with done := true })).modCtx c (fun x => { x with cqHeld := x.cqHeld ++ [k] })

/-- COMPLETION_RECORD_WRITE (R35): the oldest held record is written once there is space, and the launch that owns it leaves. -/
def execCompletionRecordWrite (ctx : Nat) (s : State) : Out :=
  let x := s.ctxAt ctx
  .next (match x.cqHeld with
    | k :: r =>
      if 2 ^ x.cqlog.toNat ≤ x.unconsumed then s
      else
        let s := (s.putCtx ctx { x with cqHeld := r }).cqWrite ctx k
        let st := fld (wordAt k 0) 63 56
        let q := fld (wordAt k 0) 55 53
        let n := fld (wordAt k 0) 51 45
        let owned := ((x.queues.at q []).find? (fun l => l.serial == n)).any (fun l => l.done)
        if st = 6 || st = 7 || st = 11 || !owned then s else s.dropLaunch ctx q n
    | [] => s)

/-- A discarded message: BADMSG with the queue that carried it (R33, R34). -/
def State.badMsg (s : State) (c q : Nat) : State := s.cqPut c (record 6 q 0 false 0 0 s.cycle 0 0 0)

/-! Task-table entries (R26, R27). -/

/-- A task-table entry. -/
structure Entry where
  wid : Word64 := 0
  pred : Nat := 0
  heat : Nat := 0
  off : Nat := 0
  succ : List Nat := []
  pair : Bool := false
  grans : Nat := 0
  tiles : Nat := 8
  deriving DecidableEq, Repr

/-- The words of an entry as the agent reads them; the read waits while the page is being bumped (R72). No core owns a page of HOME = 11 or the window
to the agent, so a table there faults OWNERSHIP (R67); that such an entry then counts as faulty, with FCAUSE 0x07, is the model's choice (log 56). -/
def State.entryWords (s : State) (l : Launch) (slot i : Nat) : Except OpFail (List Word64) :=
  match s.listRead slot (l.tasktab + 64 * i) 64 with
  | .ok (b, _) => .ok (words64 b)
  | .error e => .error e

/-- HEAT of an entry: none when it cannot be read, and nothing at all while the read waits. -/
def State.entryHeat (s : State) (l : Launch) (slot i : Nat) : Option (Option Nat) :=
  match s.entryWords l slot i with
  | .ok e => some (some (fld (wordAt e 1) 47 32))
  | .error .wait => none
  | .error (.stop _ _) => some none

/-- What reading an entry comes to (R27): it waits, it is faulty by a fault met in reading or by its content, or it stands. -/
inductive Reading where
  | wait
  | bad (t : Option TrapRec)
  | good (e : Entry)
  deriving DecidableEq, Repr

/-- An entry read and checked (R27). -/
def State.readEntry (s : State) (l : Launch) (slot i : Nat) : Reading :=
  match s.entryWords l slot i with
  | .error .wait => .wait
  | .error (.stop _ t) => .bad (some t)
  | .ok e =>
    let e1 := wordAt e 1
    let e2 := wordAt e 2
    let n := fld e2 15 11
    let succ := (upto 0 (min n 20)).map (fun j => fld (wordAt e (3 + j / 4)) (16 * (j % 4) + 15) (16 * (j % 4)))
    let tiles := fld e2 4 0
    let grans := fld e2 9 5
    let heat := fld e1 47 32
    let after := if l.det then succ.map (s.entryHeat l slot) else []
    if fld e2 63 16 ≠ 0 || 20 < n || succ.any (fun t => decide (l.taskcnt ≤ t)) || (tiles ≠ 4 && tiles ≠ 8) || l.tiles < tiles
        || l.grans < grans || 16 < grans then .bad none
    else if after.any (fun h => h.isNone) then .wait
    else if after.any (fun h => match h with | some (some h) => decide (h < heat) | _ => false) then .bad none
    else
      .good { wid := wordAt e 0, pred := fld e1 63 48, heat := heat, off := fld e1 31 0, succ := succ, pair := e2.getLsbD 10, grans := grans,
              tiles := tiles }

/-! Heats (R44, R347). -/

/-- The heats of a launch's entries on a rank, by task; none while the reading of one waits. -/
def State.heats (s : State) (l : Launch) (slot : Nat) : Option (List (Nat × Nat)) :=
  (upto 0 l.taskcnt).foldr (fun i a =>
    match a, s.entryHeat l slot i with
    | some r, some (some h) => some ((i, h) :: r)
    | some r, some none => some r
    | _, _ => none) (some [])

/-- The least of a list of numbers. -/
def least (l : List Nat) : Option Nat := l.foldl (fun a x => match a with | some m => some (min m x) | none => some x) none

/-- The heat that runs: the lowest until another has been let start. -/
def LRank.nowHeat (r : LRank) (hs : List (Nat × Nat)) : Nat := max r.heat ((least (hs.map (fun e => e.2))).getD 0)

/-! Starting a task (R44, R47, R48). -/

/-- Whether a task's count has reached zero (R41). -/
def LRank.ready (r : LRank) (i : Nat) (e : Entry) : Bool := decide (e.pred ≤ r.decs.at i 0)

/-- The next task of a launch on a rank: the lowest unstarted one that is ready and whose heat runs, unless a faulty entry, or one whose reading
waits, comes first (R27, R44). -/
def State.nextTask (s : State) (l : Launch) (r : LRank) : Option (Nat × Reading) :=
  if r.discarded || r.bad || (s.rank r.slot).caughtExec || (s.rank r.slot).state ≠ .active then none
  else
    match (if l.det then (s.heats l r.slot).map r.nowHeat else some 65535) with
    | none => none
    | some now =>
      (upto 0 l.taskcnt).findSome? (fun i =>
        if r.started.contains i then none
        else
          match s.readEntry l r.slot i with
          | .good e => if r.ready i e && decide (e.heat ≤ now) then some (i, .good e) else none
          | q => some (i, q))

/-- Granules of a core that no task holds, lowest first. -/
def State.freeGrans (s : State) (core : Nat) : List Nat := let h := s.heldGrans core; (upto 0 16).filter (fun g => !h.contains g)

/-- Whether a free core meets an entry's needs. -/
def State.fitsFree (s : State) (core : Nat) (e : Entry) : Bool :=
  !s.coreFenced core && (s.stream (core * 2)).isNone && (s.stream (core * 2 + 1)).isNone && decide (e.grans ≤ (s.freeGrans core).length)

/-- Whether an entry may run beside a core's primary (R47). -/
def State.fitsBeside (s : State) (core c : Nat) (e : Entry) : Bool :=
  !s.coreFenced core && (s.stream (core * 2 + 1)).isNone && e.tiles == 4 && e.pair && decide (e.grans ≤ (s.freeGrans core).length)
    && (match s.stream (core * 2) with | some x => x.ctx == c && x.tiles4 && x.pair && decide (x.grans + e.grans ≤ 16) | none => false)

/-- The deepest level at which two WIDs are kin, plus one; 0 for none (R29). -/
def kinLevel (w : BitVec 42) (a b : Word64) : Nat :=
  ((upto 0 6).filter (fun k => let lo := 64 - widthSum w k; a >>> lo == b >>> lo)).length

/-- The crews of class 1 of R48 for the launch with an identity, each with its kinship, in order. `Last retired` is read of each core of a crew (log 56). -/
def State.kinCrews (s : State) (c q lid slot : Nat) (w : BitVec 42) (wid : Word64) : List Nat :=
  let runs := (s.allStreams.filter (fun e => e.2.ctx == c && e.2.queue == q && e.2.lid == lid && e.2.slot == slot)).map (fun e => (e.1 / 16, e.2.wid))
  let last := (s.front.lastRun.filter (fun e => e.2.1 == c && e.2.2.1 == q && e.2.2.2.1 == lid && e.2.2.2.2.1 == slot)).map
    (fun e => (e.1 / 8, e.2.2.2.2.2))
  let level (crew : Nat) : Option Nat :=
    ((runs ++ last).filter (fun e => e.1 == crew)).foldl (fun a e => some (max (a.getD 0) (kinLevel w wid e.2))) none
  let crews := (upto 0 64).filterMap (fun k => (level k).map (fun v => (k, v)))
  ((upto 0 7).map (fun i => (crews.filter (fun e => e.2 == 6 - i)).map (fun e => e.1))).flatten

/-- Free cores of a die. -/
def State.freeCores (s : State) (d : Nat) : Nat :=
  ((upto (128 * d) 128).filter (fun k => !s.coreFenced k && (s.stream (k * 2)).isNone && (s.stream (k * 2 + 1)).isNone)).length

/-- The die with the most free cores. -/
def State.idleDie (s : State) : Nat :=
  (upto 1 3).foldl (fun a d => if s.freeCores a < s.freeCores d then d else a) 0

/-- The cores in the order of classes 1 to 4 of R48. -/
def State.coreOrder (s : State) (c q lid slot : Nat) (w : BitVec 42) (wid : Word64) : List Nat :=
  let crews := s.kinCrews c q lid slot w wid
  let dies := (crews.map (fun k => k / 16)).eraseDups
  ((crews.map (fun k => upto (8 * k) 8)).flatten ++ (dies.map (fun d => upto (128 * d) 128)).flatten
    ++ upto (128 * (s.rank slot).homedie) 128) ++ upto (128 * s.idleDie) 128

/-- The stream a ready task is bound to (R47, R48): its key. -/
def State.chooseCore (s : State) (c q : Nat) (l : Launch) (slot : Nat) (e : Entry) : Option Nat :=
  let order := s.coreOrder c q l.lid slot l.widths e.wid
  match order.find? (fun k => s.fitsFree k e) with
  | some k => some (k * 2)
  | none => (order.find? (fun k => s.fitsBeside k c e)).map (fun k => k * 2 + 1)

/-! Virtual time (R49, R50). -/

/-- The weight of a queue (R36). -/
def Ctx.weight (x : Ctx) (q : Nat) : Nat := fld x.qweight (8 * q + 7) (8 * q)

/-- A queue's startable tasks: on each rank of a started launch the next one. Among ranks any may come first (R44). -/
def State.startable (s : State) (c q : Nat) : List (Launch × LRank × Nat × Reading) :=
  let x := s.ctxAt c
  if x.weight q = 0 then []
  else (((x.queues.at q []).filter (fun l => l.started && !l.done)).map (fun l =>
    l.ranks.filterMap (fun r =>
      match s.nextTask l r with
      | some (_, .wait) => none
      | some (i, e) => some (l, r, i, e)
      | none => none))).flatten

/-- Every queue with its number, by context. -/
def State.queues (s : State) : List (Nat × Nat) := (s.front.ctxs.map (fun (e : Nat × Ctx) => (upto 0 8).map (fun q => (e.1, q)))).flatten

/-- Whether a queue has a startable task; a faulty entry is none (R27). -/
def State.hasTask (s : State) (c q : Nat) : Bool := (s.startable c q).any (fun t => match t.2.2.2 with | .good _ => true | _ => false)

/-- Whether a queue holds a core or contends for one: it has a task bound, or, if its weight is not 0 (R36), one pre-empted or startable. -/
def State.active (s : State) (c q : Nat) : Bool :=
  s.allStreams.any (fun e => e.2.ctx == c && e.2.queue == q)
    || ((s.ctxAt c).weight q != 0 && (s.ctxAt c).saved.any (fun v => v.stream.queue == q)) || s.hasTask c q

def State.vt (s : State) (c q : Nat) : Nat := (s.ctxAt c).vt.at q 0
def State.setVt (s : State) (c q v : Nat) : State := s.modCtx c (fun x => { x with vt := x.vt.put q v })

/-- The least virtual time of the queues that hold or contend for cores. -/
def State.leastVt (s : State) : Option Nat := least ((s.queues.filter (fun e => s.active e.1 e.2)).map (fun e => s.vt e.1 e.2))

/-- A queue that passes from having no task bound or startable to having one takes the maximum rule; `old` is the state before. -/
def State.wake (s old : State) (c q : Nat) : State :=
  if !old.active c q && s.active c q then
    match old.leastVt with
    | some m => s.setVt c q (max (s.vt c q) m)
    | none => s
  else s

/-- Every queue that something else has let contend takes the maximum rule: an entry can be read, a rank has arrived, a weight is no more 0. -/
def State.wakeAll (s old : State) : State := s.queues.foldl (fun (s : State) e => s.wake old e.1 e.2) s

/-- At a decision, 2^48 and more is subtracted from every virtual time (R50). -/
def State.rebase (s : State) : State :=
  match s.leastVt with
  | some m => if 2 ^ 48 ≤ m then s.queues.foldl (fun (s : State) e => s.setVt e.1 e.2 (s.vt e.1 e.2 - m)) s else s
  | none => s

/-- Whether one queue comes before another at a decision. -/
def State.earlier (s : State) (a b : Nat × Nat) : Bool :=
  let x := s.vt a.1 a.2
  let y := s.vt b.1 b.2
  decide (x < y) || (x == y && (decide (a.1 < b.1) || (a.1 == b.1 && decide (a.2 < b.2))))

/-- Whether a queue has a startable task for which some core is free. -/
def State.placeable (s : State) (e : Nat × Nat) : Bool :=
  (s.startable e.1 e.2).any (fun t => match t.2.2.2 with | .good d => (s.chooseCore e.1 e.2 t.1 t.2.1.slot d).isSome | _ => false)

/-- The stream of a core on which a saved stream could run: the primary of a free core, or the secondary beside a primary it may share with
(R47, R51, R331). A light save is met only by the core that holds its granules, and two holders of a stack do not share a window (R202). -/
def State.savedSeat (s : State) (v : Saved) (core : Nat) : Option Nat :=
  let x := v.stream
  let room := if v.full then decide (x.lgran.length ≤ (s.freeGrans core).length) else v.core == core
  if s.coreFenced core || !room || (s.stream (core * 2 + 1)).isSome then none
  else
    match s.stream (core * 2) with
    | none => some (core * 2)
    | some p =>
      if p.ctx == x.ctx && p.tiles4 && p.pair && x.tiles4 && x.pair && decide (p.grans + x.grans ≤ 16) && !(p.winHeld && x.winHeld) then some (core * 2 + 1)
      else none

/-- Whether a saved stream could run on a core. -/
def State.fitsSaved (s : State) (v : Saved) (core : Nat) : Bool := (s.savedSeat v core).isSome

/-- Whether a queue has a pre-empted task that some free core, of those given, meets; one of weight 0 resumes none (R36). -/
def State.resumable (s : State) (e : Nat × Nat) (cores : List Nat := upto 0 512) : Bool :=
  decide ((s.ctxAt e.1).weight e.2 ≠ 0) && (s.ctxAt e.1).saved.any (fun v =>
    v.stream.queue == e.2 && cores.any (fun k => s.fitsSaved v k))

/-- Whether no contender comes before a queue (R49). -/
def State.winner (s : State) (c q : Nat) : Bool :=
  !s.queues.any (fun e => e != (c, q) && s.earlier e (c, q) && (s.placeable e || s.resumable e))

/-! Granules for a recipient (R241). -/

/-- The lowest free received slot of a stream. -/
def Stream.recvSlot (x : Stream) : Option Nat := (upto 0 16).find? (fun i => !x.recv.has i)

/-- Whether a stream runs the task of a reference. -/
def State.isTask (s : State) (x : Stream) (t : TaskRef) : Bool :=
  x.ctx == t.ctx && x.slot == t.slot && x.task == t.task && (match s.refLaunch t with
    | some (q, l) => x.queue == q && x.lid == l.lid
    | none => false)

/-- Puts one granule into a stream's lowest free received slot. -/
def State.giveGran (s : State) (key : Nat) (o : Op) (core gran giver : Nat) : State :=
  match s.stream key with
  | none => s
  | some x =>
    match x.recvSlot with
    | none => s
    | some i => (s.putStream key { x with recv := x.recv.put i { core := core, gran := gran, giver := giver } }).dropOp o.id

/-- The granules that wait for a stream's task, in the order in which the agent received them (R241). -/
def State.deliverAll (s : State) (key : Nat) : State :=
  s.ops.foldl (fun (s : State) o =>
    match o.kind, s.stream key with
    | .gran c g w t, some x => if !s.refDrop t && s.isTask x t then s.giveGran key o c g w else s
    | _, _ => s) s

/-- The decrement that goes with a granule of a detached request, or the granule that goes with a decrement, is dropped with it (R301). -/
def State.dropPair (s : State) (o : Op) : State :=
  let isGran (p : Op) : Bool := match p.kind with | .gran _ _ _ _ => true | _ => false
  { s with ops := s.ops.filter (fun p => !((isGran o && o.moved != 0 && p.id + 1 == o.moved) || (isGran p && p.moved == o.id + 1))) }

/-- GRANULE_DELIVERY (R241): in order for its recipient; a reference that R42 would drop frees the granule. -/
def execGranuleDelivery (id : Nat) (s : State) : Out :=
  .next (match s.ops.find? (fun o => o.id == id) with
    | some o =>
      match o.kind with
      | .gran c g w t =>
        if s.refDrop t then ((s.dropOp id).dropPair o).lost t.ctx
        else
          let earlier := (s.ops.takeWhile (fun p => p.id != id)).any (fun p => match p.kind with | .gran _ _ _ u => u == t | _ => false)
          match s.allStreams.find? (fun e => s.isTask e.2 t) with
          | some (k, _) => if earlier then s else s.giveGran k o c g w
          | none => s
      | _ => s
    | none => s)

/-! Binding (R31). -/

/-- The cells of a stream's physical tiles: first tile and count (R106). -/
def tileRange (tiles4 sec : Bool) : Nat × Nat := if tiles4 then (if sec then (4, 4) else (0, 4)) else (0, 8)

/-- A stream's cells and part of the microprogram store are cleared (R31). -/
def Core.clearFor (c : Core) (tiles4 sec : Bool) : Core :=
  let (t, n) := tileRange tiles4 sec
  let (b, m) := if tiles4 then (if sec then (1024, 1024) else (0, 1024)) else (0, 2048)
  { c with
    mrf := c.mrf.zero (4096 * t) (4096 * n), parity := c.parity.filter (fun k => decide (k < 4096 * t) || decide (4096 * (t + n) ≤ k)),
    store := c.store.zero b m }

/-- Before granules are granted, the pinned lines that they hold are written back and given up (R235). -/
def State.shrinkPins (s : State) (core : Nat) (gs : List Nat) : State := s.unpinIf core (fun p => gs.contains p.gran)

/-- Clears a granule: its bytes, its full/empty bits, its errors. -/
def MemSys.clearGran (m : MemSys) (core g : Nat) : MemSys :=
  let k := core * 2 ^ 20 + g * 65536
  { m with spad := m.spad.zero k 65536, fe := m.fe.zero (k / 4) 16384, bad := m.bad.filter (fun w => decide (w < k / 4) || decide (k / 4 + 16384 ≤ w)) }

/-- The first state of a task (R31). HEAT holds the entry's field in free mode too, and an entry offset that is no multiple of 4 is taken as it is: its first
bundle lies at the word that holds that address (log 56). -/
def taskStream (x : Ctx) (c q : Nat) (l : Launch) (slot : Nat) (r : Rank) (i : Nat) (e : Entry) (gs : List Nat) (cycle : Nat) : Stream :=
  let pc := BitVec.ofNat 64 (l.codebase + e.off)
  { ctx := c, slot := slot, queue := q, serial := l.serial, lid := l.lid, task := i, step := l.step, tiles4 := e.tiles == 4, pair := e.pair, grans := e.grans,
    widths := l.widths, codebase := BitVec.ofNat 64 l.codebase, compat := (l.w 4).getLsbD 61, sl := l.sl, det := l.det,
    s := Cells.puts (w := 64) [] [(1, e.wid), (2, BitVec.ofNat 64 l.argptr), (3, r.vrank.setWidth 64)],
    tvec := BitVec.ofNat 56 (l.codebase + fld (l.w 7) 31 0), dpb := x.dpb, wid := e.wid, vrank := r.vrank, ctxid := BitVec.ofNat 6 c,
    heat := BitVec.ofNat 16 e.heat, pc := pc, npc := pc, lgran := (upto 0 gs.length).zip gs, sliceAt := cycle, succ := e.succ }

/-- Binds a task to a stream: tiles, granules and first state. -/
def State.bind (s : State) (key c q : Nat) (l : Launch) (slot i : Nat) (e : Entry) : State :=
  let core := key / 2
  let gs := (s.freeGrans core).take e.grans
  let s := s.shrinkPins core gs
  let s := s.putCore core ((s.coreOf core).clearFor (e.tiles == 4) (key % 2 == 1))
  let s := { s with mem := gs.foldl (fun m g => m.clearGran core g) s.mem }
  let s := s.putStream key (taskStream (s.ctxAt c) c q l slot (s.rank slot) i e gs s.cycle.toNat)
  let s := s.modLaunch c q l.serial (fun l => { l with ranks := mapIf (fun r => r.slot == slot) (fun r => { r with started := r.started ++ [i] }) l.ranks })
  s.deliverAll key

/-- A faulty entry stops further tasks of the launch on that rank (R27). FCAUSE is that of the first faulty entry of the launch (log 56). -/
def State.badEntry (s : State) (c q : Nat) (l : Launch) (slot : Nat) (t : Option TrapRec) : State :=
  let s := match t with
    | some { frame := some (f, va), .. } => s.contain slot va f
    | _ => s
  let f : Byte := match t with | some t => t.cause | none => 0
  s.modLaunch c q l.serial (fun l =>
    let l := { l with ranks := mapIf (fun r => r.slot == slot) (fun r => { r with bad := true }) l.ranks }
    if l.status = 0 then { l with status := 5, fcause := f } else l)

/-- TASK_START (R27, R31, R44, R47-R49, R51). -/
def execTaskStart (ctx queue serial slot task : Nat) (s : State) : Out :=
  .next (match (s.startable ctx queue).find? (fun t => t.1.serial == serial && t.2.1.slot == slot && t.2.2.1 == task) with
    | some (l, _, i, e) =>
      match e with
      | .wait => s
      | .bad t => s.badEntry ctx queue l slot t
      | .good e =>
        match s.chooseCore ctx queue l slot e with
        | some k => if s.winner ctx queue && !s.resumable (ctx, queue) then (s.rebase).bind k ctx queue l slot i e else s
        | none => s
    | none => s)

/-! Heads (R37, R38, R349). -/

/-- Whether a launch has started every task of its table on every held rank (R38). -/
def Launch.allStarted (l : Launch) : Bool := l.started && l.ranks.all (fun r => decide (l.taskcnt ≤ r.started.length))

/-- The head launch of a queue (R38). A launch that has ended with tasks not started, and keeps its slot because its record is held (R35), does not keep the
head position: that is the model's choice (log 65). -/
def headOf (ls : List Launch) : Option Launch := ls.find? (fun l => !l.done && !l.allStarted)

/-- Whether a launch is refused STALE (R349). -/
def State.stale (s : State) (c : Nat) (l : Launch) : Bool :=
  match s.jobOf c l.job with
  | some (_, j) => decide (l.step.toNat < j.next.toNat)
  | none => false

/-- Whether a head waits for its step, or for a rank that is moving or about to move (R349, R355, R356, R358). -/
def State.headWaits (s : State) (c : Nat) (l : Launch) : Bool :=
  (match s.jobOf c l.job with
   | some (_, j) => decide (j.next.toNat < l.step.toNat) || (!l.sl && l.step == j.next && j.state == .committed)
   | none => false)
    || (s.setSlots c l).any (fun i => (s.rank i).state == .departing || (s.rank i).state == .arriving || s.front.migrs.any (fun m => m.slot == i))

/-- Whether the CATCH of a rank has retired in its step (R349): no stream of the rank stands in it. -/
def State.catchOver (s : State) (slot : Nat) : Bool :=
  (s.rank slot).caughtExec && !s.allStreams.any (fun e => e.2.slot == slot && e.2.ending == 2)
    && !(s.ctxAt (s.rank slot).ctx).saved.any (fun v => v.stream.slot == slot && v.stream.ending == 2)

/-- A head starts: its clears, its ranks, the job's state, the recalls it calls for (R24, R37, R38, R350, R54). Its tasks for a rank whose CATCH has retired in
the step are discarded (R157, R349). The start is what counts as an accepted launch for the choice of R55: that is the model's choice (log 65). -/
def State.startLaunch (s : State) (c q : Nat) (l : Launch) : State :=
  let old := s
  let slots := s.setSlots c l
  let s := s.modCtx c (fun x => { x with ev := x.ev &&& ~~~(l.mask 16) })
  let ranks := slots.map (fun i =>
    let gone := s.catchOver i
    ({ slot := i, discarded := gone, caught := gone } : LRank))
  let s := s.modLaunch c q l.serial (fun l => { l with started := true, ranks := ranks })
  let s := slots.foldl (fun (s : State) i =>
    let r := s.rank i
    let cold := r.state == .cold || r.state == .evicting
    s.putRank i { r with lastLaunch := s.cycle.toNat, recallDue := r.recallDue || cold }) s
  let s := match s.jobOf c l.job with
    | some (k, j) => if l.sl && l.step == j.next && j.state == JState.committed then { s with front := { s.front with jobs := s.front.jobs.put k { j with state := .running } } } else s
    | none => s
  s.wake old c q

/-- Evaluates one queue's head against the vector as it stands (R36, R37, R349). -/
def State.evalHead (s : State) (c q : Nat) : State :=
  let x := s.ctxAt c
  match headOf (x.queues.at q []) with
  | none => s
  | some l =>
    if x.weight q = 0 || l.started || !l.checked then s
    else if s.stale c l then s.endLaunch c q l 10 0
    else if s.headWaits c l then s
    else if x.ev &&& l.mask 8 == l.mask 8 then s.startLaunch c q l
    else s

/-- Evaluates every head of a context, in ascending queue number (R37). -/
def State.evalHeads (s : State) (c : Nat) : State := (upto 0 8).foldl (fun (s : State) q => s.evalHead c q) s

/-- Changes a context's event vector as one update (R37). -/
def State.evUpdate (s : State) (c : Nat) (f : BitVec 256 → BitVec 256) : State := (s.modCtx c (fun x => { x with ev := f x.ev })).evalHeads c

/-- LAUNCH_HEAD (R25, R38, R349): a launch that becomes head is checked, then evaluated. -/
def execLaunchHead (ctx queue : Nat) (s : State) : Out :=
  .next (match headOf ((s.ctxAt ctx).queues.at queue []) with
    | none => s
    | some l =>
      if l.checked then s.evalHead ctx queue
      else
        let st := s.checkLaunch ctx l
        if st ≠ 0 then s.endLaunch ctx queue l st 0
        else if s.stale ctx l then s.endLaunch ctx queue l 10 0
        else (s.modLaunch ctx queue l.serial (fun l => { l with checked := true })).evalHead ctx queue)

/-! Messages (R33, R34, R35, R381). -/

/-- Enqueues a launch with the next serial of its queue (R34). -/
def State.enqueueLaunch (s : State) (c q : Nat) (d : List Word64) (origin : Bool) : State :=
  let (id, s) := s.fresh
  s.modCtx c (fun x =>
    let n := x.serials.at q 0
    { x with
      serials := x.serials.put q ((n + 1) % 128),
      queues := x.queues.put q (x.queues.at q [] ++ [{ d := d, serial := n, lid := id + 1, origin := origin }]) })

/-- Whether a queue holds 64 launches. -/
def Ctx.full (x : Ctx) (q : Nat) : Bool := decide (64 ≤ (x.queues.at q []).length)

/-- Whether a queue pair is bound to a context's queue, and not in the error state (R373). -/
def State.bound (s : State) (c q : Nat) : Bool := s.front.ctxs.has c && (s.ctxAt c).qps.contains q && !(s.ctxAt c).qpErr.contains q

/-- Whether the steps of R379 have ended for a context: the module's ports have trained, with its node number; the hypervisor has attested it, and has
installed a rank of a job of the context. -/
def State.started (s : State) (c : Nat) : Bool :=
  !s.mgmt.links.isEmpty && !s.mgmt.eth.isEmpty && s.mgmt.attested && (s.ctxAt c).up
    && s.front.jobs.any (fun (e : Nat × Job) => e.2.ctx == c && e.2.v != 0)

/-- LAUNCH_MESSAGE (R33, R34); one that comes before the steps of R379 have ended for its context is discarded. -/
def execLaunchMessage (ctx queue : Nat) (words : List Word64) (s : State) : Out :=
  .next
    (if !s.bound ctx queue then s
     else if words.length ≠ 24 || fld (wordAt words 0) 63 56 ≠ 1 then s.badMsg ctx queue
     else if !s.started ctx then s.badMsg ctx queue
     else if (s.ctxAt ctx).full queue then
       let l : Launch := { d := words }
       s.cqPut ctx (record 7 queue 0 false 0 l.step s.cycle 0 l.last l.first)
     else s.enqueueLaunch ctx queue words false)

/-- The mask of an event command; none when the command is discarded (R33). -/
def eventMask (kind : Nat) (w : List Word64) : Option (BitVec 256) :=
  if w.length ≠ 8 || fld (wordAt w 0) 63 56 ≠ kind || fld (wordAt w 0) 55 0 ≠ 0 || (upto 5 3).any (fun i => wordAt w i != 0) then none
  else some (wordAt w 4 ++ wordAt w 3 ++ wordAt w 2 ++ wordAt w 1)

/-- EVENT_SET_MESSAGE (R33, R37). -/
def execEventSetMessage (ctx queue : Nat) (words : List Word64) (s : State) : Out :=
  .next
    (if !s.bound ctx queue then s
     else match eventMask 2 words with | some m => s.evUpdate ctx (fun v => v ||| m) | none => s.badMsg ctx queue)

/-- EVENT_CLEAR_MESSAGE (R33, R37). -/
def execEventClearMessage (ctx queue : Nat) (words : List Word64) (s : State) : Out :=
  .next
    (if !s.bound ctx queue then s
     else match eventMask 3 words with | some m => s.evUpdate ctx (fun v => v &&& ~~~m) | none => s.badMsg ctx queue)

/-- COMPLETION_HEAD_MESSAGE (R33, R35). -/
def execCompletionHeadMessage (ctx queue : Nat) (words : List Word64) (s : State) : Out :=
  let x := s.ctxAt ctx
  let head := (wordAt words 1).setWidth 32
  .next
    (if !s.bound ctx queue then s
     else if words.length ≠ 8 || wordAt words 0 ≠ 0x0400000000000000 || fld (wordAt words 1) 63 32 ≠ 0
         || (upto 2 6).any (fun i => wordAt words i != 0) then s.badMsg ctx queue
     else if 2 ^ x.cqlog.toNat < ({ x with cqConsumed := head } : Ctx).unconsumed then s.badMsg ctx queue
     else s.putCtx ctx { x with cqConsumed := head })

/-- UNRECOGNISED_MESSAGE (R33): a SEND of any other length or first byte. -/
def execUnrecognisedMessage (ctx queue len : Nat) (words : List Word64) (s : State) : Out :=
  let b := fld (wordAt words 0) 63 56
  .next
    (if !s.bound ctx queue then s
     else if (len = 192 && b = 1) || (len = 64 && (b = 2 || b = 3 || b = 4)) then s
     else s.badMsg ctx queue)

/-- UNBOUND_QP_REQUEST (R381): answered as RoCE v2 answers; no record is written. -/
def execUnboundQpRequest (_qp : Nat) (s : State) : Out := .next s

/-! The S slot's Cox instructions (R30, R39, R46, R159). -/

/-- The bit an EVSET or EVTEST names. -/
def State.evBit (s : State) (a : SOp) : BitVec 256 := BitVec.ofNat 256 (2 ^ fld (s.cur.readOp a) 7 0)

/-- EVSET (R39): a release at level 3. -/
def execEvset (a : SOp) (s : State) : Out :=
  let b := s.evBit a
  finish s (.ok ((s.relAll s.curKey 3).evUpdate s.cur.ctx (fun v => v ||| b)))

/-- EVSET.CLR (R39). -/
def execEvsetClr (a : SOp) (s : State) : Out :=
  let b := s.evBit a
  finish s (.ok ((s.relAll s.curKey 3).evUpdate s.cur.ctx (fun v => v &&& ~~~b)))

/-- EVTEST (R39): the bit is read between issue and exposure. -/
def execEvtest (d : Dst) (a : SOp) (s : State) : Out :=
  finish s (.ok (s.out 8 (.ev d s.cur.ctx (fld (s.cur.readOp a) 7 0))))

/-- The first of a stream's EVTESTs that have not been served are served (R39); how many is free. -/
def State.serveEv (s : State) (key : Nat) : State :=
  let s := s.focus key
  let ts := s.cur.land.filter (fun e => e.tgt.tests)
  let some' := ts.take (Config.freeSched s.tick % ts.length + 1)
  s.serveTakes some'.contains

/-- EVTEST.TAKE (R39): the update that serves it comes between issue and exposure, and before every access that follows it (log 43). The release of an EVSET
performs what it orders, so the acquire at level 3 has nothing more to perform. -/
def execEvtestTake (d : Dst) (a : SOp) (s : State) : Out :=
  finish s (.ok (s.out 8 (.evTake d s.cur.ctx (fld (s.cur.readOp a) 7 0))))

/-- Field k of a WID under the stream's widths (R30). -/
def widField (w : BitVec 42) (k : Nat) (v : Word64) : Word64 :=
  BitVec.ofNat 64 (v.toNat / 2 ^ (64 - widthSum w k) % 2 ^ widthOf w k)

/-- Fields 0 to k of a WID (R30). -/
def widPrefix (w : BitVec 42) (k : Nat) (v : Word64) : Word64 :=
  BitVec.ofNat 64 (v.toNat / 2 ^ (64 - widthSum w k) * 2 ^ (64 - widthSum w k))

/-- WIDF (R30). -/
def execWidf (k : BitVec 3) (d : SReg) (a : SOp) (s : State) : Out :=
  finish s (.ok (s.out 1 (.s d.toNat (widField s.cur.widths k.toNat (s.cur.readOp a)))))

/-- WIDF.PFX (R30). -/
def execWidfPfx (k : BitVec 3) (d : SReg) (a : SOp) (s : State) : Out :=
  finish s (.ok (s.out 1 (.s d.toNat (widPrefix s.cur.widths k.toNat (s.cur.readOp a)))))

/-- WIDF.W (R30). -/
def execWidfW (d : SReg) (s : State) : Out := finish s (.ok (s.out 1 (.s d.toNat (s.cur.widths.setWidth 64))))

/-- The message QLAUNCH enqueues: the issuer's rank, job and step in place of the program's (R46). -/
def qlaunchWords (w : List Word64) (vrank job step : Nat) : List Word64 :=
  (upto 0 24).map (fun i =>
    if i = 5 then BitVec.ofNat 64 (job * 2 ^ 32 + vrank * 2 ^ 16 + vrank)
    else if i = 6 then BitVec.ofNat 64 (step * 2 ^ 32 + fld (wordAt w 6) 31 0)
    else wordAt w i)

/-- QLAUNCH (R46): a release at level 3. It waits for banks that the core's other stream holds (R288). -/
def execQlaunch (d a : SReg) (b : SOp) (s : State) : Out :=
  let va := s.cur.readS a
  let v := s.cur.readOp b
  let q := fld v 2 0
  finish s
    (if va.toNat % 64 ≠ 0 then .trap (trapMisalign va)
     else
       orTrap (s.cur.winPieces (s.curKey / 2) va.toNat 192 .load) (fun ps =>
         if ps.any (fun p => p.bad s.mem) then .trap (trap68 0x08 va.toNat 0xF .load 0x21)
         else if s.bankHeld s.curKey (winKeys ps) then .stall false none
         else if fld v 63 3 ≠ 0 then .ok (s.out 8 (.s d.toNat (0x11 <<< (56 : Nat))))
         else if (s.ctxAt s.cur.ctx).full q then .ok (s.out 8 (.s d.toNat (0x10 <<< (56 : Nat))))
         else
           let w := qlaunchWords (words64 (winBytes s.vspad ps)) s.cur.vrank.toNat (s.rank s.cur.slot).job.toNat s.cur.step.toNat
           let n := (s.ctxAt s.cur.ctx).serials.at q 0
           .ok (((s.relAll s.curKey 3).enqueueLaunch s.cur.ctx q w true).out 8 (.s d.toNat (BitVec.ofNat 64 (q * 128 + n))))))

/-! Slices (R49, R159, R325). -/

/-- Length of a slice in cycles. -/
def Ctx.slice (x : Ctx) : Nat := (if x.quantum = 0 then 4096 else x.quantum.toNat) * 1024

/-- Save areas of a context that hold no saved stream (R326). -/
def Ctx.freeArea (x : Ctx) : Option Nat := (upto 0 x.csaslots.toNat).find? (fun i => !x.saved.any (fun v => v.area == i))

/-- Whether a contender with strictly smaller virtual time has a task that would fit a stream's core once it leaves. -/
def State.beaten (s : State) (key : Nat) (x : Stream) : Bool :=
  let t : State := if s.curLive && key == s.curKey then { s with curLive := false } else { s with streams := s.streams.del key }
  s.queues.any (fun e =>
    decide (s.vt e.1 e.2 < s.vt x.ctx x.queue) &&
      ((t.startable e.1 e.2).any (fun c => match c.2.2.2 with
        | .good d => t.fitsFree (key / 2) d || (key % 2 == 1 && t.fitsBeside (key / 2) e.1 d)
        | _ => false)
        || t.resumable e [key / 2]))

/-- Asks for a light pre-emption under R49 or R159, unless no save area is free (R326). -/
def State.askLight (s : State) (key : Nat) (x : Stream) : State :=
  if (s.ctxAt x.ctx).freeArea.isNone || x.pre ≠ 0 then s else s.putStream key { x with pre := 1, preSince := s.cycle.toNat }

/-- The decision of R49 for a stream whose slice has ended: pre-emption, or a new slice. -/
def State.decide49 (s : State) (key : Nat) : State :=
  let s := s.rebase
  match s.stream key with
  | none => s
  | some x =>
    let x := { x with sliceAt := s.cycle.toNat }
    if s.beaten key x || (s.ctxAt x.ctx).weight x.queue = 0 then (s.putStream key x).askLight key x else s.putStream key x

/-- SLICE_END (R36, R49). -/
def execSliceEnd (key : Nat) (s : State) : Out :=
  .next (match s.stream key with
    | some x => if x.halted || x.stopped || decide (s.cycle.toNat < x.sliceAt + (s.ctxAt x.ctx).slice) then s else s.decide49 key
    | none => s)

/-- YIELD (R159). -/
def execYield (s : State) : Out := finish s (.ok (s.decide49 s.curKey))

/-- STARVATION_HOLD (R115): after 256 refused cycles the primary is held for the next cycle, but not inside its hold. -/
def execStarvationHold (core : Nat) (s : State) : Out :=
  .next (match s.stream (core * 2), s.stream (core * 2 + 1) with
    | some p, some q => if 256 ≤ q.refused && p.hold.isNone then s.putStream (core * 2) { p with starved := true } else s
    | _, _ => s)

/-! Decrements (R41-R43). -/

/-- TKDEC (R43): a release at level 3; it stalls while the agent's 16-entry queue for the core is full. -/
def execTkdec (a b : SOp) (s : State) : Out :=
  let core := s.curKey / 2
  let n := fld (s.cur.readOp b) 15 0
  finish s (s.unheld
    (if 16 ≤ (s.ops.filter (fun o => match o.kind with | .dec _ _ (some c) => c == core | _ => false)).length then .stall true none
     else if n = 0 then .ok (s.relAll s.curKey 3)
     else
       let t := s.cur.taskRef (fld (s.cur.readOp a) 31 0)
       let (i, s) := (s.relAll s.curKey 3).fresh
       .ok { s with ops := s.ops ++ [{ id := i, key := s.curKey, ctx := t.ctx, slot := t.slot, kind := .dec t n (some core) }] }))

/-- PREDECESSOR_DECREMENT (R41, R42). -/
def execPredecessorDecrement (id : Nat) (s : State) : Out :=
  .next (match s.ops.find? (fun o => o.id == id) with
    | some o =>
      match o.kind with
      | .dec t n _ =>
        let s1 := s.dropOp id
        if s.refDrop t then (s1.dropPair o).lost t.ctx
        else
          match s.refLaunch t with
          | some (q, l) =>
            (s1.modLaunch t.ctx q l.serial (fun l => { l with ranks := mapIf (fun r => r.slot == t.slot) (fun r =>
              { r with decs := r.decs.put t.task (r.decs.at t.task 0 + n) }) l.ranks })).wake s t.ctx q
          | none => s1
      | _ => s
    | none => s)

/-! The catch (R157, R348-R350). -/

/-- CATCH (R157): for a task of its rank's step launch. A second one of the rank in the step ends its task as TEND does. -/
def execCatch (s : State) : Out :=
  finish s
    (if !s.cur.sl then .trap (s.illop 0x13)
     else
       let r := s.rank s.cur.slot
       if r.caughtExec then .ok { s with cur := { s.cur with ending := 1 } }
       else
         let s := s.putRank s.cur.slot { r with caughtExec := true }
         .ok { s with cur := { s.cur with ending := 2 } })

/-- The unstarted tasks of a rank's launches of a step are discarded (R349). -/
def State.discardStep (s : State) (c slot : Nat) (step : Word32) : State :=
  let mine (l : Launch) (r : LRank) : Bool := r.slot == slot && !r.discarded && decide (r.started.length < l.taskcnt)
  let one (l : Launch) : Launch :=
    if l.started && !l.done && l.step == step then
      { l with ranks := mapIf (mine l) (fun r => { r with discarded := true, caught := true }) l.ranks }
    else l
  s.modCtx c (fun x => { x with queues := x.queues.map (fun (e : Nat × List Launch) => (e.1, e.2.map one)) })

/-- Whether an operation is one a retirement waits for (R156). -/
def Op.awaited (o : Op) : Bool :=
  match o.kind with
  | .gran _ _ _ _ => false
  | .dec _ _ _ => false
  | .trap => false
  | _ => true

/-- Whether the conditions of R348 hold for a rank in its job's step, and nothing that the rank issued is in flight (R17): also what a bucket has fired
whose task has retired. -/
def State.isQuiet (s : State) (slot : Nat) (j : Job) : Bool :=
  let r := s.rank slot
  let x := s.ctxAt r.ctx
  r.caughtExec
    && !s.allStreams.any (fun e => e.2.slot == slot && e.2.step == j.next) && !x.saved.any (fun v => v.stream.slot == slot && v.stream.step == j.next)
    && !(x.queues.map (fun (e : Nat × List Launch) => e.2)).flatten.any (fun l =>
        l.started && !l.done && l.step == j.next && l.ranks.any (fun k => k.slot == slot && !k.discarded))
    && !s.ops.any (fun o => o.slot == slot && o.awaited)

/-- Whether a rank is caught in its job's step: no bucket crosses the catch (R315). -/
def State.isCaught (s : State) (slot : Nat) (j : Job) : Bool := s.isQuiet slot j && (s.rank slot).buckets.isEmpty

/-- The coordinator counts caught ranks and sends COMMIT to every node of the rank map (R350 step 3). -/
def State.countCaught (s : State) (k : Nat) (j : Job) (step : Word32) (n : Nat) : State :=
  let put (s : State) (j : Job) : State := { s with front := { s.front with jobs := s.front.jobs.put k j } }
  if j.caught + n < j.v then put s { j with caught := j.caught + n }
  else
    let s := put s { j with caught := 0 }
    let s := (upto 0 j.v).foldl (fun (s : State) r => s.readMap j.ctx j.job r) s
    let nodes := ((upto 0 j.v).filterMap (fun r => s.mapNode j.ctx j.job r)).eraseDups
    nodes.foldl (fun (s : State) d =>
      let (i, s) := s.fresh
      let p : Pkt := { id := i, ctx := j.ctx, job := j.job, kind := .commit step }
      s.sendTo d p) s

/-- When every rank of a job in an H state is caught, the module sets CAUGHT and reports its ranks (R350 step 2): each once in a step, so one recalled
after the report is reported by itself (log 57). -/
def State.reportCaught (s : State) (c : Nat) (job : Word32) : State :=
  match s.jobOf c job with
  | none => s
  | some (k, j) =>
    let hs := (s.jobSlots c job).filter (fun i => (s.rank i).state.isH)
    let new := hs.filter (fun i => !(s.rank i).reported)
    if !hs.all (fun i => (s.rank i).caught) || j.state == .committed || new.isEmpty then s
    else
      let j := { j with state := JState.caught }
      let s := new.foldl (fun (s : State) i => s.putRank i { s.rank i with reported := true }) { s with front := { s.front with jobs := s.front.jobs.put k j } }
      if j.coord == s.mgmt.node then s.countCaught k j j.next new.length
      else
        let (i, s) := s.fresh
        s.sendTo j.coord.toNat { id := i, ctx := j.ctx, job := j.job, kind := .caught j.next new.length }

/-- A rank may have become caught (R348); its unstarted tasks of the step are then discarded (R349). A bucket that a task has armed after the CATCH is disarmed
first (R315). -/
def State.checkCaught (s : State) (slot : Nat) : State :=
  let r := s.rank slot
  match s.jobOf r.ctx r.job with
  | none => s
  | some (_, j) =>
    if r.caught || !s.isQuiet slot j then s
    else if !r.buckets.isEmpty then s.disarm slot
    else ((s.putRank slot { r with caught := true }).discardStep r.ctx slot j.next).reportCaught r.ctx r.job

/-- Whether that does something. -/
def State.catchDue (s : State) (slot : Nat) : Bool :=
  let r := s.rank slot
  r.caughtExec && !r.caught && (match s.jobOf r.ctx r.job with
    | some (_, j) => s.isQuiet slot j && (r.buckets.isEmpty || r.buckets.any (fun (e : Nat × Bucket) => !e.2.full && !e.2.off))
    | none => false)

/-- The record of a job number, in whichever context. -/
def State.jobNo (s : State) (job : Word32) : Option (Nat × Job) := s.front.jobs.find? (fun e => e.2.job == job && e.2.v != 0)

/-- CAUGHT_MESSAGE (R350 step 3): it reaches the coordinator. One of the next step may come before the coordinator's own COMMIT of this one, whose ranks are
then all counted. -/
def execCaughtMessage (job step : Word32) (count : Nat) (s : State) : Out :=
  .next (match s.jobNo job with
    | some (k, j) => if j.coord == s.mgmt.node && (j.next == step || j.next + 1 == step) then s.countCaught k j step count else s
    | none => s)

/-- COMMIT_MESSAGE (R350 step 4): deques emptied, NEXT and STATE, the COMMIT record, also to the hypervisor (R375), the event bit. The ranks begin a new step,
with the coordinator that a map update has named for it (R16, R357). -/
def execCommitMessage (job step : Word32) (s : State) : Out :=
  .next (match s.jobNo job with
    | none => s
    | some (k, j) =>
      if j.next ≠ step then s
      else
        let slots := s.jobSlots j.ctx job
        let ranks := slots.map (fun i => (s.rank i).vrank.toNat)
        let empty (q : Deque) : Deque := if q.n != 0 && q.ctx == j.ctx && ranks.contains q.rank then {} else q
        let s := { s with crews := s.crews.map (fun (e : Nat × Crew) => (e.1, { e.2 with deques := e.2.deques.map (fun (d : Nat × Deque) => (d.1, empty d.2)) })) }
        let j := { j with next := step + 1, state := JState.committed, coord := j.coordNext.getD j.coord, coordNext := none }
        let s := { s with front := { s.front with
          jobs := s.front.jobs.put k j, colls := s.front.colls.filter (fun c => !(c.ctx == j.ctx && c.job == job)) } }
        let s := slots.foldl (fun (s : State) i => s.putRank i { s.rank i with caughtExec := false, caught := false, reported := false, cids := [] }) s
        let k := record 11 0 0 false 0 step s.cycle slots.length 0 0
        let s := s.cqPut j.ctx k
        let s := { s with outs := { s.outs with commits := s.outs.commits ++ [(j.ctx, k)] } }
        if j.cmten then s.evUpdate j.ctx (fun v => v ||| BitVec.ofNat 256 (2 ^ j.cmtev.toNat)) else s.evalHeads j.ctx)

/-! Retiring (R156, R301, R345-R347). -/

/-- Whether the conditions of R156, R301 and R307 hold, parked requests and the window apart. -/
def State.workDone (s : State) (key : Nat) (x : Stream) : Bool :=
  x.land.isEmpty && x.pend.isEmpty && !(s.coreOf (key / 2)).calls.any (fun c => c.key == key)
    && !s.ops.any (fun o => o.key == key && o.awaited) && x.winAgent != 1 && x.winAgent != 2
    && !s.treqs.any (fun t => t.key == key && !t.parked) && decide (s.windowPosts key x.slot = 0)

/-- The granules of a stream's detached parked requests, with the task each is for (R301). -/
def State.detachedGrans (s : State) (key : Nat) : List (Nat × Nat × TaskRef) :=
  (s.treqs.filter (fun t => t.key == key && t.detach && !t.withdraw)).foldl (fun a t =>
    let k := (t.place.headD (0, 0)).1 / 65536
    if a.any (fun e => e.1 == k / 16 && e.2.1 == k % 16) then a else a ++ [(k / 16, k % 16, t.tref)]) []

/-- Parked requests meet their fates (R301): which are withdrawn, and which are lost with their reference. -/
def State.settleParked (s : State) (key : Nat) (x : Stream) : State :=
  let room := 16 - (s.rank x.slot).waiting.length
  let keep := ((s.detachedGrans key).filter (fun g => !s.refDrop g.2.2)).take room
  let kept (t : TReq) : Bool := t.detach && t.place.all (fun p => keep.any (fun g => g.1 * 16 + g.2.1 == p.1 / 65536))
  let gone := (s.detachedGrans key).filter (fun g => s.refDrop g.2.2)
  let s := gone.foldl (fun (s : State) g => s.lost g.2.2.ctx) s
  { s with treqs := mapIf (fun t => t.key == key && !t.withdraw && !kept t) (fun t => { t with withdraw := true, detach := false }) s.treqs }

/-- Whether a parked request still waits for its fate or for the slice's answer. -/
def State.parkedOpen (s : State) (key : Nat) : Bool := s.treqs.any (fun t => t.key == key && (t.withdraw || !t.detach))

/-- The granules of detached requests become waiting granules of the rank (R301). -/
def State.setAside (s : State) (key : Nat) (x : Stream) : State :=
  let gs := s.detachedGrans key
  let r := s.rank x.slot
  let s := s.putRank x.slot { r with waiting := r.waiting ++ gs.map (fun g => { core := g.1, gran := g.2.1, giver := x.task, dest := g.2.2 }) }
  { s with treqs := mapIf (fun t => t.key == key) (fun t => { t with key := deadKey }) s.treqs }

/-- A task is counted as retired (R345 step 7). -/
def State.countRetired (s : State) (x : Stream) : State :=
  s.modLaunch x.ctx x.queue x.serial (fun l => { l with ranks := mapIf (fun r => r.slot == x.slot) (fun r => { r with retired := r.retired ++ [x.task] }) l.ranks })

/-- Steps 2 to 7 of R345, in order. -/
def State.retire (s : State) (key : Nat) (x : Stream) : State :=
  let s := (s.setAside key x).leaveCore key x.slot
  let s := s.relAll key (if x.ending = 2 then 7 else 3)
  let s := s.dropStream key
  let me (t : Nat) : TaskRef := { ctx := x.ctx, queue := x.queue, lid := x.lid, slot := x.slot, task := t }
  let s := x.succ.foldl (fun (s : State) t => s.sendDec deadKey (me t) 1) s
  let s := s.countRetired x
  let s := if x.ending = 2 then s.discardStep x.ctx x.slot x.step else s
  s.checkCaught x.slot

/-- Step 1 of R345 ends: the hold on the rank's stack is released. -/
def State.releaseStack (s : State) (key : Nat) (x : Stream) : State :=
  if x.winHeld then (s.putRank x.slot { s.rank x.slot with stkHold := none }).putStream key { x with winHeld := false, winAgent := 0, flushing := false } else s

/-- TASK_RETIRE (R156, R301, R345): once its work is complete, the window is spilled, the parked requests meet their fates, and the task
retires. -/
def execTaskRetire (key : Nat) (s : State) : Out :=
  .next (match s.stream key with
    | none => s
    | some x =>
      if x.ending = 0 || !s.workDone key x then s
      else if x.winHeld && x.flushing && x.winAgent = 3 then s.taskFail key ((x.async.getLast?.map (fun t => t.cause)).getD 0x0C)
      else if x.winHeld && !x.win.isEmpty then s.putStream key { x with flushing := true, winAgent := 0 }
      else
        let s := (s.releaseStack key x).settleParked key x
        if s.parkedOpen key then s else s.retire key x)

/-- Whether a launch is finished on every rank (R346). -/
def Launch.finished (l : Launch) : Bool :=
  l.started && l.ranks.all (fun r =>
    (r.discarded || r.bad || decide (l.taskcnt ≤ r.started.length)) && decide (r.started.length ≤ r.retired.length))

/-- The status a launch retires with (R346). -/
def Launch.endStatus (l : Launch) : Nat := if l.status ≠ 0 then l.status else if l.ranks.any (fun r => r.caught) then 12 else 0

/-- Whether a heat of a launch has still to commit on one of its ranks (R347). -/
def State.heatsOpen (s : State) (l : Launch) : Bool :=
  l.det && l.ranks.any (fun r =>
    match s.heats l r.slot with
    | none => true
    | some hs => !r.heatDone || hs.any (fun e => decide (r.heat < e.2)))

/-- LAUNCH_RETIRE (R346): SETMASK for OK, then the record; the ranks may now be caught. The heats of a deterministic launch commit before (R347). -/
def execLaunchRetire (ctx queue serial : Nat) (s : State) : Out :=
  .next (match s.launch ctx queue serial with
    | none => s
    | some l =>
      if l.done || !l.finished || s.heatsOpen l then s
      else
        let st := l.endStatus
        let s := if st = 0 then s.modCtx ctx (fun x => { x with ev := x.ev ||| l.mask 12 }) else s
        let s := s.endLaunch ctx queue l st (if st = 8 || st = 5 then l.fcause else 0)
        let s := l.ranks.foldl (fun (s : State) r => s.checkCaught r.slot) s
        s.evalHeads ctx)

/-- Whether every task of a heat and of lower ones has retired (R347); one that will never start is not waited for (log 56). -/
def LRank.heatOver (r : LRank) (hs : List (Nat × Nat)) (h : Nat) : Bool :=
  hs.all (fun e => decide (h < e.2) || r.retired.contains e.1 || ((r.discarded || r.bad) && !r.started.contains e.1))

/-- HEAT_COMMIT (R347): every task of the heat and of lower ones has retired; every slice releases the tag records of the heat. -/
def execHeatCommit (ctx queue serial slot : Nat) (s : State) : Out :=
  .next (match s.launch ctx queue serial with
    | none => s
    | some l =>
      match l.ranks.find? (fun r => r.slot == slot) with
      | none => s
      | some r =>
        match s.heats l slot with
        | none => s
        | some hs =>
        let h := r.nowHeat hs
        if !l.started || !l.det || r.heatDone || !r.heatOver hs h || ((s.rank slot).state != .active && !r.discarded) then s
        else
          let key := [ctx, queue, serial, slot, h]
          let s := { s with mem := { s.mem with tags := s.mem.tags.filter (fun (t : Nat × HTag) => t.2.key != key) } }
          s.modLaunch ctx queue serial (fun l => { l with ranks := mapIf (fun r => r.slot == slot) (fun r => { r with heat := h, heatDone := true }) l.ranks }))

/-- NEXT_HEAT_START (R347): the lowest heat above the committed one may start. -/
def execNextHeatStart (ctx queue serial slot : Nat) (s : State) : Out :=
  .next (match s.launch ctx queue serial with
    | none => s
    | some l =>
      match l.ranks.find? (fun r => r.slot == slot) with
      | none => s
      | some r =>
        match least ((((s.heats l slot).getD []).map (fun e => e.2)).filter (fun h => decide (r.heat < h))) with
        | some h =>
          if !r.heatDone then s
          else
            let s1 := s.modLaunch ctx queue serial (fun l => { l with ranks := mapIf (fun r => r.slot == slot) (fun r => { r with heat := h, heatDone := false }) l.ranks })
            s1.wake s ctx queue
        | none => s)

end Sys2Proof.Machine
end

