-- ==== Sys2Proof/Machine/Fetch.lean ====
section
/-! DEFINITION. Fetching a bundle: code lines held ahead of issue, the header and its slot words, the checks of R84 in their
order, landing (R88), breakpoints (R337). -/

namespace Sys2Proof.Machine

/-- Bytes of code as fetch reads them: the home slice or a replica on the fetching die, or a held scratchpad granule. -/
def State.codeBytes (s : State) (x : Stream) (key : Nat) (p : Piece) : List Byte × State :=
  match p.pl with
  | .win k => (s.mem.spad.bytes p.n k, s)
  | .glob pa e => s.readRun key x.slot x.ctx p.va pa p.n e false

/-- What fetching one word ends in: the word, a fault, or a stall on a buffer that is being bumped (R72), on banks that another stream holds (R288), or
on a bank in refresh (R255). -/
inductive Fetched where
  | word (w : Word32) (s : State)
  | trap (t : TrapRec)
  | wait

/-- Fetches the word at an address for the focused stream, whose held lines do not see later stores (R90, R91). -/
def State.fetchWord (s : State) (va : Nat) : Fetched :=
  let base := va / 128 * 128
  match s.cur.code.find? (fun l => l.1 == base) with
  | some l => .word (l.2.getD (va % 128 / 4) 0) s
  | none =>
    match s.pieces s.cur (s.curKey / 2) base 128 .fetch with
    | .error t => .trap { t with addr := BitVec.ofNat 64 va }
    | .ok (ps, s) =>
      if s.piecesWait s.cur.ctx s.curKey ps then .wait
      else
        let (bs, s) := ps.foldl (fun (a : List Byte × State) p => let (b, t) := a.2.codeBytes s.cur s.curKey p; (a.1 ++ b, t)) ([], s)
        let ws := words32 bs
        .word (ws.getD (va % 128 / 4) 0) { s with cur := { s.cur with code := (base, ws) :: s.cur.code.take 3 } }

/-- One word of a held line is fetched again: unless the steps of R90 order them, each word is by itself an old or a new value (R91). -/
def State.refetch (s : State) (key va : Nat) : State :=
  let s := s.focus key
  let held := s.cur.code
  match ({ s with cur := { s.cur with code := [] } }).fetchWord va with
  | .word w t => { t with cur := { t.cur with code := mapIf (fun l => l.1 == va / 128 * 128) (fun l => (l.1, l.2.set (va % 128 / 4) w)) held } }
  | _ => s

/-- A line of code is held ahead of issue, and does not see later stores (R90, R91). Which of the lines that a stream may come to it holds, and which it
gives up, are open: any line, the oldest (log 5). -/
def State.fetchAhead (s : State) (key line : Nat) : State :=
  let s := s.focus key
  match s.fetchWord (line % 2 ^ 49 * 128) with
  | .word _ t => t
  | _ => s

/-- Fetches n words in sequence. -/
def State.fetchWords (s : State) (va : Nat) : (n : Nat) → Except (Option TrapRec) (List Word32 × State)
  | 0 => .ok ([], s)
  | n + 1 =>
    match s.fetchWord (va % 2 ^ 64) with
    | .trap t => .error (some t)
    | .wait => .error none
    | .word w s =>
      match s.fetchWords (va + 4) n with
      | .error e => .error e
      | .ok (ws, s) => .ok (w :: ws, s)

/-- A fault of R84 on a slot word. -/
def slotTrap (cause : Byte) (pc : Word64) (i : Nat) (w : Word32) (sl : Slot) (sub : Nat) : TrapRec :=
  { cause := cause, addr := pc + BitVec.ofNat 64 (4 * (i + 1)), info := info85 w.toNat sl.code sub }

/-- Steps 4 to 8 of R84 for one slot word, the i-th of n; `fwd` says that the V0 word is a forward instruction, beside which no undo may stand
in V1 (R188). -/
def checkSlot (x : Stream) (pc : Word64) (h : Word32) (n i : Nat) (fwd : Bool) (sl : Slot) (w : Word32) : Except TrapRec Instr :=
  if isHeader w then .error (slotTrap 0x01 pc i w sl 0x06)
  else if w.getLsbD 31 != (i + 1 == n) then .error (slotTrap 0x01 pc i w sl 0x07)
  else
    match decodeSlot sl.kind w with
    | .error .noOp => .error (slotTrap 0x02 pc i w sl 0x10)
    | .error .field => .error (slotTrap 0x02 pc i w sl 0x11)
    | .error .special => .error (slotTrap 0x02 pc i w sl 0x12)
    | .ok ins =>
      if !ins.tilesOk x.tiles4 || (fwd && sl == .v1 && ins.isUndo) then .error (slotTrap 0x02 pc i w sl 0x11)
      else if allot h sl < ins.lines then .error (slotTrap 0x01 pc i w sl 0x08)
      else .ok ins

/-- Steps 4 to 8 of R84 for the slot words in mask order. -/
def checkSlots (x : Stream) (pc : Word64) (h : Word32) (n : Nat) : (i : Nat) → (fwd : Bool) → List (Slot × Word32) →
    Except TrapRec (List (Slot × Instr))
  | _, _, [] => .ok []
  | i, fwd, (sl, w) :: r =>
    match checkSlot x pc h n i fwd sl w with
    | .error t => .error t
    | .ok ins =>
      match checkSlots x pc h n (i + 1) (fwd || (sl == .v0 && ins.isForward)) r with
      | .error t => .error t
      | .ok is => .ok ((sl, ins) :: is)

/-- The bundle at the focused stream's pc (R75-R78, R84, R88). -/
def State.fetchBundle (s : State) : Except (Option TrapRec) (Bundle × State) :=
  let pc := s.cur.pc
  match s.fetchWords pc.toNat 1 with
  | .error e => .error e
  | .ok (hs, s) =>
    let h := hs.headD 0
    if !isHeader h then .error (some { cause := 0x03, addr := pc, info := info85 h.toNat 7 0x20 })
    else
      match headerFault h with
      | some sub => .error (some { cause := 0x01, addr := pc, info := info85 h.toNat 7 sub })
      | none =>
        let sl := present h
        match s.fetchWords (pc.toNat + 4) sl.length with
        | .error e => .error e
        | .ok (ws, s) =>
          match checkSlots s.cur pc h sl.length 0 false (sl.zip ws) with
          | .error t => .error (some t)
          | .ok is => .ok (⟨pc, h, is, pc + BitVec.ofNat 64 (4 * (sl.length + 1))⟩, s)

/-- Whether an enabled comparator of the context matches the header at the stream's pc (R337). -/
def State.dbgMatch (s : State) (key : Nat) (x : Stream) : Bool :=
  let c := s.ctxAt x.ctx
  c.dbgen && (upto 0 4).any (fun i =>
    let w := c.dbg.get i
    w.getLsbD 63 && w.getLsbD (61 + key % 2) && fld w 55 2 == fld x.pc 55 2)

/-- A halt (R338): the stream stops under R110 and waits for the debugger. A BKLOCK hold that it stands in ends (log 20). -/
def State.haltCur (s : State) : State :=
  let s := s.landAll
  { s with cur := { s.cur with halted := true, haltReq := false, stepOne := false, hold := none, bundle := none, waitCyc := 0, fixed := 0, flushing := false } }

/-- BUNDLE_FETCH (R84): a breakpoint halts the stream before the bundle, but in a hold (R289); otherwise the bundle at the pc is fetched and checked,
and either stands ready to issue or raises its first failure. -/
def execBundleFetch (key : Nat) (s : State) : Host.Outcome State Fault Refusal :=
  let s := s.focus key
  if !s.curLive then .next s
  else if s.cur.hold.isNone && s.dbgMatch key s.cur && !s.cur.skipBp then .next s.haltCur
  else
    match s.fetchBundle with
    | .ok (b, s) => .next { s with cur := { s.cur with bundle := some b, npc := b.succ, mark := .none } }
    | .error (some t) => .next (s.enterTrap t s.cur.pc)
    | .error none => .next { s with cur := { s.cur with mark := .stalled false none .nothing } }

end Sys2Proof.Machine
end

