-- ==== Sys2Proof/Machine/Place.lean ====
section
/-! DEFINITION. Where ranks lie: commands as they arrive (R374), translation events (R62-R66), errors of HBM (R69, R383), version bumps
(R72), the tier (R14, R15, R54, R55, R73, R351-R353), held packets (R74, R382) and migration (R354-R358). -/

namespace Sys2Proof.Machine

/-! Commands (R374, R375). -/

/-- A response on the privileged path or to management. -/
def State.respond (s : State) (seq : BitVec 32) (status : Nat) (data : List Word64 := []) : State :=
  { s with outs := { s.outs with resp := s.outs.resp ++ [(seq, BitVec.ofNat 8 status, data)] } }

/-- What a command ends in: BADCMD, an answer now, or an answer later. -/
inductive Ans where
  | bad
  | now (s : State) (status : Nat) (data : List Word64)
  | later (s : State)

/-- A privileged command (R374): refused with BADCMD when it is not signed, its SEQ does not exceed the last accepted one's, or a reserved
bit is set; accepted otherwise. It is served while main power is on. -/
def State.command (s : State) (c : Cmd) (f : State → Ans) : Out :=
  if s.mgmt.power ≠ .on then .next s
  else if !c.signed || c.rsv ≠ 0 || (s.mgmt.anySeq && decide (c.seq.toNat ≤ s.mgmt.lastSeq.toNat)) then .next (s.respond c.seq 1)
  else
    let ok : State := { s with mgmt := { s.mgmt with lastSeq := c.seq, anySeq := true } }
    match f ok with
    | .bad => .next (s.respond c.seq 1)
    | .now s st d => .next (s.respond c.seq st d)
    | .later s => .next s

/-! Translation (R62-R66). -/

/-- PAGE_WALK (R62, R63): a walk for a core's miss fills the TLBs; a walk that faults fills nothing. -/
def execPageWalk (core slot : Nat) (va : Word64) (s : State) : Out :=
  .next (match s.leaf core slot va.toNat .load with
    | .ok (_, _, s) => s
    | .error _ => s)

/-- SHOOTDOWN (R65). -/
def execShootdown (c : Cmd) (s0 s1 : Word64) (s : State) : Out :=
  let all := s0.getLsbD 63
  let va := fld s0 55 0
  let slot := fld s1 42 32
  let n := fld s1 31 0
  s.command c (fun s =>
    if fld s0 62 56 ≠ 0 || fld s1 63 43 ≠ 0 || 1087 < slot || (!all && (va % 4096 ≠ 0 || n = 0)) then .bad
    else
      let len := if all then 0 else 4096 * n
      let (id, s) := (s.shoot slot va len).fresh
      .later { s with front := { s.front with shoots := s.front.shoots ++ [{ id := id, slot := slot, va := va, len := len, seq := c.seq }] } })

/-- Whether a range of a slot meets one of a shootdown. -/
def Shoot.meets (h : Shoot) (slot va n : Nat) : Bool := h.slot == slot && (h.len == 0 || (decide (h.va < va + n) && decide (va < h.va + h.len)))

/-- Whether an access translated before a shootdown has still to be performed or to return its value (R66). -/
def State.shootOpen (s : State) (h : Shoot) : Bool :=
  s.allStreams.any (fun e => e.2.pend.any (fun p => match p.rd with
    | some r => r.parts.any (fun q => q.win.isNone && h.meets e.2.slot q.va q.n)
    | none => false))
    || s.mem.wq.any (fun w => h.meets w.slot w.va w.bytes.length)

/-- SHOOTDOWN_ACK (R66, R235): no TLB holds an entry of the range, every access translated before it has been performed or
has returned its value, and pinned lines of the range have been given up. -/
def execShootdownAck (id : Nat) (s : State) : Out :=
  .next (match s.front.shoots.find? (fun h => h.id == id) with
    | none => s
    | some h =>
      if s.shootOpen h then s
      else
        let s := s.shoot h.slot h.va h.len
        let s := (upto 0 512).foldl (fun (s : State) k =>
          if (s.coreOf k).pins.isEmpty then s else s.unpinIf k (fun p => h.meets p.slot p.va 128)) s
        let s := { s with mem := { s.mem with pins := s.mem.pins.filter (fun p => !h.meets p.2.1 p.2.2 128) } }
        State.respond { s with front := { s.front with shoots := s.front.shoots.filter (fun g => g.id != id) } } h.seq 0)

/-- The runs of a pending write outside one line, with the virtual address of each. -/
def PWrite.without (w : PWrite) (line : Nat) : List PWrite :=
  let run (pa n : Nat) : List PWrite :=
    if n = 0 then [] else [{ w with va := w.va + (pa - w.pa), pa := pa, bytes := (w.bytes.drop (pa - w.pa)).take n }]
  let stop := w.pa + w.bytes.length
  run w.pa (min (line * 128) stop - w.pa) ++ (let b := max w.pa (line * 128 + 128); run b (stop - b))

/-- Whether a write covers a part of a line and not the whole. -/
def PWrite.partOf (w : PWrite) (line : Nat) : Bool :=
  w.meets (line * 128) 128 && !(decide (w.pa ≤ line * 128) && decide (line * 128 + 128 ≤ w.pa + w.bytes.length))

/-- The store that met an error when its line was read for a merge (R383): that line of it is not performed, and its issuer is told. -/
def State.failStore (s : State) (w : PWrite) (line : Nat) : State :=
  let rest := w.without line
  let s := match rest with
    | [] => s.dropWrite w.id
    | a :: r =>
      let (id, s) := s.fresh
      let more := r.map (fun (v : PWrite) => { v with id := id })
      { s with mem := { s.mem with wq := (s.mem.wq.map (fun (v : PWrite) => if v.id == w.id then a :: more else [v])).flatten } }
  s.asyncTrap w.key (trap68 0x08 w.addr 0xF .store 0x20)

/-- A store of a stream, not yet performed, that meets an error at an address when its line is read for a merge: the write and the byte's physical address
(R383). -/
def State.failing (s : State) (key va : Nat) (kind : BitVec 4) : Option (PWrite × Nat) :=
  if kind ≠ 2 then none
  else
    let at' (w : PWrite) : Nat := w.pa + (va - w.va)
    (s.mem.wq.find? (fun w => w.key == key && decide (w.va ≤ va) && decide (va < w.va + w.bytes.length) && w.partOf (at' w / 128))).map
      (fun w => (w, at' w))

/-- The physical address at which a rank's access met an error: that of an access under way, or what a TLB or the tables say (R62, R69). -/
def State.errorPa (s : State) (key : Option Nat) (slot va : Nat) : Option Nat :=
  let load := key.bind (fun k => (s.stream k).bind (fun x => x.pend.findSome? (fun p => p.rd.bind (fun r =>
    (r.parts.find? (fun q => q.win.isNone && decide (q.va ≤ va) && decide (va < q.va + q.n))).map (fun q => q.pa + (va - q.va))))))
  let store := (s.mem.wq.find? (fun w => w.slot == slot && decide (w.va ≤ va) && decide (va < w.va + w.bytes.length))).map (fun w => w.pa + (va - w.va))
  let tlb := (s.allCores.findSome? (fun c => tlbFind c.2.tlb slot va)).orElse (fun _ => s.crews.findSome? (fun c => tlbFind c.2.tlb slot va))
  let walk := match s.walk slot va .load with | .ok (e, _) => some e | .error _ => none
  (load.orElse (fun _ => store)).orElse (fun _ => (walk.orElse (fun _ => tlb)).map (fun e => e.phys va))

/-- HBM_UNCORRECTABLE_ERROR (R69, R383): the frame is contained, and a store that met the error and has not been performed is told. POISON of a load is
precise (R318): what an error comes before faults by what the containment leaves, and a load whose bundle has issued met none (log 60). -/
def execHbmUncorrectableError (key : Option Nat) (slot : Nat) (va : Word64) (kind : BitVec 4) (s : State) : Out :=
  .next (match key.bind (fun k => s.failing k va.toNat kind) with
    | some (w, pa) => (s.contain slot va.toNat (pa / 4096)).failStore w (pa / 128)
    | none =>
      match s.errorPa key slot va.toNat with
      | some pa => s.contain slot va.toNat (pa / 4096)
      | none => s)

/-! A rank's tables and pages (R58, R73). -/

/-- A leaf page of a rank. -/
structure Leaf where
  va : Nat
  size : Nat
  pa : Nat
  psn : Bool
  buf : BitVec 24
  deriving DecidableEq, Repr

/-- Bytes of virtual address that an entry of a level covers. -/
def span (level : Nat) : Nat := 2 ^ (12 + 9 * level)

/-- A table with its nonzero entries. -/
def State.tab (s : State) (ctx level addr va : Nat) : Tab :=
  { addr := addr, level := level, va := va,
    es := (upto 0 (if level = 4 then 256 else 512)).filterMap (fun i =>
      let (p0, p1) := s.pte ctx (addr + 16 * i)
      if p0 = 0 && p1 = 0 then none else some (i, p0, p1)) }

/-- The leaf that an entry is, if it is one; a group is the leaf of its first entry. -/
def leafOf (level va i : Nat) (p0 p1 : Word64) : List Leaf :=
  let sz := fld p0 11 9
  if p0.getLsbD 0 && sz ≠ 0 && szAllowed level sz && ((sz ≠ 2 && sz ≠ 4) || i % 16 = 0) then
    [{ va := va + i * span level, size := szBytes sz, pa := pteAddr p0, psn := p1.getLsbD 61, buf := p1.extractLsb' 0 24 }]
  else []

/-- The tables and leaves below a table, in ascending virtual address. -/
def State.tree (s : State) (ctx : Nat) : (level addr va : Nat) → List Tab × List Leaf
  | 0, addr, va =>
    let t := s.tab ctx 0 addr va
    ([t], (t.es.map (fun e => leafOf 0 va e.1 e.2.1 e.2.2)).flatten)
  | l + 1, addr, va =>
    let t := s.tab ctx (l + 1) addr va
    let r := t.es.map (fun e =>
      if e.2.1.getLsbD 0 && fld e.2.1 11 9 == 0 then s.tree ctx l (pteAddr e.2.1) (va + e.1 * span (l + 1)) else ([], leafOf (l + 1) va e.1 e.2.1 e.2.2))
    (t :: (r.map (fun e => e.1)).flatten, (r.map (fun e => e.2)).flatten)

def State.tabs (s : State) (slot : Nat) : List Tab := (s.tree (s.rank slot).ctx 4 (s.rank slot).ptroot 0).1
def State.leaves (s : State) (slot : Nat) : List Leaf := (s.tree (s.rank slot).ctx 4 (s.rank slot).ptroot 0).2

/-- Cells of [a, a + n) moved to b. -/
def moveCells {α : Type} (l : Tbl α) (a n b : Nat) : Tbl α :=
  (l.filter (fun e => decide (a ≤ e.1) && decide (e.1 < a + n))).map (fun e => (b + (e.1 - a), e.2))

/-- The bytes of a page as its context reads them: a line of another key, buffer or version as that key and tweak make it (R70-R72). -/
def State.plainCells (s : State) (c : Nat) (l : Leaf) : Memory :=
  let odd (e : Nat × Enc) : Bool := !e.2.reads (s.encNow c l.buf) (e.1 * 128)
  let lines := s.mem.enc.filter (fun e => decide (l.pa / 128 ≤ e.1) && decide (e.1 < (l.pa + l.size) / 128) && odd e)
  lines.foldl (fun (m : Memory) e => m.put (l.va + (e.1 * 128 - l.pa)) (s.homeBytes c l.buf (e.1 * 128) 128)) (moveCells s.mem.hbm l.pa l.size l.va)

/-- A rank's image: its tables, and the bytes of every page that is not poisoned, encrypted under the context's key pair (R73, R352). -/
def State.image (s : State) (slot : Nat) : Image :=
  let c := (s.rank slot).ctx
  let ls := (s.leaves slot).filter (fun l => !l.psn)
  { slot := slot, root := (s.rank slot).ptroot, tabs := s.tabs slot, key := s.encNow c 0,
    cells := (ls.map (s.plainCells c)).flatten,
    enc := (ls.map (fun l => (moveCells s.mem.enc (l.pa / 128) (l.size / 128) (l.va / 128)).map (fun (e : Nat × Enc) => (e.1, s.encNow c l.buf)))).flatten }

/-- One 2 MiB frame. -/
def frame2M : Nat := 2 ^ 21

/-- The 2 MiB frames that hold a rank's pages and tables. -/
def State.rankFrames (s : State) (slot : Nat) : List Nat :=
  let ls := (s.leaves slot).map (fun l => (upto (l.pa / frame2M) ((l.size + frame2M - 1) / frame2M)))
  ((ls.flatten ++ (s.tabs slot).map (fun t => t.addr / frame2M)).eraseDups).map (fun f => f * frame2M)

/-- Frames return to a context's pool. -/
def State.giveBack (s : State) (c : Nat) (fs : List Nat) : State :=
  s.modCtx c (fun x => { x with pool := x.pool ++ fs.filter (fun f => !x.pool.contains f) })

/-! Taking frames (R73, R352). Each 2 MiB of virtual address that holds a page takes one frame, a larger page a run of frames, and 256 tables
one frame. -/

/-- Takes one free frame. -/
def takeFrame (pick : Nat) (pool : List Nat) : Option (Nat × List Nat) :=
  match pool[pick % pool.length]? with
  | some f => some (f, pool.erase f)
  | none => none

/-- Takes an aligned run of n free frames. -/
def takeRun (n : Nat) (pool : List Nat) : Option (Nat × List Nat) :=
  (pool.find? (fun f => f % (n * frame2M) == 0 && (upto 0 n).all (fun i => pool.contains (f + i * frame2M)))).map (fun f =>
    (f, pool.filter (fun g => decide (g < f) || decide (f + n * frame2M ≤ g))))

/-- Frames for the leaves: by 2 MiB piece of virtual address, the frame. -/
def allocLeaves (pick : Nat → Nat) : List Leaf → Tbl Nat → List Nat → Nat → Option (Tbl Nat × List Nat)
  | [], m, pool, _ => some (m, pool)
  | l :: r, m, pool, k =>
    let piece := l.va / frame2M
    if m.has piece then allocLeaves pick r m pool k
    else if l.size ≤ frame2M then
      match takeFrame (pick k) pool with
      | some (f, pool) => allocLeaves pick r (m.put piece f) pool (k + 1)
      | none => none
    else
      let n := l.size / frame2M
      match takeRun n pool with
      | some (f, pool) => allocLeaves pick r ((upto 0 n).foldl (fun m i => m.put (piece + i) (f + i * frame2M)) m) pool (k + 1)
      | none => none

/-- Frames for n tables. -/
def allocTabs (pick : Nat → Nat) : (n k : Nat) → List Nat → Option (List Nat × List Nat)
  | 0, _, pool => some ([], pool)
  | n + 1, k, pool =>
    match takeFrame (pick k) pool with
    | none => none
    | some (f, pool) => (allocTabs pick n (k + 1) pool).map (fun r => (f :: r.1, r.2))

/-- Where a virtual address goes. -/
def newPa (m : Tbl Nat) (va : Nat) : Nat := m.at (va / frame2M) 0 + va % frame2M

/-- An entry with another ADDR (R59). -/
def setAddr (p0 : Word64) (a : Nat) : Word64 := (p0 &&& ~~~0x000FFFFFFFFFF000) ||| BitVec.ofNat 64 (a / 4096 % 2 ^ 40 * 4096)

/-- Leaves an image maps. -/
def Image.leaves (g : Image) : List Leaf := (g.tabs.map (fun t => (t.es.map (fun e => leafOf t.level t.va e.1 e.2.1 e.2.2)).flatten)).flatten

/-- Physical ranges taken for new contents hold nothing of the old. -/
def State.wipe (s : State) (pa n : Nat) : State :=
  let out (line : Nat) : Bool := decide (line < pa / 128) || decide ((pa + n) / 128 ≤ line)
  let m := s.mem
  let unpin (c : Core) : Core := { c with pins := c.pins.filter (fun (e : Nat × PinLine) => out e.1) }
  { s with core := unpin s.core, cores := s.cores.map (fun (e : Nat × Core) => (e.1, unpin e.2)), mem := { m with
      hbm := m.hbm.zero pa n, enc := m.enc.filter (fun e => out e.1), reps := m.reps.filter (fun e => out (e.1 / 4)),
      lclk := m.lclk.filter (fun e => out e.1), tags := m.tags.filter (fun e => out e.1), pins := m.pins.filter (fun p => out p.1) } }

/-- Places an image in frames of a context's pool: tables with ADDR rewritten, pages, each line with its encryption. Answers the new root; none while the
pool is short (R73, R352). -/
def State.placeImage (s : State) (c : Nat) (g : Image) : Option (Nat × State) :=
  let pick (k : Nat) : Nat := Config.freeFrame (s.tick + k)
  let ls := g.leaves
  match allocTabs pick ((g.tabs.length + 255) / 256) 0 (s.ctxAt c).pool with
  | none => none
  | some (tf, pool) =>
    match allocLeaves pick ls [] pool 512 with
    | none => none
    | some (m, pool) =>
      let s := s.modCtx c (fun x => { x with pool := pool })
      let at' (i : Nat) : Nat := tf.getD (i / 256) 0 + i % 256 * 8192
      let tabAddr (old : Nat) : Nat := at' ((g.tabs.map (fun t => t.addr)).idxOf old)
      let s := ls.foldl (fun (s : State) l => s.wipe (newPa m l.va) l.size) s
      let s := (upto 0 g.tabs.length).foldl (fun (s : State) i => s.wipe (at' i) 8192) s
      let es := ((upto 0 g.tabs.length).zip g.tabs).map (fun e => e.2.es.map (fun q =>
        let (k, p0, p1) := q
        let sz := fld p0 11 9
        let va := e.2.va + k * span e.2.level
        let base := if sz = 2 || sz = 4 then va / szBytes sz * szBytes sz else va
        let p0 := if !p0.getLsbD 0 then p0 else if sz = 0 then setAddr p0 (tabAddr (pteAddr p0)) else setAddr p0 (newPa m base)
        (at' e.1 + 16 * k, leBytes p0.toNat 8 ++ leBytes p1.toNat 8)))
      let hbm := es.flatten.foldl (fun (h : Memory) e => h.put e.1 e.2) s.mem.hbm
      let hbm := g.cells.foldl (fun (h : Memory) e => h.set (newPa m e.1) e.2) hbm
      let enc := g.enc.foldl (fun (t : Tbl Enc) e => t.put (newPa m (e.1 * 128) / 128) e.2) s.mem.enc
      let enc := (upto 0 g.tabs.length).foldl (fun (t : Tbl Enc) i =>
        (upto (at' i / 128) 64).foldl (fun (t : Tbl Enc) k => t.put k g.key) t) enc
      some (at' 0, { s with mem := { s.mem with hbm := hbm, enc := enc } })

/-! The tier (R15, R54, R55, R351-R353). -/

/-- Whether an unretired launch names a rank (R54). -/
def State.named (s : State) (slot : Nat) : Bool :=
  let r := s.rank slot
  ((s.ctxAt r.ctx).queues.map (fun (e : Nat × List Launch) => e.2)).flatten.any (fun l =>
    !l.done && l.job == r.job && decide (l.first ≤ r.vrank.toNat) && decide (r.vrank.toNat ≤ l.last))

/-- Whether R15 permits an eviction: the job's step is committed, or it has not begun one here, and the rank's next step launch has not arrived. A rank with
a migration order stays ACTIVE (R355). -/
def State.mayEvict (s : State) (slot : Nat) : Bool :=
  let r := s.rank slot
  r.state == .active && !s.front.migrs.any (fun m => m.slot == slot)
    && (match s.jobOf r.ctx r.job with
        | none => true
        | some (_, j) =>
          j.state == .committed && !((s.ctxAt r.ctx).queues.map (fun (e : Nat × List Launch) => e.2)).flatten.any (fun l =>
            !l.done && l.sl && l.step == j.next && l.job == r.job && decide (l.first ≤ r.vrank.toNat) && decide (r.vrank.toNat ≤ l.last)))

/-- A slot leaves the H states: the lines pinned for it are written back and given up (R234, R235). -/
def State.unpinSlot (s : State) (slot : Nat) : State :=
  let s := (upto 0 512).foldl (fun (s : State) k => if (s.coreOf k).pins.isEmpty then s else s.unpinIf k (fun p => p.slot == slot)) s
  { s with mem := { s.mem with pins := s.mem.pins.filter (fun p => p.2.1 != slot) } }

/-- A rank's record when STATE becomes FREE: its fields, rows and stream registers stay as they are, and what it had under way is over; that the latter ends is
the model's choice (log 64). -/
def Rank.freed (r : Rank) : Rank :=
  { r with
    state := .free, buckets := [], cids := [], stkHold := none, waiting := [], caughtExec := false, caught := false, reported := false,
    chanStop := false, recallDue := false, evictDue := false,
    rows := r.rows.map (fun (e : Nat × Row) => (e.1, { e.2 with posted := [] })) }

/-- Records in H states. -/
def State.inH (s : State) : Nat := (s.front.ranks.filter (fun e => e.2.state.isH)).length

/-- Records that are COLD or about to be. -/
def State.coldCount (s : State) : Nat :=
  (s.front.ranks.filter (fun e => e.2.state == .cold || e.2.state == .evicting || e.2.evictDue)).length

/-! LP6 (R11, R73): a space of 2,048 GiB. -/

def lp6Bytes : Nat := 2 ^ 41

/-- What a rank's image takes there: its pages but the poisoned ones, 8 KiB for each table, and a line for the record. -/
def State.imageSize (s : State) (slot : Nat) : Nat :=
  (((s.leaves slot).filter (fun l => !l.psn)).map (fun l => l.size)).sum + 8192 * (s.tabs slot).length + 128

/-- The ranges in use: those of the images, and those that evictions fill. -/
def State.lp6Used (s : State) : List (Nat × Nat) :=
  s.front.images.map (fun g => (g.base, g.size)) ++ (s.front.tiers.filter (fun t => !t.isRecall)).map (fun t => (t.base, t.size))

/-- A free range of a size; which one is open (log 59). -/
def State.lp6Place (s : State) (n : Nat) : Option Nat :=
  let used := s.lp6Used
  let free (b : Nat) : Bool := decide (b + n ≤ lp6Bytes) && used.all (fun u => decide (b + n ≤ u.1) || decide (u.1 + u.2 ≤ b))
  (Config.freeFrame s.tick % (lp6Bytes / 128) * 128 :: 0 :: used.map (fun u => u.1 + u.2)).find? free

/-- Whether one more image would exceed the free LP6 space, with those of the evictions that are due. -/
def State.lp6Full (s : State) (slot : Nat) : Bool :=
  let due := (s.front.ranks.filter (fun e => e.2.evictDue)).map (fun e => s.imageSize e.1)
  let n := s.imageSize slot
  decide (lp6Bytes < (s.lp6Used.map (fun u => u.2)).sum + due.sum + n) || (s.lp6Place n).isNone

/-- EVICT_RANK (R351). -/
def execEvictRank (c : Cmd) (slot : Nat) (s : State) : Out :=
  s.command c (fun s =>
    let r := s.rank slot
    if !s.mayEvict slot || 1024 ≤ s.coldCount || s.lp6Full slot then .now s 2 []
    else if !r.waiting.isEmpty then .now s 3 []
    else .now (s.putRank slot { r with evictDue := true }) 0 [])

/-- RECALL_RANK (R351): an order for a rank that is not in the boathouse changes nothing. -/
def execRecallRank (c : Cmd) (slot : Nat) (s : State) : Out :=
  s.command c (fun s =>
    let r := s.rank slot
    .now (if r.state = .cold || r.state = .evicting then s.putRank slot { r with recallDue := true } else s) 0 [])

/-- Tier operations in progress (R351). -/
def State.tierBusy (s : State) : Bool := decide (4 ≤ s.front.tiers.length)

/-- EVICTION_START (R54, R235, R351). -/
def execEvictionStart (slot : Nat) (s : State) : Out :=
  let r := s.rank slot
  .next
    (if !r.evictDue then s
     else if !s.mayEvict slot || !r.waiting.isEmpty then s.putRank slot { r with evictDue := false }
     else if s.tierBusy then s
     else
       match s.lp6Place (s.imageSize slot) with
       | none => s
       | some base =>
         let n := s.imageSize slot
         let s := (s.unpinSlot slot).putRank slot { r with evictDue := false, state := .evicting }
         { s with front := { s.front with tiers := s.front.tiers ++ [{ slot := slot, base := base, size := n }] } })

/-- The end of a tier operation. -/
def State.tierEnd (s : State) (slot : Nat) : State := { s with front := { s.front with tiers := s.front.tiers.filter (fun t => t.slot != slot) } }

/-- EVICTION_COMPLETE (R352): the image is in LP6, IMAGE says where, and the frames are free. -/
def execEvictionComplete (slot : Nat) (s : State) : Out :=
  let r := s.rank slot
  .next
    (if r.state ≠ .evicting then s
     else
       let at' := (s.front.tiers.find? (fun t => t.slot == slot)).getD {}
       let g := { s.image slot with base := at'.base, size := at'.size }
       let s := (s.giveBack r.ctx (s.rankFrames slot)).tierEnd slot
       let s := s.putRank slot { r with state := .cold, image := BitVec.ofNat 64 at'.base }
       State.reportCaught { s with front := { s.front with images := s.front.images ++ [g] } } r.ctx r.job)

/-- The rank that makes room for a recall: the one longest without an accepted launch, the lowest slot first (R55). -/
def State.victim (s : State) : Option Nat :=
  (s.front.ranks.foldl (fun (a : Option (Nat × Nat)) e =>
    if s.mayEvict e.1 && e.2.waiting.isEmpty then
      (match a with
       | some b => if e.2.lastLaunch < b.2 then some (e.1, e.2.lastLaunch) else a
       | none => some (e.1, e.2.lastLaunch))
    else a) none).map (fun e => e.1)

/-- RECALL_START (R55, R353): one recall, after any eviction of the rank, with room made first. With 1,024 ranks COLD no room is made, since R14 admits no
more, and the recall waits (log 58). -/
def execRecallStart (slot : Nat) (s : State) : Out :=
  let r := s.rank slot
  .next
    (if !r.recallDue || r.state ≠ .cold || s.tierBusy then s
     else if 64 ≤ s.inH then
       (if 1024 ≤ s.coldCount || s.front.ranks.any (fun e => e.2.evictDue || e.2.state == .evicting) then s
        else match s.victim with
          | some v => if s.lp6Full v then s else s.putRank v { s.rank v with evictDue := true }
          | none => s)
     else
       let s := s.putRank slot { r with state := .recalling, recallDue := false }
       { s with front := { s.front with tiers := s.front.tiers ++ [{ slot := slot, isRecall := true }] } })

/-- The LP6 address of a page's byte: the pages in ascending virtual address, then the tables, then the record (R352). -/
def Image.lp6 (g : Image) (va : Nat) : Nat :=
  let ls := g.leaves.filter (fun l => !l.psn)
  let below := ((ls.filter (fun l => decide (l.va + l.size ≤ va))).map (fun l => l.size)).sum
  match ls.find? (fun l => decide (l.va ≤ va) && decide (va < l.va + l.size)) with
  | some l => g.base + below + (va - l.va)
  | none => g.base + below

/-- An image as the tier engine reads it: each line under the context's key pair and version as they stand, with the tweak of its LP6 line (R72, R73). -/
def State.readImage (s : State) (c : Nat) (g : Image) : Image :=
  let one (g : Image) (e : Nat × Enc) : Image :=
    let now := s.encNow c e.2.buf
    let a := g.lp6 (e.1 * 128)
    if e.2.reads now a then g
    else { g with
      cells := g.cells.put (e.1 * 128) ((upto 0 128).map (fun i => e.2.garbled now (a + i) (g.cells.get (e.1 * 128 + i)))),
      enc := g.enc.put e.1 now }
  g.enc.foldl one g

/-- The pages whose reading from LP6 meets an uncorrectable error (R352); which, if any, is open. -/
def Image.lost (g : Image) (tick : Nat) : List Leaf := g.leaves.filter (fun l => !l.psn && Config.lp6Fails tick l.va)

/-- Pages take PSN = 1, and nothing of them is read (R352). -/
def Image.poison (g : Image) (bad : List Leaf) : Image :=
  let mark (t : Tab) (e : Nat × Word64 × Word64) : Nat × Word64 × Word64 :=
    if (leafOf t.level t.va e.1 e.2.1 e.2.2).any (fun l => bad.contains l) then (e.1, e.2.1, e.2.2 ||| BitVec.ofNat 64 (2 ^ 61)) else e
  let inBad (va : Nat) : Bool := bad.any (fun l => decide (l.va ≤ va) && decide (va < l.va + l.size))
  { g with
    tabs := g.tabs.map (fun t => { t with es := t.es.map (mark t) }),
    cells := g.cells.filter (fun e => !inBad e.1), enc := g.enc.filter (fun e => !inBad (e.1 * 128)) }

/-- RECALL_COMPLETE (R73, R352): pages and tables are in frames of the pool, the slot is shot down, and the rank is ACTIVE; its queues may now contend
(R49). Each page that an LP6 error met is told (R344). -/
def execRecallComplete (slot : Nat) (s : State) : Out :=
  let r := s.rank slot
  .next (match s.front.images.find? (fun g => g.slot == slot) with
    | none => s
    | some g =>
      if r.state ≠ .recalling then s
      else
        let bad := g.lost s.tick
        match s.placeImage r.ctx ((s.readImage r.ctx g).poison bad) with
        | none => s
        | some (root, t) =>
          let t := (t.shoot slot 0 0).tierEnd slot
          let t := t.putRank slot { r with state := .active, ptroot := root }
          let t := { t with front := { t.front with images := t.front.images.filter (fun h => h.slot != slot) } }
          let t := ((t.leaves slot).filter (fun l => bad.any (fun b => b.va == l.va))).foldl (fun (t : State) l =>
            t.cevent 2 0x08 r.ctx (unitWord (paDie l.pa) 4 (paDie l.pa)) l.pa r.vrank.toNat) t
          (upto 0 8).foldl (fun (t : State) q => t.wake s r.ctx q) t)

/-! Version bumps (R72). -/

/-- VERSION_BUMP (R72): the version advances, and accesses to the buffer's pages stall until the bump completes. -/
def execVersionBump (c : Cmd) (ctx : Nat) (buf : BitVec 24) (s : State) : Out :=
  s.command c (fun s =>
    let x := s.ctxAt ctx
    let v := x.vers.get buf.toNat
    if !s.front.ctxs.has ctx then .now s 6 []
    else if v = 0xFFFFFFFF then .now s 5 []
    else
      let s := (s.mem.wq.filter (fun w => w.ctx == ctx && w.buf == buf)).foldl (fun s w => s.force w.id) s
      let s := s.modCtx ctx (fun x => { x with vers := x.vers.set buf.toNat (v + 1), bumps := x.bumps ++ [buf.toNat] })
      let a := x.verbase + 4 * buf.toNat
      let s := if hbmExists a then { s with mem := { s.mem with hbm := s.mem.hbm.put a (leBytes (v.toNat + 1) 4) } } else s.badAgent a
      .later { s with
        front := { s.front with bumpSeqs := s.front.bumpSeqs ++ [(ctx, buf.toNat, c.seq)] } })

/-- A range of memory reads as zeros written under a tag. -/
def State.zeroUnder (s : State) (pa n : Nat) (t : Enc) : State :=
  let s := s.wipe pa n
  { s with mem := { s.mem with enc := (upto (pa / 128) (n / 128)).foldl (fun (e : Tbl Enc) k => e.put k t) s.mem.enc } }

/-- The cold image's lines of a buffer become zeros. -/
def Image.zeroBuf (g : Image) (t : Enc) : Image :=
  (g.leaves.filter (fun l => l.buf == t.buf && !l.psn)).foldl (fun (g : Image) l =>
    { g with cells := g.cells.zero l.va l.size, enc := (upto (l.va / 128) (l.size / 128)).foldl (fun (e : Tbl Enc) k => e.put k t) g.enc }) g

/-- BUMP_COMPLETE (R72): every line of every page with the buffer, in HBM and in LP6, reads as zero under the new version. -/
def execBumpComplete (ctx : Nat) (buf : BitVec 24) (s : State) : Out :=
  let t := s.encNow ctx buf
  let mine := s.front.ranks.filter (fun e => e.2.ctx == ctx && e.2.state != .free)
  .next (match s.front.bumpSeqs.find? (fun e => e.1 == ctx && e.2.1 == buf.toNat) with
    | none => s
    | some e =>
      if mine.any (fun e => e.2.state != .active && e.2.state != .cold) then s
      else
        let ls := ((mine.filter (fun e => e.2.state == .active)).map (fun e => (s.leaves e.1).filter (fun l => l.buf == buf))).flatten
        let s := ls.foldl (fun (s : State) l => s.zeroUnder l.pa l.size t) s
        let cold (i : Nat) : Bool := mine.any (fun e => e.1 == i && e.2.state == .cold)
        let s := { s with front := { s.front with
          images := mapIf (fun g => cold g.slot) (fun g => g.zeroBuf t) s.front.images, bumpSeqs := s.front.bumpSeqs.filter (fun q => q != e) } }
        let s := s.modCtx ctx (fun x => { x with bumps := x.bumps.erase buf.toNat })
        s.respond e.2.2 0)

/-! Held packets (R74, R382). -/

/-- Whether a packet is addressed to a rank by the rank map (R348). -/
def PktKind.toRank : PktKind → Bool
  | .caught _ _ => false
  | .commit _ => false
  | .mapupd _ _ _ => false
  | .mapack _ => false
  | .ack _ _ _ _ _ => false
  | .tulleAns _ _ _ => false
  | .tulleEnd _ _ _ => false
  | _ => true

/-- Whether a packet that waits is for a rank that a recall brings back, and none is due yet (R74). -/
def State.callsBack (s : State) (p : Pkt) : Bool :=
  match s.slotOfRank p.ctx p.job p.rank with
  | some i => ((s.rank i).state == .cold || (s.rank i).state == .evicting) && !(s.rank i).recallDue
  | none => false

/-- PACKET_HOLD (R74, R382): a packet for a rank that is not ACTIVE here, unmapped or absent; a cold rank is recalled. -/
def execPacketHold (id : Nat) (s : State) : Out :=
  .next (match s.pkt id with
    | none => s
    | some p =>
      if !p.kind.toRank || (s.deliverP p).isSome then s
      else
        let calls := s.callsBack p
        let s := s.modPkt id (fun q => { q with held := true })
        match s.slotOfRank p.ctx p.job p.rank with
        | some i => if calls then s.putRank i { s.rank i with recallDue := true } else s
        | none => s)

/-- A packet reaches its rank. -/
def State.applyPkt (s : State) (p : Pkt) (slot : Nat) : State :=
  match p.kind with
  | .msg _ _ _ _ _ => (s.modPkt p.id (fun p => { p with held := false })).arrive p slot
  | .tulle id =>
    (s.dropPkt p.id).modReq id (fun t =>
      if t.state = 3 then { t with state := 0, home := s.survivor (s.rank slot).homedie (blockIndex t.kind t.keyed t.words) } else t)
  | .tulleReq node t => (s.dropPkt p.id).takeRemote p node slot t
  | .node d v _ _ => if s.collRoom p.ctx p.job d v.piece then s.collPacket p else s
  | .result _ _ _ _ => s.collPacket p
  | .written _ _ => s.collPacket p
  | .final _ => s.collPacket p
  | _ => s

/-- A packet leaves for a node. A Tulle request goes whole, with the rank of its stream, and its stream's module keeps where it stands (R290). -/
def State.sendAway (s : State) (node : Nat) (p : Pkt) : State :=
  let p := { p with held := false, full := false, node := some node }
  match p.kind with
  | .tulle id =>
    (match s.treqs.find? (fun t => t.id == id) with
     | none => s.dropPkt p.id
     | some t =>
       (((s.dropPkt p.id).modReq id (fun t => { t with state := 5 })).sendTo node
         { p with kind := .tulleReq s.mgmt.node.toNat { t with slot := (s.rank t.slot).vrank.toNat } }))
  | _ => (s.dropPkt p.id).sendTo node p

/-- The other module to which a packet that waits here goes on: the map names it, by a map update or where it named none before, and no record of the rank
here is to become ACTIVE (R74, R357, R382). -/
def State.goesTo (s : State) (p : Pkt) : Option Nat :=
  let moved := match s.jobOf p.ctx p.job with | some (_, j) => p.node.isNone || j.updated.contains p.rank | none => false
  let gone := match s.slotOfRank p.ctx p.job p.rank with | some i => (s.rank i).state == .departing | none => true
  (s.mapNode p.ctx p.job p.rank).filter (fun n => n != s.mgmt.node.toNat && moved && gone)

/-- Whether a packet may leave now: a Tulle request after those that its stream issued before it and what a release put before it (R265, R298). -/
def State.mayLeave (s : State) (p : Pkt) : Bool :=
  match p.kind with
  | .tulle id => match s.treqs.find? (fun t => t.id == id) with | some t => !s.reqWaits t && !s.behindRel t.key t.id | none => true
  | _ => true

/-- Whether a packet is a Tulle request. -/
def PktKind.isTulle : PktKind → Bool
  | .tulle _ => true
  | .tulleReq _ _ => true
  | _ => false

/-- HELD_PACKET_RELEASE (R74, R382): held packets of a rank, in arrival order, to the rank once it is ACTIVE here, or to the module that it has moved to. -/
def execHeldPacketRelease (id : Nat) (s : State) : Out :=
  .next (match s.pkt id with
    | none => s
    | some p =>
      if s.heldBefore p || !(p.held || p.full || p.kind.isTulle) then s
      else
        match s.deliverP p, s.goesTo p with
        | some slot, _ => s.applyPkt p slot
        | none, some n => if s.mayLeave p then s.sendAway n p else s
        | none, none => s)

/-! Migration (R354-R358). -/

/-- A migration order is answered. -/
def State.endMigr (s : State) (m : Migr) (status : Nat) : State :=
  State.respond { s with front := { s.front with migrs := s.front.migrs.filter (fun v => v.slot != m.slot) } } m.seq status

/-- The home die that a migrated rank takes: the destination hypervisor's choice. -/
def pickDie (s : State) : Nat := Config.freeSched s.tick % 4

/-- Whether a migration of a rank is deferred (R355). -/
def State.migDeferred (s : State) (slot : Nat) : Bool :=
  let r := s.rank slot
  !r.waiting.isEmpty || s.front.tiers.any (fun t => t.slot == slot)
    || (r.vrank == 0 && s.treqs.any (fun t => t.ctx == r.ctx && t.job == some r.job && t.state == 1))

/-- The context of a job record with a job number other than, or as well as, the source's (R356 step 1). -/
def State.destCtx (s : State) (job : Word32) : Option Nat := (s.jobNo job).map (fun e => e.2.ctx)

/-- What the destination answers to an order: a module of its own decides, and that answer is open. This module would hold two records of the rank, which
R55 rules out, so an order to it is for a bad slot (log 58). -/
def State.destAnswer (s : State) (dnode : BitVec 20) : Nat :=
  if dnode = s.mgmt.node then 3 else (match Config.freeSched s.tick % 3 with | 0 => 0 | 1 => 3 | _ => 4)

/-- Step 1 of R356 at the source: STATE := DEPARTING. -/
def State.depart (s : State) (slot : Nat) : State := s.putRank slot { s.rank slot with state := .departing }

/-- MIGRATION_ORDER (R354, R355): one that is not deferred begins at once. A second order for a slot with an order is for a bad slot (log 58). -/
def execMigrationOrder (c : Cmd) (mo0 mo1 mo2 : Word64) (s : State) : Out :=
  s.command c (fun s =>
    let slot := fld mo0 42 32
    let job : Word32 := mo0.setWidth 32
    let dslot := fld mo1 10 0
    let dnode : BitVec 20 := mo1.extractLsb' 32 20
    let r := s.rank slot
    let committed := match (s.jobOf r.ctx job).orElse (fun _ => s.jobNo job) with | some (_, j) => j.state == .committed | none => true
    let dest := s.destAnswer dnode
    if !committed then .now s 2 []
    else if fld mo0 63 43 ≠ 0 || fld mo1 63 52 ≠ 0 || fld mo1 31 11 ≠ 0 || fld mo2 63 32 ≠ 0 || 1087 < slot || 1087 < dslot || r.state ≠ .active
        || r.job ≠ job || dest = 3 || s.front.migrs.any (fun m => m.slot == slot) then .now s 3 []
    else if dest = 4 then .now s 4 []
    else if s.migDeferred slot && fld mo2 31 0 = 0 then .now s 1 []
    else
      let m : Migr := { slot := slot, dnode := dnode, dslot := dslot, waitus := fld mo2 31 0, since := s.cycle.toNat, seq := c.seq,
                        phase := if s.migDeferred slot then 0 else 1 }
      let t : State := { s with front := { s.front with migrs := s.front.migrs ++ [m] } }
      .later (if s.migDeferred slot then t else t.depart slot))

/-- The deferred order for a slot, if the migration may now proceed (R355). -/
def State.deferralOver (s : State) (slot : Nat) : Bool :=
  s.front.migrs.any (fun m => m.slot == slot && m.phase == 0) && !s.migDeferred slot && (s.rank slot).state == .active

/-- DEFERRAL_END (R355): the migration proceeds. -/
def execDeferralEnd (slot : Nat) (s : State) : Out :=
  .next
    (if s.deferralOver slot then
       State.depart { s with front := { s.front with migrs := mapIf (fun m => m.slot == slot && m.phase == 0) (fun m => { m with phase := 1 }) s.front.migrs } }
         slot
     else s)

/-- MIGRATION_WAIT_EXPIRY (R355): WAITUS has passed, the order is answered DEFERRED, and held launches proceed. -/
def execMigrationWaitExpiry (slot : Nat) (s : State) : Out :=
  .next (match s.front.migrs.find? (fun m => m.slot == slot && m.phase == 0) with
    | some m => if s.cycle.toNat < m.since + m.waitus * s.mgmt.clock then s else (s.endMigr m 1).evalHeads (s.rank slot).ctx
    | none => s)

/-- The tuples of a rank's private instances, and of the job's when it is rank 0: by old home slice, in ascending sequence number. -/
def State.rankTuples (s : State) (slot : Nat) : List Tup :=
  let r := s.rank slot
  (s.slices.map (fun e => e.2.tuples.filter (fun u =>
    u.ctx == r.ctx && ((u.job.isNone && u.slot == slot) || (u.job == some r.job && r.vrank == 0))))).flatten

/-- Tuples leave their slices. -/
def State.dropTuples (s : State) (us : List Tup) : State :=
  { s with slices := s.slices.map (fun (e : Nat × Slice) => (e.1, { e.2 with tuples := e.2.tuples.filter (fun u => !us.contains u) })) }

/-- A tuple is deposited anew, with a new sequence number, in a region as its word describes it (R356 step 7); a full region or slice drops it, as it does that
of a TDEP (R297). -/
def State.deposit (s : State) (die : Nat) (region : Word64) (u : Tup) : State :=
  let h := s.survivor die (blockIndex .dep (region.getLsbD 62) u.f)
  let sl := s.slice h
  let mine := sl.tuples.filter (fun v => v.ctx == u.ctx && v.job == u.job && (u.job.isSome || v.slot == u.slot) && v.handle == u.handle)
  let full := decide (fld region 31 0 ≤ mine.length) || decide (4096 ≤ sl.tuples.length)
  s.putSlice h { sl with seq := sl.seq + 1, tuples := if full then sl.tuples else sl.tuples ++ [{ u with seq := sl.seq }] }

/-- Whether a record for a moved rank may be made: the slot is FREE, and R14 and R55 are kept. -/
def State.mayArrive (s : State) (a : Moving) : Bool :=
  (s.rank a.dslot).state == .free && decide (s.inH < 64)
    && !s.front.ranks.any (fun e => e.2.state != .free && e.2.job == a.rank.job && e.2.vrank == a.rank.vrank)
    && (match s.jobNo a.rank.job with | some (_, j) => decide (a.rank.vrank.toNat < j.v) | none => false)

/-- Step 1 of R356 at the destination: the slot is ARRIVING, and the job's step comes with the first rank of the job. The module that rank 0 comes to
coordinates (R16). On a fenced die the rank is lost, and a containment event of KIND 1 says so. -/
def State.beginArrival (s : State) (a : Moving) (c : Nat) : State :=
  let die := pickDie s
  if s.mgmt.fdies.contains die then
    let s := s.cevent 1 0 0 (unitWord die 4 die) 0 0
    { s with front := { s.front with arrivals := s.front.arrivals.filter (fun v => v.dslot != a.dslot) } }
  else
    let first := !(s.jobSlots c a.rank.job).any (fun i => (s.rank i).state.isH && (s.rank i).state != .departing)
    let s := match s.jobOf c a.rank.job with
      | some (k, j) =>
        let j := if first then { j with next := a.next, state := JState.committed } else j
        { s with front := { s.front with jobs := s.front.jobs.put k (if a.rank.vrank = 0 then { j with coord := s.mgmt.node } else j) } }
      | none => s
    s.putRank a.dslot { state := .arriving, ctx := c, homedie := die, vrank := a.rank.vrank, job := a.rank.job }

/-- Steps 2 to 8 of R356: the record, tables and pages, rows, streams and tuples of a moved rank; none while the pool is short. Every line is encrypted
under this module's context, with its version of the line's buffer. A posted receive names the rank of its issuer (R40): a decrement for the step launch of the
rank's current step stays one, and the launch that L = 0 named is no launch of this module. -/
def State.installMoved (s : State) (a : Moving) (c : Nat) : Option State :=
  let g := { a.image with key := s.encNow c 0, enc := a.image.enc.map (fun (e : Nat × Enc) => (e.1, s.encNow c e.2.buf)) }
  match s.placeImage c g with
  | none => none
  | some (root, s) =>
    let die := (s.rank a.dslot).homedie
    let tref (t : TaskRef) : TaskRef := { t with ctx := c, slot := a.dslot, queue := 0, lid := 0 }
    let post (p : Post) : Post := { p with key := deadKey, core := agentOf (128 * die), tref := p.tref.map tref }
    let s := s.putRank a.dslot { a.rank.freed with
      state := .active, ctx := c, homedie := die, ptroot := root, image := 0, chanStop := a.rank.chanStop,
      rows := a.rank.rows.map (fun (e : Nat × Row) => (e.1, { e.2 with posted := e.2.posted.map post })) }
    let s := a.tups.foldl (fun (s : State) (u : Tup) => s.deposit die ((s.ctxAt c).tulle.get u.handle) { u with ctx := c, slot := a.dslot }) s
    some ((s.modCtx c (fun x => { x with up := true })).shoot a.dslot 0 0)

/-- A rank from another module is installed (R356): its order was checked when it was made (R354), and it waits while it cannot be. -/
def State.installArrival (s : State) (a : Moving) : State :=
  match s.destCtx a.rank.job with
  | none => s
  | some c =>
    let r := s.rank a.dslot
    if r.state = .arriving && r.job == a.rank.job && r.vrank == a.rank.vrank then
      (match s.installMoved a c with
       | none => s
       | some u => { u with front := { u.front with arrivals := u.front.arrivals.filter (fun v => v.dslot != a.dslot) } })
    else if s.mayArrive a then s.beginArrival a c
    else s

/-- The migration key of an order: of the shared secret, both node numbers and SLOT (R378). -/
def State.migKey (s : State) (m : Migr) : List Byte :=
  (upto 0 64).map (fun i => Config.migrationKey (s.tick, s.mgmt.node.toNat, m.dnode.toNat, m.slot) i)

/-- Steps 1 to 9 of R356 for an order: the rank goes to its slot, and MAPUPD to every node that the map names. -/
def State.sendRank (s : State) (m : Migr) (j : Job) : State :=
  let s := s.unpinSlot m.slot
  let r := s.rank m.slot
  let us := s.rankTuples m.slot
  let v : Moving := { node := m.dnode.toNat, dslot := m.dslot, rank := r, image := s.image m.slot, tups := us, next := j.next, mkey := s.migKey m }
  let s := (upto 0 j.v).foldl (fun (s : State) k => s.readMap j.ctx j.job k) (s.dropTuples us)
  let s := if m.dnode = s.mgmt.node then { s with front := { s.front with arrivals := s.front.arrivals ++ [v] } }
    else { s with outs := { s.outs with moved := s.outs.moved ++ [v] } }
  let nodes := ((upto 0 j.v).filterMap (fun k => s.mapNode j.ctx j.job k)).eraseDups
  let s := { s with front := { s.front with migrs := mapIf (fun v => v.slot == m.slot) (fun v => { v with phase := 2, waits := nodes }) s.front.migrs } }
  let k : PktKind := .mapupd r.vrank.toNat m.dnode.toNat (if r.vrank = 0 then some m.dnode.toNat else none)
  nodes.foldl (fun (s : State) d => let (i, s) := s.fresh; s.sendTo d { id := i, ctx := j.ctx, job := j.job, kind := k }) s

/-- MIGRATION_TRANSFER (R356): a departing rank goes to its slot, on this module or another; or the rank that comes from another module to this slot is
installed. -/
def execMigrationTransfer (slot : Nat) (s : State) : Out :=
  .next (match s.front.migrs.find? (fun m => m.slot == slot && m.phase == 1) with
    | none =>
      match s.front.arrivals.find? (fun a => a.dslot == slot) with
      | none => s
      | some a => s.installArrival a
    | some m =>
      let r := s.rank slot
      match s.jobOf r.ctx r.job with
      | none => s
      | some (_, j) => if r.state = .departing then s.sendRank m j else s)

/-- A node acknowledges the map update of a rank of a job (R357). -/
def State.ackMap (s : State) (job : Word32) (rank node : Nat) : State :=
  let is (m : Migr) : Bool := m.phase == 2 && (s.rank m.slot).job == job && (s.rank m.slot).vrank.toNat == rank
  { s with front := { s.front with migrs := mapIf is (fun m => { m with waits := m.waits.filter (fun n => n != node) }) s.front.migrs } }

/-- The packets that wait here for a rank go on to its new node, in arrival order; one that may not leave yet, and those behind it, stay held (R74, R357). -/
def State.forwardPkts (s : State) (job : Word32) (rank node : Nat) : State :=
  (s.front.pkts.filter (fun p => p.kind.toRank && p.job == job && p.rank == rank)).foldl (fun (s : State) p =>
    if s.heldBefore p || !s.mayLeave p then s.modPkt p.id (fun q => { q with held := true }) else s.sendAway node p) s

/-- MAPUPD (R357): the map's word, COORD, which is for the next step when one runs (R16), the packets that wait for the rank, and the acknowledgement, to the
module from which the rank moved. -/
def execMapupd (job : Word32) (rank node : Nat) (coord : Option Nat) (s : State) : Out :=
  .next (match s.jobNo job with
    | none => s
    | some (k, j) =>
      let me := s.mgmt.node.toNat
      let old := s.mapNode j.ctx job rank
      let a := j.mapbase + 4 * rank
      let s := if hbmExists a then { s with mem := { s.mem with hbm := s.mem.hbm.put a (leBytes (2 ^ 31 + node % 2 ^ 20) 4) } } else s.badAgent a
      let j := match coord with
        | some d => if j.state = JState.committed then { j with coord := BitVec.ofNat 20 d } else { j with coordNext := some (BitVec.ofNat 20 d) }
        | none => j
      let others := j.updated.filter (fun v => v != rank)
      let j := { j with updated := if node = me then others else others ++ [rank] }
      let s := { s with front := { s.front with jobs := s.front.jobs.put k j } }
      let s := if node = me then s else s.forwardPkts job rank node
      let s := s.ackMap job rank me
      match old with
      | none => s
      | some n => if n = me then s else let (i, s) := s.fresh; s.sendTo n { id := i, ctx := j.ctx, job := job, rank := rank, kind := .mapack me })

/-- MIGRATION_COMPLETE (R357, R356 step 10): every node has acknowledged. -/
def execMigrationComplete (slot : Nat) (s : State) : Out :=
  .next (match s.front.migrs.find? (fun m => m.slot == slot && m.phase == 2) with
    | none => s
    | some m =>
      let r := s.rank slot
      if !m.waits.isEmpty then s
      else
        let s := s.giveBack r.ctx (s.rankFrames slot)
        let s := (s.putRank slot r.freed).reportCaught r.ctx r.job
        (s.endMigr m 0).evalHeads r.ctx)

end Sys2Proof.Machine
end

