-- ==== Sys2Proof/Machine/Preempt.lean ====
section
/-! DEFINITION. Pre-emption (R116, R325-R335): requests, stops, DRAINLIM, the save area, saving and restoring; asynchronous traps (R321). -/

namespace Sys2Proof.Machine

/-! Requests (R325, R326). -/

/-- Asks a stream for pre-emption; a full request stands above a light one. -/
def State.ask (s : State) (key : Nat) (full : Bool) : State :=
  s.modStream key (fun x =>
    { x with pre := if full then 2 else max x.pre 1, preSince := if x.pre = 0 then s.cycle.toNat else x.preSince })

/-- Contents of a stream's local granules by local number: key local × 65,536 + offset (R333). -/
def State.granBytes (s : State) (core : Nat) (lgran : Tbl Nat) : Memory :=
  lgran.foldl (fun (m : Memory) (e : Nat × Nat) => m ++ moveCells s.mem.spad (core * 2 ^ 20 + e.2 * 65536) 65536 (e.1 * 65536)) []

/-- Their full/empty bits by local number: key local × 16,384 + word. -/
def State.granBits (s : State) (core : Nat) (lgran : Tbl Nat) : Cells 1 :=
  lgran.foldl (fun (m : Cells 1) (e : Nat × Nat) => m ++ moveCells s.mem.fe (core * 2 ^ 18 + e.2 * 16384) 16384 (e.1 * 16384)) []

/-- Full/empty bits packed eight to a byte. -/
def packBits (m : Cells 1) : Memory :=
  m.foldl (fun (r : Memory) (e : Nat × BitVec 1) => r.set (e.1 / 8) (r.get (e.1 / 8) ||| BitVec.ofNat 8 (2 ^ (e.1 % 8)))) []

/-- Bytes a save writes (R332, R333). -/
def saveBytes (full : Bool) : Nat := if full then Config.csasize else 0x46000

/-- SA0 to SA7 (R334). -/
def saveHeader (tiles grans core bytes : Nat) (full compat : Bool) : List Word64 :=
  [BitVec.ofNat 64 (0x56415344 * 2 ^ 32 + 1 * 2 ^ 16 + 64),
   BitVec.ofNat 64 (64 * 2 ^ 48 + 64 * 2 ^ 32 + tiles * 2 ^ 28 + grans * 2 ^ 23 + (if full then 2 ^ 22 else 0) + (if compat then 2 ^ 21 else 0)),
   BitVec.ofNat 64 (bytes * 2 ^ 32 + core), 0, 0, 0, 0, 0]

/-- Bytes of 64-bit words. -/
def wordBytes (l : List Word64) : List Byte := (l.map (fun (w : Word64) => leBytes w.toNat 8)).flatten

/-- The header of a saved stream (R334). -/
def Saved.header (v : Saved) : List Word64 :=
  saveHeader (if v.stream.tiles4 then 4 else 8) (if v.full then v.stream.lgran.length else 0) v.core (saveBytes v.full) v.full v.stream.compat

/-- The system registers in table order (R104). -/
def sysRegs : List SysReg :=
  [.fmode, .flags, .lc, .ec, .rrb, .stkptr, .stkbase, .stklim, .efr, .dpb, .fewaitlim, .latcnt, .cycle, .wid, .vrank, .ctxid, .tvec, .trappc,
   .trapcause, .trapaddr, .trapinfo, .heat, .spwbase, .csasize]

/-! The entries of the sections of R333: descriptors as their rules lay them out, the other fields in an order of the model's choice (log 14). -/

/-- A ring: its descriptor (R243), head and tail, filled count. -/
def Ring.entry (r : Ring) : List Word64 :=
  [BitVec.ofNat 64 r.base, BitVec.ofNat 64 (r.count * 2 ^ 32 + r.slot), BitVec.ofNat 64 (r.tail * 2 ^ 32 + r.head), BitVec.ofNat 64 r.filled]

/-- A ring from its entry. -/
def Ring.of (w : List Word64) : Ring :=
  { base := fld (wordAt w 0) 55 0, count := fld (wordAt w 1) 40 32, slot := fld (wordAt w 1) 31 0, head := fld (wordAt w 2) 31 0,
    tail := fld (wordAt w 2) 63 32, filled := fld (wordAt w 3) 31 0 }

/-- A load-block entry: its descriptor (R245) and state. -/
def LBlk.entry (b : LBlk) : List Word64 :=
  [BitVec.ofNat 64 ((b.lines - 1) * 2 ^ 58 + b.tag), BitVec.ofNat 64 ((if b.wb then 2 ^ 63 else 0) + b.slot), BitVec.ofNat 64 b.few,
   BitVec.ofNat 64 ((if b.valid then 1 else 0) + (if b.filling then 2 else 0) + (if b.evicting then 4 else 0))]

/-- A load-block entry from its words. -/
def LBlk.of (w : List Word64) : LBlk :=
  { tag := fld (wordAt w 0) 55 0, lines := fld (wordAt w 0) 63 58 + 1, slot := fld (wordAt w 1) 55 0, wb := (wordAt w 1).getLsbD 63,
    few := fld (wordAt w 2) 55 0, valid := (wordAt w 3).getLsbD 0, filling := (wordAt w 3).getLsbD 1, evicting := (wordAt w 3).getLsbD 2 }

/-- A task reference as a program writes it (R40). -/
def TaskRef.word (t : TaskRef) : Nat := (if t.sl then 2 ^ 31 else 0) + t.task

/-- A withdrawn Tulle request: result area, handle with the request's kind, task reference, pattern address; the pattern itself does not fit and stays with
the agent. -/
def TReq.entry (t : TReq) : List Word64 :=
  [BitVec.ofNat 64 t.res,
   BitVec.ofNat 64 (t.handle + (if t.kind = .take then 2 ^ 10 else 0) + (if t.nowait then 2 ^ 11 else 0) + (if t.detach then 2 ^ 12 else 0)),
   BitVec.ofNat 64 t.tref.word, BitVec.ofNat 64 t.pat]

/-- A withdrawn receive: sequence number and channel, buffer, status word, task reference. -/
def Post.entry (ch : Nat) (p : Post) : List Word64 :=
  [BitVec.ofNat 64 (p.seq.toNat + ch * 2 ^ 32 + (if p.stat.isSome then 2 ^ 40 else 0) + (if p.tref.isSome then 2 ^ 41 else 0)), BitVec.ofNat 64 p.buf,
   BitVec.ofNat 64 (p.stat.getD 0), BitVec.ofNat 64 ((p.tref.map TaskRef.word).getD 0)]

/-- A pending trap: TRAPCAUSE, TRAPADDR, TRAPINFO. -/
def TrapRec.entry (t : TrapRec) : List Word64 := [t.cause.setWidth 64, t.addr, t.info, 0]

/-- The descriptor of an engine operation: of a copy (R248), a load block (R245) or a near-memory command (R251). -/
def Op.descriptor (o : Op) : List Word64 :=
  match o.kind with
  | .copy c =>
    let ck := (if c.fe.isSome then 2 ^ 62 else 0) + (if c.tref.isSome then 2 ^ 63 else 0)
    [BitVec.ofNat 64 c.src, BitVec.ofNat 64 c.dst, BitVec.ofNat 64 (c.sstride * 2 ^ 32 + c.dstride),
     BitVec.ofNat 64 (c.rows * 2 ^ 48 + c.rowbytes * 2 ^ 24 + c.layout * 2 ^ 22 + c.esz / 2 * 2 ^ 20),
     BitVec.ofNat 64 (ck + ((c.fe.getD Config.spwbase) - Config.spwbase) * 2 ^ 32 + (c.tref.map TaskRef.word).getD 0)]
  | .fill _ b _ => b.entry
  | .evict _ _ b => b.entry
  | .nm c =>
    [BitVec.ofNat 64 (c.op * 2 ^ 60 + (if c.bf16 then 2 ^ 59 else 0) + c.w), BitVec.ofNat 64 c.x, BitVec.ofNat 64 (c.count * 2 ^ 32),
     BitVec.ofNat 64 (c.a.toNat * 2 ^ 32 + c.b.toNat), BitVec.ofNat 64 c.stat]
  | _ => []

/-- An entry of the engine queue (R328, R329): the descriptor, then what is done, its first unwritten piece, and its kind. -/
def Op.queueEntry (o : Op) : List Word64 :=
  let kind := match o.kind with | .copy _ => 1 | .fill _ _ _ => 2 | .evict _ _ _ => 3 | .nm _ => 4 | _ => 0
  (upto 0 5).map (wordAt o.descriptor) ++ [BitVec.ofNat 64 o.moved, BitVec.ofNat 64 o.piece, BitVec.ofNat 64 kind]

/-- The window address of an operation's completion object. -/
def Op.target (o : Op) : Option Nat :=
  match o.kind with
  | .copy c => c.fe
  | .fill _ b _ => some b.few
  | .evict _ _ b => some b.few
  | .nm c => some c.stat
  | _ => none

/-- The flag file (R329): the completion target of each of the 32 engine slots. -/
def flagFile (ops : List Op) : List Word64 := (upto 0 32).map (fun i => BitVec.ofNat 64 (((ops[i]?).bind Op.target).getD 0))

/-- The remainder window: its records from the bottom up, then its control state, w first (R200, R207). -/
def windowBytes (win : List RRec) (agent : Nat) : List (Nat × List Byte) :=
  (upto 0 win.length).zip (win.reverse.map RRec.bytes) |>.map (fun e => (0x26000 + 272 * e.1, e.2))
    |>.append [(0x26000 + 130560, wordBytes [BitVec.ofNat 64 win.length, BitVec.ofNat 64 agent])]

/-- Entries of a size, from an offset. -/
def entries (off size : Nat) (l : List (List Word64)) : List (Nat × List Byte) :=
  ((upto 0 l.length).zip l).map (fun e => (off + size * e.1, wordBytes e.2))

/-- What the save area holds beside zeros, by offset (R333). -/
def State.saveSections (s : State) (v : Saved) (drain : Bool) : List (Nat × List Byte) :=
  let x := v.stream
  let l (i : Nat) : Nat := (x.l.get i).toNat * 2 ^ (12 * i)
  let flags := (if x.handler then 1 else 0) + (if drain then 2 else 0) + (if x.halted then 4 else 0)
  [(0, wordBytes v.header),
   (0x140, wordBytes [x.p.setWidth 64, BitVec.ofNat 64 (l 0 + l 1 + l 2 + l 3), BitVec.ofNat 64 flags, x.pc]),
   (0x600, wordBytes (sysRegs.map (fun r => s.readSys x r)))]
    ++ x.s.map (fun e => (0x40 + 8 * e.1, leBytes e.2.toNat 8))
    ++ x.c.map (fun e => (0x180 + 4 * e.1, leBytes e.2.toNat 4))
    ++ x.q.map (fun e => (0x1C0 + 8 * e.1, leBytes e.2.toNat 8))
    ++ x.z.map (fun e => (0x200 + 4 * e.1, leBytes e.2.toNat 4))
    ++ x.rings.map (fun e => (0x700 + 32 * e.1, wordBytes e.2.entry)) ++ x.blks.map (fun e => (0x900 + 32 * e.1, wordBytes e.2.entry))
    ++ entries 0x1100 32 ((v.treqs.take 16).map TReq.entry) ++ entries 0x1300 32 ((v.posts.take 16).map (fun e => e.2.entry e.1))
    ++ entries 0x1500 32 ((x.async.take 16).map TrapRec.entry) ++ entries 0x1700 64 ((v.ops.take 32).map Op.queueEntry)
    ++ (if x.compat then [(0x1F00, wordBytes (flagFile v.ops))] else [])
    ++ v.store.map (fun e => (0x2000 + 8 * e.1, leBytes e.2.toNat 8))
    ++ v.mrf.map (fun e => (0x6000 + 4 * e.1, leBytes e.2.toNat 4))
    ++ (if x.winHeld then windowBytes x.win x.winAgent else [])
    ++ v.grans.map (fun e => (0x46000 + e.1, [e.2]))
    ++ (packBits v.fe).map (fun e => (0x146000 + e.1, [e.2]))

/-- Physical address of a context's save area (R326). -/
def State.areaBase (s : State) (ctx area : Nat) : Nat := (s.ctxAt ctx).csapool.toNat + Config.csasize * area

/-- Writes a save area under the context's keys with BUF 0 (R326). A place that no stack holds loses what is written there (R232). -/
def State.writeArea (s : State) (ctx : Nat) (v : Saved) (drain : Bool) : State :=
  let base := s.areaBase ctx v.area
  let n := saveBytes v.full
  if !(hbmExists base && hbmExists (base + n - 1)) then s.badAgent base
  else
    let secs := s.saveSections v drain
    let s := s.zeroUnder base n (s.encNow ctx 0)
    secs.foldl (fun (s : State) e => s.homePut ctx 0 (base + e.1) e.2) s

/-- A light save becomes a full one: the agent saves the granules into the stream's area (R331). -/
def State.makeFull (s : State) (ctx : Nat) (v : Saved) : State :=
  if v.full then s
  else
    let w := { v with full := true, grans := s.granBytes v.core v.stream.lgran, fe := s.granBits v.core v.stream.lgran }
    let s := if (upto 0 2).any (fun i => match s.stream (2 * v.core + i) with | some y => y.slot == v.stream.slot | none => false) then s
      else s.unpinIf v.core (fun p => p.slot == v.stream.slot)
    (s.modSaved ctx v.area (fun _ => w)).writeArea ctx w v.stream.atDrain

/-- PREEMPTION_REQUEST (R325, R326, R331): an order to save a stream, or the granules of one that is saved. Without a free area it is refused
with NOAREA. -/
def execPreemptionRequest (key : Nat) (full : Bool) (s : State) : Out :=
  .next
    (match s.savedOf key with
     | some v => if full then s.makeFull ((key - 1024) / 65536) v else s
     | none =>
       match s.stream key with
       | none => s
       | some x => if x.pre = 0 && (s.ctxAt x.ctx).freeArea.isNone then s.respond s.mgmt.lastSeq 4 else s.ask key full)

/-! Stops (R116, R327, R329). -/

/-- The operations that a drain point waits for (R116). -/
def Op.drains (o : Op) : Bool := o.awaited

/-- Whether the header at the focused stream's pc has D = 1 (R78). -/
def State.headerD (s : State) : Bool :=
  match s.fetchWord s.cur.pc.toNat with
  | .word w _ => isHeader w && w.getLsbD 26
  | _ => false

/-- Whether the focused stream stands at a drain point (R116). That the window's agent of the core's other stream does not count is the model's choice
(log 67). -/
def State.atDrainPoint (s : State) : Bool :=
  let x := s.cur
  let k := s.curKey
  x.land.isEmpty && x.pend.isEmpty && x.hold.isNone && x.winAgent != 1 && x.winAgent != 2 && !s.core.calls.any (fun c => c.key == k)
    && !s.ops.any (fun o => o.key == k && o.drains) && !s.treqs.any (fun t => t.key == k && !t.parked) && s.headerD

/-- The focused stream stops for pre-emption before its next bundle (R110, R278, R300, R329): results land, its requests but the detached ones are
withdrawn (R330), and in compatibility mode operations that have not started leave the engine queue. -/
def State.stopCur (s : State) (drain : Bool) : State :=
  let k := s.curKey
  let s := s.landAll
  let s := { s with cur := { s.cur with
    stopped := true, atDrain := drain, stopAt := s.cycle.toNat, bundle := none, waitCyc := 0, fixed := 0, flushing := false, mark := .none } }
  { s with
    treqs := mapIf (fun t => t.key == k && t.kind != .dep && !t.detach) (fun t => { t with withdraw := true }) s.treqs,
    ops := if s.cur.compat then mapIf (fun o => o.key == k && o.queued && !o.started) (fun o => { o with cut := true }) s.ops else s.ops }

/-- Whether the focused stream could stop here (R289, R322). A task that has issued TEND or CATCH issues nothing more and has no bundle to
resume with. -/
def State.mayStop (s : State) : Bool := s.curLive && s.cur.pre != 0 && !s.cur.stopped && s.cur.ending == 0 && s.cur.hold.isNone

/-- PREEMPTION_STOP (R327, R329): at a drain point, or in compatibility mode at any boundary. -/
def execPreemptionStop (key : Nat) (s : State) : Out :=
  let s := s.focus key
  .next
    (if !s.mayStop then s
     else
       let d := s.atDrainPoint
       if d || s.cur.compat then s.stopCur d else s)

/-- DPB_EXPIRY (R327): DPB cycles have passed from the request, and the next boundary has come. -/
def execDpbExpiry (key : Nat) (s : State) : Out :=
  let s := s.focus key
  .next (if s.mayStop && !s.cur.compat && decide (s.cur.preSince + s.cur.dpb.toNat < s.cycle.toNat) then s.stopCur s.atDrainPoint else s)

/-- DRAINBOUND (R329): the number of cut operations, and the completion word of the first. -/
def State.drainBound (s : State) (cut : List Op) : TrapRec :=
  { cause := 0x0D, info := BitVec.ofNat 64 (cut.length % 256),
    addr := match cut.head?.bind Op.target with | some a => BitVec.ofNat 64 a | none => Config.freeWord s.tick }

/-- DRAINLIM_EXPIRY (R328, R329): operations still running are cut, for replay, or in compatibility mode with status CUT. -/
def execDrainlimExpiry (key : Nat) (s : State) : Out :=
  .next (match s.stream key with
    | none => s
    | some x =>
      if !x.stopped || x.atDrain || decide (s.cycle.toNat < x.stopAt + (s.ctxAt x.ctx).drainlim.toNat) then s
      else
        let run (o : Op) : Bool := o.key == key && o.queued && o.status.isNone && !o.cut
        let cut := s.ops.filter run
        let end8 (o : Op) : Op := if x.compat then { o with cut := true, status := some 8 } else { o with cut := true }
        let s := { s with ops := mapIf run end8 s.ops }
        if x.compat && !cut.isEmpty then s.asyncTrap key (s.drainBound cut) else s)

/-! Saving (R327, R330, R333). -/

/-- Whether an operation of a stopped stream stands as its save needs it. -/
def Op.settled (o : Op) : Bool :=
  match o.kind with
  | .send _ _ src _ => !inWindow src || o.moved != 0
  | .spill _ => false
  | .trap => false
  | _ => !o.queued || (o.cut && o.status.isNone)

/-- Whether a stopped stream can be saved (R207, R230, R300, R327, R328). -/
def State.saveReady (s : State) (key : Nat) (x : Stream) : Bool :=
  x.stopped && x.land.isEmpty && x.pend.isEmpty && x.winAgent != 1 && x.winAgent != 2 && !(s.coreOf (key / 2)).calls.any (fun c => c.key == key)
    && s.ops.all (fun o => o.key != key || o.settled) && s.treqs.all (fun t => t.key != key || t.state == 4 || (t.detach && t.parked))

/-- A stream's part of its core as a save holds it: cells by own tile, store words by micro address. -/
def State.savedPart (s : State) (key : Nat) (x : Stream) : Cells 32 × Cells 64 :=
  let c := s.coreOf (key / 2)
  let (t, n) := tileRange x.tiles4 (key % 2 == 1)
  let m := moveCells c.mrf (4096 * t) (4096 * n) 0
  let w := moveCells c.store (x.partBase key) x.partSize 0
  (m, w)

/-- The posted window receives of a stream, with their channels (R307). -/
def State.savedPosts (s : State) (key slot : Nat) : List (Nat × Post) :=
  ((s.rank slot).rows.map (fun (e : Nat × Row) => (e.2.posted.filter (fun p => p.key == key && p.window)).map (fun p => (e.1, p)))).flatten

/-- Takes a saved stream off its core (R327 step 5): everything that moves with it is in the save, the rest keeps its holder. It acts as a FENCE.FULL at
level 3 (R270). -/
def State.saveTo (s : State) (key area : Nat) (x : Stream) : State :=
  let core := key / 2
  let s := (s.relAll key 3).acq key 3
  let s := if x.pre = 2 then s.leaveCore key x.slot else s
  let c := s.coreOf core
  let (m, w) := s.savedPart key x
  let full := x.pre = 2
  let y := { x with flags := x.flags ||| c.done.get key, stopped := false, pre := 0, code := [], refused := 0, starved := false }
  let v : Saved :=
    { area := area, stream := y, full := full, core := core, mrf := m, store := w,
      grans := if full then s.granBytes core x.lgran else [], fe := if full then s.granBits core x.lgran else [],
      ops := s.ops.filter (fun o => o.key == key && o.queued), treqs := s.treqs.filter (fun t => t.key == key && !t.detach),
      posts := s.savedPosts key x.slot }
  let s := { s with ops := s.ops.filter (fun o => !(o.key == key && o.queued)), treqs := s.treqs.filter (fun t => t.key != key || t.detach) }
  let r := s.rank x.slot
  let s := s.putRank x.slot { r with rows := r.rows.map (fun (e : Nat × Row) =>
    (e.1, { e.2 with posted := e.2.posted.filter (fun p => !(p.key == key && p.window)) })) }
  let s := s.rekey x.slot key (savedKey x.ctx area)
  let s := s.putCore core { c with done := c.done.set key 0 }
  let s := s.modCtx x.ctx (fun d => { d with saved := d.saved ++ [v] })
  let s := s.writeArea x.ctx v x.atDrain
  if s.curLive && key == s.curKey then { s with curLive := false, cur := {} } else { s with streams := s.streams.del key }

/-- CONTEXT_SAVE (R327, R330, R333): a stopped stream whose conditions hold is written to a free save area, and its core is free. -/
def execContextSave (key : Nat) (s : State) : Out :=
  .next (match s.stream key with
    | none => s
    | some x =>
      match (s.ctxAt x.ctx).freeArea with
      | some a => if s.saveReady key x then s.saveTo key a x else s
      | none => s)

/-! Restoring (R331, R335). -/

/-- Whether a header passes the checks of R335. -/
def headerOk (h : List Word64) : Bool :=
  let a := wordAt h 0
  let b := wordAt h 1
  let c := wordAt h 2
  fld a 63 32 == 0x56415344 && fld a 31 16 == 1 && fld a 15 0 == 64 && fld b 63 48 == 64 && fld b 47 32 == 64
    && decide (fld c 63 32 ≤ Config.csasize) && fld b 20 0 == 0 && fld c 31 9 == 0 && (upto 3 5).all (fun i => wordAt h i == 0)

/-- The registers, rings, load blocks, window and first 16 pending traps of a stream as its save area holds them (R207, R333). The traps beyond, and what an
entry has no room for, come from the agent's record. -/
def State.loadStream (s : State) (base : Nat) (x : Stream) : Stream :=
  let rd (off n : Nat) : List Byte := s.homeBytes x.ctx 0 (base + off) n
  let m := words64 (rd 0x140 32)
  let sys := words64 (rd 0x600 192)
  let l (i : Nat) : BitVec 12 := (wordAt m 1).extractLsb' (12 * i) 12
  let x := { x with
    s := Cells.puts (w := 64) [] ((upto 1 31).zip ((words64 (rd 0x40 256)).drop 1)),
    p := (wordAt m 0).setWidth 16,
    l := Cells.puts (w := 12) [] [(0, l 0), (1, l 1), (2, l 2), (3, l 3)],
    c := Cells.puts (w := 32) [] ((upto 0 16).zip (words32 (rd 0x180 64))),
    q := Cells.puts (w := 64) [] ((upto 0 8).zip (words64 (rd 0x1C0 64))),
    z := Cells.puts (w := 32) [] ((upto 0 256).zip (words32 (rd 0x200 1024))),
    rings := x.rings.map (fun (e : Nat × Ring) => (e.1, Ring.of (words64 (rd (0x700 + 32 * e.1) 32)))),
    blks := x.blks.map (fun (e : Nat × LBlk) => (e.1, LBlk.of (words64 (rd (0x900 + 32 * e.1) 32)))),
    win := if x.winHeld then ((upto 0 (min 480 (leNat (rd (0x26000 + 130560) 8)))).map (fun i => RRec.of (rd (0x26000 + 272 * i) 272))).reverse else [],
    async := ((upto 0 x.async.length).zip x.async).map (fun e =>
      if 16 ≤ e.1 then e.2
      else
        let w := words64 (rd (0x1500 + 32 * e.1) 32)
        { e.2 with cause := (wordAt w 0).setWidth 8, addr := wordAt w 1, info := wordAt w 2 }),
    handler := (wordAt m 2).getLsbD 0, halted := (wordAt m 2).getLsbD 2, pc := wordAt m 3, npc := wordAt m 3 }
  (sysRegs.zip sys).foldl (fun (x : Stream) e => x.writeSys e.1 e.2) x

/-- Puts a stream's tiles, microprogram part and saved granules back, each granule under its own number (R333, R335 steps 1 and 2). -/
def State.loadCore (s : State) (base key : Nat) (v : Saved) (gs : Tbl Nat) : State :=
  let core := key / 2
  let x := v.stream
  let rd (off n : Nat) : List Byte := s.homeBytes x.ctx 0 (base + off) n
  let (t, n) := tileRange x.tiles4 (key % 2 == 1)
  let c := (s.coreOf core).clearFor x.tiles4 (key % 2 == 1)
  let c := { c with
    mrf := c.mrf.puts ((upto (4096 * t) (4096 * n)).zip (words32 (rd 0x6000 (16384 * n)))),
    store := c.store.puts ((upto (x.partBase key) x.partSize).zip (words64 (rd 0x2000 (8 * x.partSize)))) }
  let s := s.putCore core c
  if !v.full then s
  else
    gs.foldl (fun (s : State) e =>
      let m := s.mem.clearGran core e.2
      let bits := (s.homeBytes x.ctx 0 (base + 0x146000 + 2048 * e.1) 2048)
      let set := (upto 0 16384).filter (fun w => (bits.getD (w / 8) 0).getLsbD (w % 8))
      let m := { m with
        spad := m.spad.put (core * 2 ^ 20 + e.2 * 65536) (s.homeBytes x.ctx 0 (base + 0x46000 + 65536 * e.1) 65536),
        fe := m.fe.puts (set.map (fun w => (core * 2 ^ 18 + e.2 * 16384 + w, 1))) }
      { s with mem := m }) s

/-- A withdrawn receive is posted again with its number; a message on the list is taken (R307), unless the rank's channel handling has stopped (R303). Answers
none while a line is being bumped. -/
def State.repost (s : State) (key slot ch : Nat) (p : Post) : Option State :=
  let p := { p with key := key, core := key / 2 }
  let post (s : State) : State := s.modRow slot ch (fun w => { w with posted := w.posted ++ [p] })
  if (s.rank slot).chanStop then some (post s)
  else
    match s.listTake slot ch p.seq with
    | .error .wait => none
    | .error (.stop _ t) => some (post (s.listFault slot t))
    | .ok (some l, s) => s.receive slot p l
    | .ok (none, s) => some (post s)

/-- Reposts every withdrawn receive, in order. -/
def State.repostAll (s : State) (key slot : Nat) : List (Nat × Post) → Option State
  | [] => some s
  | (ch, p) :: r =>
    match s.repost key slot ch p with
    | some s => s.repostAll key slot r
    | none => none

/-- A withdrawn request issues again, with its pattern and result area, as a new arrival (R300). -/
def State.reissue (s : State) (key : Nat) (x : Stream) (t : TReq) : State :=
  let place := match x.winPieces (key / 2) t.res t.kind.size .ewrite with | .ok ps => winKeys ps | .error _ => []
  s.setOut { t with key := key, place := place, cancel := none, withdraw := false }

/-- The steps of R335 that follow an accepted header. -/
def State.restore (s : State) (ctx key : Nat) (v : Saved) : Option State :=
  let core := key / 2
  let base := s.areaBase ctx v.area
  let gs : Tbl Nat := if v.full then (v.stream.lgran.map (fun e => e.1)).zip (s.freeGrans core) else v.stream.lgran
  let s := if v.full then s.shrinkPins core (gs.map (fun e => e.2)) else s
  let x := s.loadStream base v.stream
  let s := s.loadCore base key v gs
  let x := { x with lgran := gs, sliceAt := s.cycle.toNat, stopped := false, atDrain := false, mark := .none }
  let s := s.modCtx ctx (fun d => { d with saved := d.saved.filter (fun w => w.area != v.area) })
  let s := (s.putStream key x).rekey x.slot (savedKey ctx v.area) key
  let at' (t : TReq) : List (Nat × Nat) := match x.winPieces core t.res t.kind.size .ewrite with | .ok ps => winKeys ps | .error _ => t.place
  let s := { s with treqs := mapIf (fun t => t.key == key) (fun t => { t with place := at' t }) s.treqs }
  let s := v.helds.foldl (fun (s : State) h => s.complete key h.1 h.2) s
  let again (o : Op) : Op := { o with key := key, core := core, cut := false, started := false }
  let s := { s with ops := s.ops ++ v.ops.map again }
  let s := v.treqs.foldl (fun (s : State) t => s.reissue key x t) s
  let s := s.deliverAll key
  s.repostAll key x.slot v.posts

/-- A refused restore ends the task with cause RESTORE and is reported (R324, R335, R344). -/
def State.refuseRestore (s : State) (ctx key : Nat) (v : Saved) : State :=
  let x := v.stream
  let s := s.stopRank ctx x.queue x.serial x.slot
  let s := s.modLaunch ctx x.queue x.serial (fun l => if l.status == 8 then l else { l with status := 8, fcause := 0x15 })
  s.cevent 3 0x15 ctx (unitWord (coreDie (key / 2)) 0 (key / 2)) (s.areaBase ctx v.area) x.vrank.toNat

/-- CONTEXT_RESTORE (R51, R331, R335): the queue has won, the core meets the stream's needs; the header is checked first. -/
def execContextRestore (ctx area key : Nat) (s : State) : Out :=
  .next (match (s.ctxAt ctx).saved.find? (fun v => v.area == area) with
    | none => s
    | some v =>
      let q := v.stream.queue
      if s.savedSeat v (key / 2) ≠ some key || (s.ctxAt ctx).weight q = 0 || !s.winner ctx q then s
      else if !headerOk (words64 (s.homeBytes ctx 0 (s.areaBase ctx area) 64)) then s.refuseRestore ctx key v
      else (s.rebase.restore ctx key v).getD s)

/-! Asynchronous traps (R321-R323). -/

/-- Whether the focused stream takes an asynchronous trap at this boundary (R322, R323). -/
def State.takesAsync (s : State) : Bool :=
  s.curLive && !s.cur.async.isEmpty && !s.cur.handler && s.cur.hold.isNone && !s.cur.halted && !s.cur.stopped && s.cur.ending == 0

/-- ASYNC_TRAP_DELIVERY (R321): the oldest pending trap, with TRAPPC at the bundle that would have issued next. -/
def execAsyncTrapDelivery (key : Nat) (s : State) : Out :=
  let s := s.focus key
  .next
    (match s.cur.async with
     | t :: r => if s.takesAsync then ({ s with cur := { s.cur with async := r } }).enterTrap t s.cur.pc else s
     | [] => s)

end Sys2Proof.Machine
end

