-- ==== Sys2Proof/Machine/Intr.lean ====
section
/-! DEFINITION. Removing a launch (R336), debugging (R337, R338), soft errors (R342), fencing (R343, R344), weigh and reset (R339-R341). -/

namespace Sys2Proof.Machine

/-! Removing a launch (R336). -/

/-- Whether a launch that waits in a queue names a rank. -/
def State.namesSlot (s : State) (c : Nat) (l : Launch) (slot : Nat) : Bool :=
  if l.started then l.ranks.any (fun r => r.slot == slot) else (s.setSlots c l).contains slot

/-- ABORT_LAUNCH (R336). An order that names no unretired launch is REFUSED. -/
def execAbortLaunch (c : Cmd) (ctx queue serial : Nat) (s : State) : Out :=
  s.command c (fun s =>
    match s.launch ctx queue serial with
    | none => .now s 6 []
    | some l =>
      if l.done then .now s 6 []
      else
        let s := l.ranks.foldl (fun (s : State) r => s.stopRank ctx queue serial r.slot) s
        match s.launch ctx queue serial with
        | none => .now s 6 []
        | some l =>
          let s := if l.status = 8 then s.endLaunch ctx queue l 8 l.fcause else s.endLaunch ctx queue l 9 0
          .now (l.ranks.foldl (fun (s : State) r => s.checkCaught r.slot) s) 0 [])

/-! Debugging (R337, R338). -/

/-- Whether a debugger is attached to a stream's context. -/
def State.debugged (s : State) (x : Stream) : Bool := (s.ctxAt x.ctx).dbgen

/-- DEBUG_HALT (R337): the stream halts at its next boundary. -/
def execDebugHalt (key : Nat) (s : State) : Out :=
  .next (s.modStream key (fun x => if s.debugged x && !x.halted then { x with haltReq := true } else x))

/-- DEBUG_STEP (R337): a halted stream issues one bundle and halts again. -/
def execDebugStep (key : Nat) (s : State) : Out :=
  .next (s.modStream key (fun x => if s.debugged x && x.halted then { x with halted := false, stepOne := true, skipBp := true } else x))

/-- DEBUG_CONT (R337). -/
def execDebugCont (key : Nat) (s : State) : Out :=
  .next (s.modStream key (fun x => if s.debugged x && x.halted then { x with halted := false, skipBp := true } else x))

/-- What a debugger's write does to a halted stream (R338): RW registers as R101 and R104 give them, cells of granted tiles, bytes of granules it
holds. -/
def State.debugWrite (s : State) (key : Nat) (x : Stream) (w : DbgWrite) : State :=
  match w with
  | .s r v => s.putStream key (x.writeS r.toNat v)
  | .p r v => s.putStream key (x.writeP r.toNat v)
  | .l r v => s.putStream key { x with l := x.l.set r.toNat v }
  | .c r v => s.putStream key { x with c := x.c.set r.toNat v }
  | .z r e v => s.putStream key { x with z := x.z.set (r.toNat * 64 + e.toNat) v }
  | .q r v => s.putStream key { x with q := x.q.set r.toNat v }
  | .sys r v => s.putStream key (x.writeSys r v)
  | .cell tile i j v =>
    if !x.ownsTile tile.toNat then s
    else
      let k := x.ptile (key % 2 == 1) tile.toNat * 4096 + 64 * i.toNat + j.toNat
      let c := s.coreOf (key / 2)
      s.putCore (key / 2) { c with mrf := c.mrf.set k v, parity := c.parity.filter (fun p => p != k) }
  | .granule va v =>
    match x.winPieces (key / 2) va.toNat 1 .store with
    | .ok ({ pl := .win k, .. } :: _) => { s with mem := { s.mem with spad := s.mem.spad.set k v } }
    | _ => s

/-- DEBUGGER_WRITE (R338). -/
def execDebuggerWrite (key : Nat) (w : DbgWrite) (s : State) : Out :=
  .next (match s.stream key with
    | some x => if s.debugged x && x.halted then s.debugWrite key x w else s
    | none => s)

/-! Soft errors (R342). -/

/-- UNIT of a unit (R344). -/
def unitCode : FUnit → Nat
  | .core n => unitWord (coreDie n) 0 n
  | .slice d n => unitWord d 1 n
  | .crew n => unitWord (n / 16) 2 n
  | .port n => unitWord 0 3 n
  | .die n => unitWord n 4 n

/-- A rank that maps a frame, with a virtual address of it. -/
def State.frameOwner (s : State) (frame : Nat) : Option (Nat × Nat) :=
  (s.front.ranks.filter (fun e => e.2.state.isH)).findSome? (fun e =>
    ((s.leaves e.1).find? (fun l => decide (l.pa / 4096 ≤ frame) && decide (frame < (l.pa + l.size) / 4096))).map (fun l =>
      (e.1, l.va + (frame * 4096 - l.pa))))

/-- A frame of a line that is lost: it is poisoned under R69 for the rank that maps it. -/
def State.loseFrame (s : State) (frame : Nat) : State :=
  match s.frameOwner frame with
  | some (slot, va) => s.contain slot va frame
  | none => (s.poisonFrame frame).orphanEvent frame

/-- A corrected error of a unit: more than 64 within 2^30 cycles have it fenced (R343). -/
def State.corrected (s : State) (u : FUnit) : State :=
  let now := s.cycle.toNat
  let l := (s.mgmt.corr.filter (fun e => e.1 != u || decide (now < e.2 + 2 ^ 30))) ++ [(u, now)]
  if (l.filter (fun e => e.1 == u)).length ≤ 64 then { s with mgmt := { s.mgmt with corr := l } }
  else { s with mgmt := { s.mgmt with corr := l.filter (fun e => e.1 != u), fenceDue := s.mgmt.fenceDue ++ [(u, false)] } }

/-- SOFT_ERROR (R342). A TLB entry leaves the core's TLB and its crew's, which would give it back without a walk. -/
def execSoftError (e : SoftErr) (s : State) : Out :=
  .next (match e with
    | .mrf core tile cell =>
      let c := s.coreOf core
      let k := tile * 4096 + cell
      if c.parity.contains k then s else s.putCore core { c with parity := c.parity ++ [k] }
    | .spad core word corrected =>
      if corrected then s.corrected (.core core)
      else
        let k := core * 2 ^ 18 + word
        if s.mem.bad.contains k then s else { s with mem := { s.mem with bad := s.mem.bad ++ [k] } }
    | .l2 line corrected dirty =>
      let h := s.homeSlice (line * 128)
      if corrected then s.corrected (.slice (h / 64) (h % 64)) else if dirty then s.loseFrame (line * 128 / 4096) else s
    | .tlb core slot va =>
      let keep (l : List Tlb) : List Tlb := l.filter (fun q => !q.hit slot va.toNat 1)
      let c := s.coreOf core
      let w := s.crews.at (core / 8) {}
      { s.putCore core { c with tlb := keep c.tlb } with crews := s.crews.put (core / 8) { w with tlb := keep w.tlb } }
    | .control u corrected =>
      if corrected then s.corrected u else { s with mgmt := { s.mgmt with fenceDue := s.mgmt.fenceDue ++ [(u, true)] } })

/-! Fencing (R343, R344). -/

/-- The streams bound to the cores of a list. -/
def State.streamsOn (s : State) (cores : List Nat) : List (Nat × Stream) := s.allStreams.filter (fun e => cores.contains (e.1 / 2))

/-- Whether a fence may save the streams on cores: no context of theirs has every area of its pool holding a saved stream (R326). -/
def State.areasFor (s : State) (cores : List Nat) : Bool := (s.streamsOn cores).all (fun e => (s.ctxAt e.2.ctx).freeArea.isSome)

/-- Pinned lines of a fenced core that cannot be read, which are open, are lost, and their frames are poisoned (R235). -/
def State.losePins (s : State) (core : Nat) : State :=
  (s.coreOf core).pins.foldl (fun (s : State) e =>
    let (t, s) := s.draw
    if Config.freePick t then
      let c := s.coreOf core
      (s.putCore core { c with pins := c.pins.del e.1 }).contain e.2.slot e.2.va (e.1 * 128 / 4096)
    else s) s

/-- A core is fenced: its pinned lines are written back (R235), its streams are asked for a full save, and granules of light saves are saved. A
stream whose state a failed control cannot give fails (R324); which ones is open, and so is the fault code. -/
def State.fenceCore (s : State) (control : Bool) (core : Nat) : State :=
  let s := (if control then s.losePins core else s).unpinIf core (fun _ => true)
  let s := s.putCore core { s.coreOf core with fenced := true }
  let s := (s.streamsOn [core]).foldl (fun (s : State) e =>
    let (t, s) := s.draw
    if control && Config.freePick t then s.taskFail e.1 ((Config.freeWord t).setWidth 8) else s.ask e.1 true) s
  s.front.ctxs.foldl (fun (s : State) c =>
    (c.2.saved.filter (fun v => v.core == core)).foldl (fun (s : State) v => s.makeFull c.1 v) s) s

/-- A slice is fenced: dirty lines are written back, and unreadable ones, which are open, poison their frames; homes are rehashed; tuples are
lost, parked requests answered LOST, requests on their way go to the survivor. -/
def State.fenceSlice (s : State) (control : Bool) (h : Nat) : State :=
  let lines := (s.mem.lclk.map (fun e => e.1)).filter (fun l => s.homeSlice (l * 128) == h)
  let s := lines.foldl (fun (s : State) l =>
    let (t, s) := s.draw
    if control && Config.freePick t then s.loseFrame (l * 128 / 4096) else s) s
  let s := { s with mem := { s.mem with pins := s.mem.pins.filter (fun p => s.homeSlice (p.1 * 128) != h) } }
  let sl := s.slice h
  let s := s.putSlice h { sl with fenced := true, tuples := [] }
  let s := sl.parked.foldl (fun (s : State) i =>
    match s.treqs.find? (fun t => t.id == i) with
    | some t => s.answer t none (tulleStatus s.openSeq 0 false h 5)
    | none => s) s
  let moved := s.treqs.filter (fun t => t.home == h && (t.state == 0 || t.state == 2))
  moved.foldl (fun (s : State) t =>
    let h2 := s.survivor (h / 64) (blockIndex t.kind t.keyed t.words)
    let s := (s.unarrive t).modReq t.id (fun t => { t with home := h2 })
    if t.state = 2 then s.putSlice h2 { s.slice h2 with arrived := (s.slice h2).arrived ++ [t.id] } else s) s

/-- The unretired launches of a rank homed on a fenced die retire with TASKFAULT; the code is open. -/
def State.failRank (s : State) (slot : Nat) : State :=
  let r := s.rank slot
  let ls := ((s.ctxAt r.ctx).queues.map (fun (e : Nat × List Launch) => (e.2.filter (fun l => !l.done)).map (fun l => (e.1, l)))).flatten
  (ls.filter (fun e => s.namesSlot r.ctx e.2 slot)).foldl (fun (s : State) e =>
    let (t, s) := s.draw
    let f : Byte := (Config.freeWord t).setWidth 8
    if e.2.started then
      (s.stopRank r.ctx e.1 e.2.serial slot).modLaunch r.ctx e.1 e.2.serial (fun l => if l.status == 8 then l else { l with status := 8, fcause := f })
    else s.endLaunch r.ctx e.1 e.2 8 f) s

/-- The cores of a unit that is fenced. -/
def unitCores : FUnit → List Nat
  | .core n => [n]
  | .crew n => upto (8 * n) 8
  | .die n => upto (128 * n) 128
  | _ => []

/-- The frames of a die's four stacks (R232). -/
def dieFrames (d : Nat) : List Nat := ((upto 0 4).map (fun k => upto ((4 * d + k) * 2 ^ 25) (Config.stackBytes / 4096))).flatten

/-- The events of the frames of a fenced die's stacks: one for each rank that maps a frame, and one for a frame that no rank maps (R343, R344). -/
def State.lostFrames (s : State) (d : Nat) : State :=
  let maps := ((s.front.ranks.filter (fun e => e.2.state.isH)).map (fun e => (s.leaves e.1).map (fun l => (e.2, l)))).flatten
  (dieFrames d).foldl (fun (s : State) f =>
    match maps.filter (fun e => decide (e.2.pa / 4096 ≤ f) && decide (f < (e.2.pa + e.2.size) / 4096)) with
    | [] => s.orphanEvent f
    | us => us.foldl (fun (s : State) e => s.cevent 2 0x08 e.1.ctx (unitWord d 4 d) (4096 * f) e.1.vrank.toNat) s) s

/-- Fences a unit (R343) and reports it (R344). A die's fence reports each rank homed on it by an event of KIND 1, which names no rank (log 22). -/
def State.fence (s : State) (u : FUnit) (control : Bool) : State :=
  let crew (s : State) (n : Nat) : State :=
    { s with crews := s.crews.put n { s.crews.at n {} with deques := [], fenced := true } }
  let s := (unitCores u).foldl (fun (s : State) k => s.fenceCore control k) s
  let s : State := match u with
    | .core _ => s
    | .slice d n => s.fenceSlice control (64 * d + n)
    | .crew n => crew s n
    | .port n => { s with mgmt := { s.mgmt with fports := s.mgmt.fports ++ [n] } }
    | .die d =>
      let s := (upto (16 * d) 16).foldl crew s
      let s := (upto (64 * d) 64).foldl (fun (s : State) h => s.fenceSlice control h) s
      let s := State.lostFrames { s with mgmt := { s.mgmt with fdies := s.mgmt.fdies ++ [d] } } d
      let homed := (s.front.ranks.filter (fun e => e.2.state != .free && e.2.homedie == d)).map (fun e => e.1)
      homed.foldl (fun (s : State) i => (s.cevent 1 0 0 (unitCode u) 0 0).failRank i) s
  s.cevent 1 0 0 (unitCode u) 0 0

/-- Whether a unit is fenced already. -/
def State.isFenced (s : State) (u : FUnit) : Bool :=
  match u with
  | .core n => (s.coreOf n).fenced
  | .slice d n => (s.slice (64 * d + n)).fenced
  | .crew n => (s.crews.at n {}).fenced
  | .port n => s.mgmt.fports.contains n
  | .die n => s.mgmt.fdies.contains n

/-- Whether a unit exists (R11). -/
def unitExists : FUnit → Bool
  | .core n => decide (n < 512)
  | .slice d n => decide (d < 4) && decide (n < 64)
  | .crew n => decide (n < 64)
  | .port n => decide (n < 24)
  | .die n => decide (n < 4)

/-- FENCE_UNIT (R326, R343): refused with NOAREA when every save area of a context that runs there is in use. -/
def execFenceUnit (c : Cmd) (u : FUnit) (s : State) : Out :=
  s.command c (fun s =>
    if !unitExists u then .now s 6 []
    else if s.isFenced u then .now s 0 []
    else if !s.areasFor (unitCores u) then .now s 4 []
    else .now (s.fence u false) 0 [])

/-- ERROR_COUNT_FENCE (R326, R343): more than 64 corrected errors within 2^30 cycles, or an uncorrectable error of the control state. A fence of the
controller's own is refused with NOAREA as an ordered one is. -/
def execErrorCountFence (u : FUnit) (count cycles : Nat) (control : Bool) (s : State) : Out :=
  let s := { s with mgmt := { s.mgmt with fenceDue := s.mgmt.fenceDue.filter (fun v => v.1 != u) } }
  .next
    (if !unitExists u || s.isFenced u || !(control || (decide (64 < count) && decide (cycles ≤ 2 ^ 30))) then s
     else if !s.areasFor (unitCores u) then s.respond s.mgmt.lastSeq 4
     else s.fence u control)

/-! Weigh (R339-R341, R374). -/

/-- WEIGH (R339, R375): every clock domain stops. Without main power there is none to stop, and in standby the answer is REFUSED (log 58). -/
def execWeigh (s : State) : Out :=
  .next (match s.mgmt.power with
    | .on => State.respond { s with mgmt := { s.mgmt with weighed := true } } 0 0
    | .standby => s.respond 0 6
    | _ => s)

/-- WEIGH_RESUME (R341, R371): after THERMTRIP not until every die reads below 95 °C. -/
def execWeighResume (s : State) : Out :=
  let hot := s.mgmt.thermtrip && s.mgmt.temps.any (fun e => decide (95 ≤ e.2))
  .next
    (if !s.mgmt.weighed then s
     else if hot then s.respond 0 6
     else State.respond { s with mgmt := { s.mgmt with weighed := false, thermtrip := false } } 0 0)

/-- MODULE_RESET (R341, R375): all state is lost. Fuses keep the rollback counter and the digest of the firmware key; what has left the module, what has
not arrived yet and the counter of the free values are not the module's. -/
def execModuleReset (s : State) : Out :=
  let r := State.reset
  let t : State := { r with
    tick := s.tick, inbox := s.inbox, outs := s.outs,
    mgmt := { r.mgmt with rollback := s.mgmt.rollback, fwKey := s.mgmt.fwKey } }
  .next (if s.mgmt.power = .off then t else t.respond 0 0)

end Sys2Proof.Machine
end

