-- ==== Sys2Proof/Machine/Mgmt.lean ====
section
/-! DEFINITION. The part in its system: records of the privileged path (R36, R53, R290, R302, R316, R326, R337, R348, R374, R375), ranks and
contexts (R376), keys, boot and attestation (R377-R379), ports, power and temperature (R371-R373), queue pairs (R381). -/

namespace Sys2Proof.Machine

/-! Writing records (CMD 0x01). A record with a nonzero reserved field breaks R5 and is REFUSED, as one that breaks a limit. -/

/-- A write that a limit allows, or REFUSED. -/
def refuseUnless (ok : Bool) (s : State) : Ans := if ok then .now s 0 [] else .now s 6 []

/-- The conditions of R198 on STKBASE and STKLIM. -/
def stackOk (base lim : Nat) : Bool := base % 64 == 0 && lim % 64 == 0 && decide (base ≤ lim)

/-- WRITE_RANK_RECORD (R53, R198). -/
def execWriteRankRecord (c : Cmd) (slot : Nat) (w : List Word64) (s : State) : Out :=
  s.command c (fun s =>
    let r := s.rank slot
    let w0 := wordAt w 0
    let ok := decide (slot < Config.slots) && r.state == .free && fld w0 51 48 == 0 && fld (wordAt w 1) 63 52 == 0 && wordAt w 7 == 0
      && fld (wordAt w 1) 51 0 % 8192 == 0 && stackOk (wordAt w 2).toNat (wordAt w 3).toNat
    let q := { r with
      written := true, ctx := fld w0 59 54, homedie := fld w0 53 52, vrank := w0.extractLsb' 32 16, job := w0.setWidth 32, ptroot := fld (wordAt w 1) 51 0,
      stkbase := wordAt w 2, stklim := wordAt w 3, stkptr := wordAt w 4, ovfhead := wordAt w 5 }
    refuseUnless ok (if ok then s.putRank slot q else s))

/-- WRITE_SCHEDULING_RECORD (R36, R326): the write that makes a weight nonzero counts as an update of the vector. -/
def execWriteSchedulingRecord (c : Cmd) (ctx : Nat) (x : List Word64) (s : State) : Out :=
  s.command c (fun s =>
    let x1 := wordAt x 1
    let x3 := wordAt x 3
    let x5 := wordAt x 5
    let x6 := wordAt x 6
    let dpb := fld x1 44 32
    let cqlog := fld x3 4 0
    let lim := fld x5 15 0
    let ok := s.front.ctxs.has ctx && fld x1 63 45 == 0 && fld x1 31 12 == 0 && fld x3 31 5 == 0 && fld x5 62 48 == 0 && fld x5 31 16 == 0
      && fld x6 63 52 == 0 && decide (1 ≤ dpb) && decide (dpb ≤ 4096) && (wordAt x 2).toNat % 32 == 0 && decide (4 ≤ cqlog) && decide (cqlog ≤ 16)
      && decide (1 ≤ lim) && decide (lim ≤ 8192) && fld x6 51 0 % 4096 == 0
    let old := s
    let s := s.modCtx ctx (fun d => { d with
      qweight := wordAt x 0, dpb := x1.extractLsb' 32 13, quantum := x1.extractLsb' 0 12, cqbase := wordAt x 2, cqrkey := x3.extractLsb' 32 32,
      cqlog := x3.extractLsb' 0 5, lostdec := d.lostdec &&& ~~~(wordAt x 4), dbgen := x5.getLsbD 63, csaslots := x5.extractLsb' 32 16,
      drainlim := x5.extractLsb' 0 16, csapool := x6.extractLsb' 0 52 })
    let s := (upto 0 8).foldl (fun (s : State) q => s.wake old ctx q) s
    if ok then .now (s.evalHeads ctx) 0 [] else .now old 6 [])

/-- Packets that a module holds for ranks of a job are discarded (R382). -/
def State.dropHeld (s : State) (ctx : Nat) (job : Word32) : State :=
  { s with front := { s.front with pkts := s.front.pkts.filter (fun p => !((p.held || p.full) && p.ctx == ctx && p.job == job)) } }

/-- Whether a rank of a job is in an H state here. -/
def State.jobInH (s : State) (ctx : Nat) (job : Word32) : Bool := (s.jobSlots ctx job).any (fun i => (s.rank i).state.isH)

/-- WRITE_JOB_RECORD (R348, R382): the RO fields stay. -/
def execWriteJobRecord (c : Cmd) (idx : Nat) (jb : List Word64) (s : State) : Out :=
  s.command c (fun s =>
    let b0 := wordAt jb 0
    let b1 := wordAt jb 1
    let b2 := wordAt jb 2
    let b3 := wordAt jb 3
    let old := s.front.jobs.at idx {}
    let v := fld b0 16 0
    let job : Word32 := b0.extractLsb' 32 32
    let ctx := fld b0 31 26
    let ok := decide (idx < 64) && !s.jobInH old.ctx old.job && !s.jobInH ctx job && fld b0 25 17 == 0 && fld b1 29 28 == 0 && fld b1 18 0 == 0
      && fld b2 63 52 == 0 && fld b3 63 52 == 0 && fld b3 31 17 == 0 && decide (1 ≤ v) && decide (v ≤ 65536) && fld b2 51 0 % 4096 == 0
    let j : Job :=
      { job := job, ctx := ctx, v := v, next := b1.extractLsb' 32 32, state := old.state, cmten := b1.getLsbD 27,
        cmtev := b1.extractLsb' 19 8, mapbase := fld b2 51 0, coord := b3.extractLsb' 32 20, caught := old.caught }
    if !ok then .now s 6 []
    else
      let s := { s with front := { s.front with jobs := s.front.jobs.put idx j } }
      let s := { s with front := { s.front with colls := s.front.colls.filter (fun k => !(k.ctx == ctx && k.job == job)) } }
      .now ((s.dropHeld old.ctx old.job).dropHeld ctx job) 0 [])

/-- WRITE_CHANNEL_ROW (R302): only while the slot is ARRIVING or FREE; the RO fields stay. -/
def execWriteChannelRow (c : Cmd) (slot n : Nat) (h : List Word64) (s : State) : Out :=
  s.command c (fun s =>
    let r := s.rank slot
    let h0 := wordAt h 0
    let bytes := fld h0 55 32
    let depth := fld h0 6 0
    let v := match s.jobOf r.ctx r.job with | some (_, j) => j.v | none => 0
    let valid := h0.getLsbD 63
    let range := bytes % 4 == 0 && decide (4 ≤ bytes) && decide (bytes ≤ 65536) && decide (1 ≤ depth) && decide (depth ≤ 64)
      && decide (fld h0 31 16 < v)
    let ok := decide (slot < Config.slots) && decide (n < 256) && (r.state == .free || r.state == .arriving) && fld h0 59 56 == 0
      && fld h0 15 7 == 0 && fld (wordAt h 2) 31 0 == 0 && wordAt h 3 == 0 && (!valid || range)
    let old := r.rows.at n {}
    let row := { old with valid := valid, fmt := h0.extractLsb' 60 3, bytes := bytes, peer := fld h0 31 16, depth := depth }
    refuseUnless ok (if ok then s.putRank slot { r with rows := r.rows.put n row } else s))

/-- WRITE_TULLE_REGION (R290). -/
def execWriteTulleRegion (c : Cmd) (ctx handle : Nat) (u : Word64) (s : State) : Out :=
  s.command c (fun s =>
    let ok := s.front.ctxs.has ctx && decide (handle < 1024) && fld u 60 32 == 0 && (!u.getLsbD 63 || fld u 31 0 != 0)
    refuseUnless ok (if ok then s.modCtx ctx (fun d => { d with tulle := d.tulle.set handle u }) else s))

/-- WRITE_STREAM_REGISTER (R316): J0, J1 and J2 of a handle of a rank. -/
def execWriteStreamRegister (c : Cmd) (slot handle : Nat) (j : List Word64) (s : State) : Out :=
  s.command c (fun s =>
    let r := s.rank slot
    let ok := decide (slot < Config.slots) && decide (handle < 64) && fld (wordAt j 2) 62 32 == 0
    let regs := r.calico.puts [(3 * handle, wordAt j 0), (3 * handle + 1, wordAt j 1), (3 * handle + 2, wordAt j 2)]
    refuseUnless ok (if ok then s.putRank slot { r with calico := regs } else s))

/-- WRITE_DEBUG_COMPARATOR (R337). -/
def execWriteDebugComparator (c : Cmd) (ctx idx : Nat) (w : Word64) (s : State) : Out :=
  s.command c (fun s =>
    let ok := s.front.ctxs.has ctx && decide (idx < 4) && fld w 60 56 == 0 && fld w 1 0 == 0
    refuseUnless ok (if ok then s.modCtx ctx (fun d => { d with dbg := d.dbg.set idx w }) else s))

/-! Reading records (CMD 0x02). A record that does not exist is REFUSED. -/

/-- The code of a residency state (R54). -/
def RState.code : RState → Nat
  | .free => 0
  | .active => 1
  | .evicting => 2
  | .cold => 3
  | .recalling => 4
  | .departing => 5
  | .arriving => 6

/-- W0 to W7 of a rank-table record (R53). -/
def Rank.words (r : Rank) : List Word64 :=
  [BitVec.ofNat 64 (r.state.code * 2 ^ 60 + r.ctx % 64 * 2 ^ 54 + r.homedie % 4 * 2 ^ 52 + r.vrank.toNat * 2 ^ 32 + r.job.toNat),
   BitVec.ofNat 64 r.ptroot, r.stkbase, r.stklim, r.stkptr, r.ovfhead, r.image, 0]

/-- An answer to a read. -/
def readIf (ok : Bool) (s : State) (w : List Word64) : Ans := if ok then .now s 0 w else .now s 6 []

/-- READ_RANK_RECORD (R53). -/
def execReadRankRecord (c : Cmd) (slot : Nat) (s : State) : Out :=
  s.command c (fun s => readIf (decide (slot < Config.slots)) s (s.rank slot).words)

/-- READ_SCHEDULING_RECORD (R36, R326). -/
def execReadSchedulingRecord (c : Cmd) (ctx : Nat) (s : State) : Out :=
  s.command c (fun s =>
    let x := s.ctxAt ctx
    let n (v : Nat) : Word64 := BitVec.ofNat 64 v
    readIf (s.front.ctxs.has ctx) s
      [x.qweight, n (x.dpb.toNat * 2 ^ 32 + x.quantum.toNat), x.cqbase, n (x.cqrkey.toNat * 2 ^ 32 + x.cqlog.toNat), x.lostdec,
       n ((if x.dbgen then 2 ^ 63 else 0) + x.csaslots.toNat * 2 ^ 32 + x.drainlim.toNat), n x.csapool.toNat])

/-- The code of a job's state (R348). -/
def JState.code : JState → Nat
  | .committed => 0
  | .running => 1
  | .caught => 2

/-- READ_JOB_RECORD (R348). -/
def execReadJobRecord (c : Cmd) (idx : Nat) (s : State) : Out :=
  s.command c (fun s =>
    let j := s.front.jobs.at idx {}
    let n (v : Nat) : Word64 := BitVec.ofNat 64 v
    readIf (decide (idx < 64)) s
      [n (j.job.toNat * 2 ^ 32 + j.ctx % 64 * 2 ^ 26 + j.v % 2 ^ 17),
       n (j.next.toNat * 2 ^ 32 + j.state.code * 2 ^ 30 + (if j.cmten then 2 ^ 27 else 0) + j.cmtev.toNat * 2 ^ 19), n j.mapbase,
       n (j.coord.toNat * 2 ^ 32 + j.caught % 2 ^ 17)])

/-- H0 to H3 of a channel row (R302). -/
def Row.words (x : Row) : List Word64 :=
  let b (v : Nat) : Word64 := BitVec.ofNat 64 v
  [b ((if x.valid then 2 ^ 63 else 0) + x.fmt.toNat * 2 ^ 60 + x.bytes * 2 ^ 32 + x.peer * 2 ^ 16 + x.depth),
   b (x.sseq.toNat * 2 ^ 32 + x.rseq.toNat), b (x.ackseq.toNat * 2 ^ 32), 0]

/-- READ_CHANNEL_ROW (R302). -/
def execReadChannelRow (c : Cmd) (slot n : Nat) (s : State) : Out :=
  s.command c (fun s =>
    readIf (decide (slot < Config.slots) && decide (n < 256)) s ((s.rank slot).rows.at n {}).words)

/-- READ_TULLE_REGION (R290). -/
def execReadTulleRegion (c : Cmd) (ctx handle : Nat) (s : State) : Out :=
  s.command c (fun s => readIf (s.front.ctxs.has ctx && decide (handle < 1024)) s [(s.ctxAt ctx).tulle.get handle])

/-- READ_STREAM_REGISTER (R316). -/
def execReadStreamRegister (c : Cmd) (slot handle : Nat) (s : State) : Out :=
  s.command c (fun s =>
    let r := (s.rank slot).calico
    readIf (decide (slot < Config.slots) && decide (handle < 64)) s [r.get (3 * handle), r.get (3 * handle + 1), r.get (3 * handle + 2)])

/-- READ_DEBUG_COMPARATOR (R337). -/
def execReadDebugComparator (c : Cmd) (ctx idx : Nat) (s : State) : Out :=
  s.command c (fun s => readIf (s.front.ctxs.has ctx && decide (idx < 4)) s [(s.ctxAt ctx).dbg.get idx])

/-! Ranks and contexts (R376). -/

/-- Whether a record may be installed (R14, R53, R55, R198, R348, R376). -/
def State.mayInstall (s : State) (slot : Nat) : Bool :=
  let r := s.rank slot
  let b := r.stkbase.toNat
  let p := r.stkptr.toNat
  decide (slot < Config.slots) && r.state == .free && decide (s.inH < 64) && s.front.ctxs.has r.ctx
    && (match s.jobOf r.ctx r.job with | some (_, j) => decide (r.vrank.toNat < j.v) | none => false)
    && r.ptroot % 8192 == 0 && stackOk b r.stklim.toNat && decide (b ≤ p) && decide (p ≤ r.stklim.toNat) && (p - b) % 272 == 0
    && r.written && !s.front.ranks.any (fun e => e.1 != slot && e.2.state != .free && e.2.job == r.job && e.2.vrank == r.vrank)

/-- INSTALL_RANK (R56, R376): the bring-up of its context has reached its end with the first (R379), and its queues may now contend (R49). -/
def execInstallRank (c : Cmd) (m1 : Word64) (s : State) : Out :=
  s.command c (fun s =>
    let slot := fld m1 10 0
    if fld m1 63 11 ≠ 0 then .bad
    else if !s.mayInstall slot then .now s 6 []
    else
      let c := (s.rank slot).ctx
      .now ((((s.shoot slot 0 0).putRank slot { s.rank slot with state := .active }).modCtx c (fun x => { x with up := true })).wakeAll s) 0 [])

/-- REMOVE_RANK (R376): its frames or LP6 space return to the context, and STATE := FREE; the private tuples of the slot go with it (log 64). A rank with a
migration order stays (R355). -/
def execRemoveRank (c : Cmd) (m1 : Word64) (s : State) : Out :=
  s.command c (fun s =>
    let slot := fld m1 10 0
    let r := s.rank slot
    if fld m1 63 11 ≠ 0 then .bad
    else if !(r.state == .active || r.state == .cold) || s.named slot || !r.waiting.isEmpty || s.front.migrs.any (fun m => m.slot == slot) then .now s 2 []
    else
      let s := if r.state = .active then s.giveBack r.ctx (s.rankFrames slot) else s
      let s := s.unpinSlot slot
      let s := s.dropTuples ((s.slices.map (fun e => e.2.tuples.filter (fun u => u.ctx == r.ctx && u.job.isNone && u.slot == slot))).flatten)
      let s := { s with front := { s.front with images := s.front.images.filter (fun g => g.slot != slot) } }
      .now ((s.putRank slot r.freed).reportCaught r.ctx r.job) 0 [])

/-- The frames of a pool list in hypervisor memory (R376): a word at an address that no stack holds names none (R232). -/
def State.poolList (s : State) (base n : Nat) : List Nat :=
  (((upto 0 n).filter (fun i => hbmExists (base + 8 * i))).map (fun i => leNat (s.mem.hbm.bytes 8 (base + 8 * i)))).eraseDups

/-- An agent's access to a range of its own ends in the error of R232 where no stack holds a part of it. -/
def State.agentRange (s : State) (base n : Nat) : State :=
  if n = 0 || hbmExists base && hbmExists (base + n - 1) then s else s.badAgent (if hbmExists base then base + n - 1 else base)

/-- CREATE_CONTEXT (R49, R376): reset values, virtual times 0, versions 0, everything else clear, the context's stream handles among it. -/
def execCreateContext (c : Cmd) (m1 m2 m3 m4 : Word64) (s : State) : Out :=
  s.command c (fun s =>
    let ctx := fld m1 5 0
    let n := fld m4 31 0
    if !m1.getLsbD 63 || fld m1 62 6 ≠ 0 || fld m4 63 32 ≠ 0 then .bad
    else if s.front.ctxs.has ctx then .now s 2 []
    else if m2.toNat % 4096 ≠ 0 then .now s 6 []
    else
      let x : Ctx := { verbase := m2.toNat, poolbase := m3.toNat, pooln := n, pool := s.poolList m3.toNat n }
      let s := (s.agentRange m2.toNat (2 ^ 26)).agentRange m3.toNat (8 * n)
      let clear (e : Nat × Rank) : Nat × Rank := if e.2.ctx = ctx then (e.1, { e.2 with calico := [] }) else e
      let s := { s with front := { s.front with ranks := s.front.ranks.map clear } }
      .now (State.putCtx { s with mem := { s.mem with hbm := s.mem.hbm.zero m2.toNat (2 ^ 26) } } ctx x) 0 [])

/-- DESTROY_CONTEXT (R376, R381): its keys are erased and its queue pairs are in error. -/
def execDestroyContext (c : Cmd) (m1 : Word64) (s : State) : Out :=
  s.command c (fun s =>
    let ctx := fld m1 5 0
    if m1.getLsbD 63 || fld m1 62 6 ≠ 0 then .bad
    else if s.front.ctxs.has ctx && s.front.ranks.any (fun e => e.2.state != .free && e.2.ctx == ctx) then .now s 2 []
    else .now { s with front := { s.front with ctxs := s.front.ctxs.del ctx } } 0 [])

/-- READ_AND_CLEAR_COUNTER (R376). -/
def execReadAndClearCounter (c : Cmd) (m1 : Word64) (s : State) : Out :=
  s.command c (fun s =>
    let ctx := fld m1 5 0
    let x := s.ctxAt ctx
    if fld m1 63 16 ≠ 0 || fld m1 7 6 ≠ 0 then .bad
    else if !s.front.ctxs.has ctx then .now s 6 []
    else
      match fld m1 15 8 with
      | 1 => .now (s.putCtx ctx { x with heatdrop := 0 }) 0 [x.heatdrop]
      | 2 => .now (s.putCtx ctx { x with heatspill := 0 }) 0 [x.heatspill]
      | 3 => .now (s.putCtx ctx { x with lostdec := 0 }) 0 [x.lostdec]
      | _ => .now s 6 [])

/-- Offset and bytes of every row of R333, in table order. -/
def saveLayout : List (Nat × Nat) :=
  [(0x0000, 64), (0x0040, 256), (0x0140, 64), (0x0180, 64), (0x01C0, 64), (0x0200, 1024), (0x0600, 256), (0x0700, 512), (0x0900, 2048),
   (0x1100, 512), (0x1300, 512), (0x1500, 512), (0x1700, 2048), (0x1F00, 256), (0x2000, 16384), (0x6000, 131072), (0x26000, 131072),
   (0x46000, 1048576), (0x146000, 32768)]

/-- Bytes as 64-bit words, the last filled up with zeros. -/
def packWords (l : List Byte) : List Word64 := words64 (l ++ List.replicate ((8 - l.length % 8) % 8) 0)

/-- READ_SAVE_AREA_DESCRIPTOR (R333, R376): CSASIZE, the header template, and the 19 pairs. -/
def execReadSaveAreaDescriptor (c : Cmd) (s : State) : Out :=
  s.command c (fun s =>
    let pairs := (saveLayout.map (fun e => leBytes e.1 4 ++ leBytes e.2 4)).flatten
    .now s 0 (packWords (leBytes Config.csasize 4 ++ wordBytes (saveHeader 0 0 0 Config.csasize false false) ++ pairs)))

/-- The codes of R375: of the privileged path, and of management. -/
def knownCode (c : CmdCode) : Bool :=
  if c.bus then decide (0x10 ≤ c.code.toNat) && decide (c.code.toNat ≤ 0x14) else decide (1 ≤ c.code.toNat) && decide (c.code.toNat ≤ 0x0F)

/-- UNKNOWN_COMMAND (R374, R375): a code that the path does not serve, a bad signature, a stale SEQ or a reserved bit is answered BADCMD. A management bus
carries neither signature nor SEQ, and in recovery serves nothing else (R377). -/
def execUnknownCommand (c : Cmd) (code : CmdCode) (s : State) : Out :=
  if code.bus then .next (if s.mgmt.power = .off || s.mgmt.power = .recovery || knownCode code then s else s.respond c.seq 1)
  else s.command c (fun s => if knownCode code then .later s else .bad)

/-- INSTALL_CONTEXT_KEYS (R378): the key pair of a context, unwrapped; a blob that does not unwrap is REFUSED (log 8). -/
def execInstallContextKeys (c : Cmd) (ctx : Nat) (blob : List Word64) (s : State) : Out :=
  s.command c (fun s =>
    match Config.unwrapKeys blob ctx with
    | some k => refuseUnless (s.front.ctxs.has ctx) (if s.front.ctxs.has ctx then s.modCtx ctx (fun d => { d with keys := some k }) else s)
    | none => .now s 6 [])

/-- A queue pair is connected anew: its port is one of those with a link, which one is open, and it is in no error state (R373, log 25). -/
def Ctx.bindPair (x : Ctx) (queue : Nat) (ports : List Nat) (pick : Nat) : Ctx :=
  { x with
    qps := if x.qps.contains queue then x.qps else x.qps ++ [queue], qpErr := x.qpErr.filter (fun q => q != queue),
    qpPort := match ports[pick % ports.length]? with | some p => x.qpPort.put queue p | none => x.qpPort.del queue }

/-- QUEUE_PAIR_BIND (R373, R381): to a queue of a context that exists. -/
def execQueuePairBind (c : Cmd) (ctx queue : Nat) (s : State) : Out :=
  s.command c (fun s =>
    let ok := s.front.ctxs.has ctx && decide (queue < 8)
    let x := (s.ctxAt ctx).bindPair queue (s.mgmt.eth.map (fun e => e.1)) (Config.freeSched s.tick)
    refuseUnless ok (if ok then s.putCtx ctx x else s))

/-- POISON_FILTER_REMOVE (R69): the hypervisor has remapped every user of the frame. -/
def execPoisonFilterRemove (c : Cmd) (die frame : Nat) (s : State) : Out :=
  s.command c (fun s =>
    .now { s with mem := { s.mem with poison := s.mem.poison.filter (fun f => !(f == frame && paDie (f * 4096) == die)) } } 0 [])

/-! Boot, identity and attestation (R377-R379). -/

/-- The part of an image that the signature covers; its serial form is the model's choice (log 8). -/
def fwBytes (f : FwImage) : List Byte := f.code ++ leBytes f.version 8 ++ f.hvKey ++ [if f.debug then 1 else 0]

/-- Whether secure boot accepts an image with the firmware key and the Ed448 signature that come with it (R377). -/
def Mgmt.verifies (g : Mgmt) (f : FwImage) (key sig : List Byte) : Bool :=
  Config.shake256 key == g.fwKey && Config.ed448Verify key (Config.shake256 (fwBytes f)) sig && decide (g.rollback ≤ f.version)

/-- STANDBY_POWER_ON (R377): secure boot, or recovery. -/
def execStandbyPowerOn (f : FwImage) (key sig : List Byte) (s : State) : Out :=
  let g := s.mgmt
  .next
    (if g.power ≠ .off then s
     else if g.verifies f key sig then
       { s with mgmt := { g with
           power := .standby, fwver := f.version, dbgReadout := f.debug, fwHash := Config.shake256 (fwBytes f), hvKey := f.hvKey } }
     else { s with mgmt := { g with power := .recovery } })

/-- A scope table (R263): a write that does not keep 4 ≤ L4 ≤ L5 ≤ L6 ≤ 0xFE is refused. -/
def scopeWord (l4 l5 l6 : Byte) : Word64 :=
  if decide (4 ≤ l4.toNat) && decide (l4.toNat ≤ l5.toNat) && decide (l5.toNat ≤ l6.toNat) && decide (l6.toNat ≤ 0xFE) then
    0xFF#8 ++ l6 ++ l5 ++ l4 ++ 0x03020100#32
  else 0xFF06050403020100

/-- MAIN_POWER_ON (R263, R379 steps 2 to 4): clocks lock at 800 MHz, memories are zeroed, scope tables are written. -/
def execMainPowerOn (l4 l5 l6 : Byte) (s : State) : Out :=
  .next
    (if s.mgmt.power ≠ .standby then s
     else
       let s := s.unfocus
       let w := scopeWord l4 l5 l6
       { s with
         mgmt := { s.mgmt with power := .on, clock := 800 }, mem := {}, core := { scope := w }, curKey := 0,
         cores := (upto 1 511).map (fun k => (k, { s.cores.at k {} with scope := w })) })

/-- The part of an attestation report that the identity key signs (R378). -/
def Mgmt.report (g : Mgmt) (nonce : List Word64) : List Byte :=
  wordBytes ((upto 0 8).map (wordAt nonce)) ++ (upto 0 64).map (fun i => g.fwHash.getD i 0)
    ++ leBytes (Config.packBoot g.rollback g.dbgReadout).toNat 8 ++ (upto 0 56).map Config.x448Public

/-- ATTESTATION_REQUEST (R378, R379): the report and its signature. -/
def execAttestationRequest (nonce : List Word64) (s : State) : Out :=
  let b := s.mgmt.report nonce
  .next
    (if s.mgmt.power = .off || s.mgmt.power = .recovery then s
     else State.respond { s with mgmt := { s.mgmt with attested := true } } 0 0 (packWords (b ++ (upto 0 114).map (Config.ed448Sign b))))

/-! Ports (R373). -/

/-- FINSER_LINK_TRAINING (R373). -/
def execFinserLinkTraining (port gen : Nat) (node : BitVec 20) (s : State) : Out :=
  let g := s.mgmt
  .next (if g.power = .on && decide (port < 24) && (gen == 2 || gen == 3) then { s with mgmt := { g with links := g.links.put port gen, node := node } } else s)

/-- The queue pairs of a port whose link is down are in the error state (R373). -/
def Ctx.losePort (x : Ctx) (port : Nat) : Ctx :=
  { x with qpErr := x.qpErr ++ x.qps.filter (fun q => x.qpPort.find q == some port && !x.qpErr.contains q) }

/-- ETHERNET_LINK_CHANGE (R373): a negotiated rate, or the link is down, and the port's queue pairs are in error. Accepted launches are unaffected. -/
def execEthernetLinkChange (port : Nat) (rate : Option Nat) (s : State) : Out :=
  let g := s.mgmt
  .next
    (if g.power ≠ .on || 4 ≤ port then s
     else match rate with
      | none => { s with
          mgmt := { g with eth := g.eth.del port },
          front := { s.front with ctxs := s.front.ctxs.map (fun (e : Nat × Ctx) => (e.1, e.2.losePort port)) } }
      | some r => if r = 800 || r = 400 || r = 200 then { s with mgmt := { g with eth := g.eth.put port r } } else s)

/-! Power and temperature (R371, R372, R375). -/

/-- THERMAL_REPORT (R371): at 115 °C a weigh and THERMTRIP. -/
def execThermalReport (die : Nat) (celsius : Int) (s : State) : Out :=
  let g := { s.mgmt with temps := s.mgmt.temps.put die celsius }
  .next
    (if s.mgmt.power ≠ .on then s
     else if 115 ≤ celsius then { s with mgmt := { g with thermtrip := true, weighed := true } }
     else { s with mgmt := g })

/-- POWER_WINDOW (R372): 25 MHz down, to 400, when the window exceeds PLIMIT or a die is at 105 °C; else 25 MHz up, to 800. -/
def execPowerWindow (watts : Nat) (s : State) : Out :=
  let g := s.mgmt
  let down := decide (g.plimit < watts) || g.temps.any (fun e => decide (105 ≤ e.2))
  .next
    (if g.power ≠ .on then s
     else { s with mgmt := { g with clock := if down then max 400 (g.clock - 25) else min 800 (g.clock + 25) } })

/-- SET_PLIMIT (R372, R375). -/
def execSetPlimit (watts : Nat) (s : State) : Out :=
  .next
    (if s.mgmt.power = .recovery || s.mgmt.power = .off then s
     else if 1500 ≤ watts && watts ≤ 4400 then State.respond { s with mgmt := { s.mgmt with plimit := watts } } 0 0
     else s.respond 0 6)

/-- READ_TELEMETRY (R375, R377): whether the module is in recovery, and data whose form the spec leaves open. -/
def execReadTelemetry (s : State) : Out :=
  .next (if s.mgmt.power = .off then s else s.respond 0 0 [if s.mgmt.power = .recovery then 1 else 0, Config.freeWord s.tick])

end Sys2Proof.Machine
end

