-- ==== Sys2Proof/Machine/Readout.lean ====
section
/-! DEFINITION. What is read of the machine from outside: the debugger's view of a halted stream (R338) and the scan port's readout of a weighed
module (R340). -/

namespace Sys2Proof.Machine

/-! The debugger's view (R338). -/

/-- What the debugger may read of a halted stream. -/
structure DebugView where
  s : List Word64 := []
  p : BitVec 16 := 0
  l : List (BitVec 12) := []
  c : List Word32 := []
  z : List Word32 := []
  q : List Word64 := []
  sys : List Word64 := []
  /-- cells of the granted tiles, by own tile × 4,096 + cell -/
  mrf : Cells 32 := []
  /-- each entry of the engine queue: its descriptor, and whether it has started -/
  queue : List (List Word64 × Bool) := []
  /-- its calls, MZEROs and MTRANs, and whether each runs or is queued (R230) -/
  calls : List (CallKind × Bool) := []
  /-- full words of the task's granules, by granule × 16,384 + word; received granule i counts as 16 + i -/
  fe : Cells 1 := []
  /-- streams that wait on one of those words: key, the word's address, the wait kind; and matrix units that do: core -/
  waits : List (Nat × Word64 × Nat) := []
  engines : List (Nat × Word64 × Nat) := []
  /-- parked requests: home slice, pattern address, result address, position in the slice's arrival order; where one parked on another module stands there is
  open -/
  tulle : List (Nat × Nat × Nat × Nat) := []
  deriving DecidableEq, Repr

/-- The word on which a stream waits, if it waits on one in a granule of a core (R278). -/
def waitsOn (grans : List Nat) (e : Nat × Stream) : Option (Nat × Word64 × Nat) :=
  match e.2.mark with
  | .stalled _ (some t) _ =>
    let kind := fld t.info 7 0
    let mine := match e.2.winPieces (e.1 / 2) t.addr.toNat 4 .load with
      | .ok ps => (winKeys ps).any (fun k => grans.contains (k.1 / 65536))
      | .error _ => false
    if t.cause = 0x09 && decide (0x50 ≤ kind) && decide (kind ≤ 0x52) && mine then some (e.1, t.addr, kind) else none
  | _ => none

/-- The wait of a core's matrix unit on a ring slot in one of some granules: the slot's address and the wait kind (R221, R223, R224, R244). -/
def State.unitWait (s : State) (grans : List Nat) (core : Nat) : Option (Nat × Word64 × Nat) :=
  let t := s.focus (2 * core)
  match t.runCall with
  | none => none
  | some c =>
    match t.stream c.key with
    | none => none
    | some x =>
      let full (n : BitVec 4) : Option Nat := (x.rings.find n.toNat).bind (fun r => if r.count ≤ r.filled then some r.headAddr else none)
      let addr := match decodeMicro (t.microWord c) with
        | some (.waitring n k) => (x.rings.find n.toNat).bind (fun r => if r.filled < k.toNat then some r.tailAddr else none)
        | some (.cvtout n _ _ _) => full n
        | some (.macg ra rb _ _ g _) => if c.fetched then none else full (if g then rb else ra)
        | _ => none
      addr.bind (fun a =>
        match x.winPieces core a 4 .load with
        | .ok ps => if (winKeys ps).any (fun k => grans.contains (k.1 / 65536)) then some (core, BitVec.ofNat 64 a, 0x52) else none
        | .error _ => none)

/-- The view of a stream that stands halted under a debugger; none of any other. -/
def State.debugView (s : State) (key : Nat) : Option DebugView :=
  match s.stream key with
  | none => none
  | some x =>
    if !(s.debugged x && x.halted) then none
    else
      let core := key / 2
      let grans := x.lgran.map (fun g => core * 16 + g.2) ++ x.recv.map (fun (r : Nat × Recv) => r.2.core * 16 + r.2.gran)
      let place (t : TReq) : Nat × Nat := if t.state = 1 then (t.home, (s.slice t.home).parked.idxOf t.id)
        else (Config.freeSched (s.tick + 2 * t.id) % 256, Config.freeSched (s.tick + 2 * t.id + 1))
      some {
        s := (upto 0 32).map x.s.get, p := x.p, l := (upto 0 4).map x.l.get, c := (upto 0 16).map x.c.get, z := (upto 0 256).map x.z.get,
        q := (upto 0 8).map x.q.get, sys := sysRegs.map (s.readSys x), mrf := (s.savedPart key x).1,
        queue := (s.ops.filter (fun o => o.key == key && o.queued)).map (fun o => (o.descriptor, o.started)),
        calls := ((s.coreOf core).calls.filter (fun c => c.key == key)).map (fun c => (c.kind, c.running)),
        fe := s.granBits core x.lgran ++ (x.recv.map (fun (r : Nat × Recv) => s.granBits r.2.core [(16 + r.1, r.2.gran)])).flatten,
        waits := s.allStreams.filterMap (waitsOn grans), engines := (upto 0 512).filterMap (s.unitWait grans),
        tulle := (s.treqs.filter (fun t => t.key == key && (t.state == 1 || t.state == 6))).map (fun t =>
          let (home, at') := place t; (home, t.pat, t.res, at')) }

/-! The scan port (R340). The spec gives the segments, their order and header; the serial form of their contents is the model's choice (log 53). -/

/-- A number as a word. -/
def w64 (n : Nat) : Word64 := BitVec.ofNat 64 n

/-- A table of values as words: each key and its value. -/
def cellWords {w : Nat} (l : Cells w) : List Word64 := (l.map (fun e => [w64 e.1, e.2.setWidth 64])).flatten

/-- A TLB entry. -/
def Tlb.words (e : Tlb) : List Word64 := [w64 e.slot, w64 e.vbase, w64 e.size, w64 e.pa, w64 e.hcore]

/-- Segment 1: the fence map, and the units whose fence is due. An event is sent when it arises, so none is pending. -/
def State.scanModule (s : State) : List Word64 :=
  ((s.allCores.filter (fun e => e.2.fenced)).map (fun e => w64 (unitCode (.core e.1))))
    ++ ((s.crews.filter (fun e => e.2.fenced)).map (fun e => w64 (unitCode (.crew e.1))))
    ++ ((s.slices.filter (fun e => e.2.fenced)).map (fun e => w64 (unitCode (.slice (e.1 / 64) (e.1 % 64)))))
    ++ s.mgmt.fports.map (fun n => w64 (unitCode (.port n))) ++ s.mgmt.fdies.map (fun n => w64 (unitCode (.die n)))
    ++ s.mgmt.fenceDue.map (fun u => w64 (unitCode u.1))

/-- Segment 2: queues, event vectors, rank table, channel tables. -/
def State.scanFront (s : State) : List Word64 :=
  (s.front.ctxs.map (fun e =>
    [w64 e.1] ++ (upto 0 4).map (fun i => e.2.ev.extractLsb' (64 * i) 64)
      ++ (e.2.queues.map (fun q => (q.2.map (fun l => w64 (q.1 * 128 + l.serial) :: l.d)).flatten)).flatten)).flatten
    ++ (s.front.ranks.map (fun e => w64 e.1 :: (e.2.words ++ (e.2.rows.map (fun h => w64 h.1 :: h.2.words)).flatten))).flatten

/-- Segment 3: predecessor counts and ready sets. -/
def State.scanAgents (s : State) : List Word64 :=
  (s.queues.map (fun e =>
    (((s.ctxAt e.1).queues.at e.2 []).map (fun l => (l.ranks.map (fun r =>
      [w64 l.serial, w64 r.slot] ++ (r.decs.map (fun d => [w64 d.1, w64 d.2])).flatten)).flatten)).flatten
    ++ (s.startable e.1 e.2).map (fun t => w64 t.2.2.1))).flatten

/-- A truth value as a number. -/
def bit (b : Bool) : Nat := if b then 1 else 0

/-- A system register's place in the order of R104. -/
def sysCode (r : SysReg) : Nat := sysRegs.idxOf r

/-- A target of EVTEST or of a read of a system register: scalar register, or 32 and a predicate's number. -/
def dstCode : Dst → Nat
  | .reg r => r.toNat
  | .pred p => 32 + p.toNat

/-- A result that has not landed. -/
def Tgt.words : Tgt → List Word64
  | .flagsOnly => [0]
  | .s r v => [1, w64 r, v]
  | .p r v => [2, w64 r, w64 (bit v)]
  | .l r v => [3, w64 r, v.setWidth 64]
  | .c r v => [4, w64 r, v.setWidth 64]
  | .z r vs => [5, w64 r] ++ vs.map (fun v => v.setWidth 64)
  | .ze r e v => [6, w64 r, w64 e, v.setWidth 64]
  | .q r v => [7, w64 r, v]
  | .cells cs => [8] ++ (cs.map (fun e => [w64 e.1, e.2.setWidth 64])).flatten
  | .sys r v => [9, w64 (sysCode r), v]
  | .srd d r => [10, w64 d.toNat, w64 (sysCode r)]
  | .ev d x i => [11, w64 (dstCode d), w64 x, w64 i]
  | .evTake d x i => [12, w64 (dstCode d), w64 x, w64 i]
  | .flagClr m => [13, m.setWidth 64]
  | .flagSet m => [14, m.setWidth 64]
  | .loop lc ec rrb ps => [15, w64 (bit lc.isSome), (lc.getD 0).setWidth 64, (ec.getD 0).setWidth 64, rrb.setWidth 64, ps.setWidth 64]
  | .loopset lc ec => [16, lc.setWidth 64, ec.setWidth 64]

/-- The results and traps that a stream has pending. -/
def Stream.scanPending (x : Stream) : List Word64 :=
  (x.land.map (fun l => [w64 l.due, w64 l.rank, w64 l.pos, l.flags.setWidth 64] ++ l.tgt.words)).flatten
    ++ (x.pend.map (fun p => [w64 p.id, w64 p.pos, p.flags.setWidth 64] ++ (p.tgts.map Tgt.words).flatten
      ++ (p.dram.map (fun d => [w64 d.pa, w64 (2 * d.stage + bit d.lat)])).flatten
      ++ (match p.rd with | some r => (r.parts.map (fun q => [w64 q.va, w64 q.pa, w64 q.n])).flatten | none => []))).flatten
    ++ (x.async.map TrapRec.entry).flatten ++ (match x.btrap with | some t => t.entry | none => [])

/-- A stream's part of segment 4: its task, what it is doing, its registers, its pending results and traps, its rings, load blocks, granules, code lines,
hold and window. -/
def State.scanStream (s : State) (e : Nat × Stream) : List Word64 :=
  let x := e.2
  let modes := bit x.handler + 2 * bit x.halted + 4 * bit x.haltReq + 8 * bit x.stopped + 16 * bit x.winHeld + 32 * bit x.stepOne + 64 * bit x.flushing
    + 128 * bit x.sl + 256 * bit x.det + 512 * bit x.tiles4 + 1024 * bit x.pair + 2048 * bit x.compat
  [w64 e.1, x.pc, x.p.setWidth 64, w64 x.slot, w64 x.queue, w64 x.serial, w64 x.task, w64 modes, w64 x.ending, w64 x.winAgent, w64 x.pre, w64 x.waitCyc]
    ++ cellWords x.s ++ cellWords x.l ++ cellWords x.c ++ cellWords x.z ++ cellWords x.q
    ++ sysRegs.map (s.readSys x) ++ x.scanPending
    ++ (x.rings.map (fun r => w64 r.1 :: r.2.entry)).flatten ++ (x.blks.map (fun b => w64 b.1 :: b.2.entry)).flatten
    ++ (x.lgran.map (fun g => [w64 g.1, w64 g.2])).flatten
    ++ (x.recv.map (fun (r : Nat × Recv) => [w64 r.1, w64 r.2.core, w64 r.2.gran, w64 r.2.giver])).flatten
    ++ (x.code.map (fun c => w64 c.1 :: c.2.map (fun w => w.setWidth 64))).flatten
    ++ (match x.hold with | some h => [h.mask.setWidth 64, w64 h.left, w64 h.stalls] | none => [])
    ++ (x.win.map (fun r => packWords r.bytes)).flatten

/-- A call as a core holds it. -/
def Call.words (c : Call) : List Word64 :=
  let kind := match c.kind with | .routine n => n | .mzero => 256 | .mtran => 257
  [w64 c.key, w64 kind, w64 (bit c.running), w64 c.upc, w64 c.acc, w64 c.cycles, c.flags.setWidth 64] ++ c.mask.map w64 ++ c.tiles.map w64
    ++ cellWords c.loops ++ cellWords c.q ++ cellWords c.c ++ cellWords c.z

/-- A pinned line. -/
def PinLine.words (p : PinLine) : List Word64 :=
  [w64 p.gran, w64 p.slot, w64 p.va, p.dirty.extractLsb' 0 64, p.dirty.extractLsb' 64 64] ++ packWords p.bytes

/-- Segment 4: cores. -/
def State.scanCores (s : State) : List Word64 :=
  (s.allStreams.map s.scanStream).flatten
    ++ (s.allCores.map (fun e => w64 e.1 :: (cellWords e.2.mrf ++ cellWords e.2.store ++ (e.2.tlb.map Tlb.words).flatten
      ++ (e.2.calls.map Call.words).flatten ++ cellWords e.2.done ++ (e.2.pins.map (fun p => w64 p.1 :: p.2.words)).flatten))).flatten
    ++ cellWords s.mem.spad ++ cellWords s.mem.fe

/-- Segment 5: crews. -/
def State.scanCrews (s : State) : List Word64 :=
  (s.crews.map (fun e =>
    w64 e.1 :: ((e.2.deques.map (fun d => [w64 d.1, w64 d.2.n, w64 d.2.bottom, w64 d.2.top] ++ cellWords d.2.elems)).flatten
      ++ (e.2.tlb.map Tlb.words).flatten))).flatten
    ++ ((s.ops.filter (fun o => o.queued)).map (fun o => o.queueEntry)).flatten

/-- A Tulle request. -/
def TReq.scan (t : TReq) : List Word64 :=
  [w64 t.id, w64 t.key, w64 t.slot, w64 t.state, w64 t.pat] ++ t.entry ++ t.words

/-- Segment 6: L2 slices. A slice may hold any line that has been written, so the data are those of every such line. -/
def State.scanSlices (s : State) : List Word64 :=
  (s.mem.lclk.map (fun e => w64 e.1 :: packWords (s.mem.hbm.bytes 128 (e.1 * 128)))).flatten
    ++ (s.mem.pins.map (fun p => [w64 p.1, w64 p.2.1, w64 p.2.2])).flatten
    ++ (s.mem.reps.map (fun e => w64 e.1 :: packWords e.2)).flatten
    ++ (s.mem.tags.map (fun e => [w64 e.1, e.2.mask.extractLsb' 0 64, e.2.mask.extractLsb' 64 64] ++ cellWords e.2.wids)).flatten
    ++ (s.slices.map (fun e => [w64 e.1, e.2.seq.setWidth 64] ++ (e.2.tuples.map (fun u => [w64 u.slot, w64 u.handle, u.seq.setWidth 64] ++ u.f)).flatten
        ++ ((e.2.arrived ++ e.2.parked).filterMap (fun i => (s.treqs.find? (fun t => t.id == i)).map TReq.scan)).flatten)).flatten

/-- Segment 7: collective engines and base-die command units; the key registers of the security block read as zero. -/
def State.scanEngines (s : State) : List Word64 :=
  (s.front.colls.map (fun c => [w64 c.ctx, c.job.setWidth 64, c.d.cid.setWidth 64]
      ++ (c.nodes.map (fun n => [w64 n.level, w64 n.index] ++ n.vals.map (fun v => v.setWidth 64))).flatten)).flatten
    ++ (s.mem.chans.map (fun e => [w64 e.1] ++ e.2.owed.map w64 ++ e.2.busy.map w64)).flatten
    ++ (s.front.ctxs.map (fun e => (e.2.keys.getD []).map (fun _ => 0))).flatten

/-- What a packet carries. -/
def PktKind.words : PktKind → List Word64
  | .msg src ch seq bytes op => [0, w64 src, w64 ch, seq.setWidth 64, w64 op] ++ packWords bytes
  | .ack ch seq n code op => [1, w64 ch, seq.setWidth 64, w64 n, w64 code, w64 op]
  | .tulle r => [2, w64 r]
  | .tulleReq n t => [3, w64 n] ++ t.scan
  | .tulleAns r f st => [4, w64 r, w64 (bit f.isSome), w64 (st.getD 0)] ++ f.getD []
  | .tulleEnd n r w => [5, w64 n, w64 r, w64 (bit w)]
  | .node d v fl late => [6, d.cid.setWidth 64, w64 v.piece, w64 v.level, w64 v.index, fl.setWidth 64, w64 (bit late)] ++ v.vals.map (fun x => x.setWidth 64)
  | .result d vs fl st => [7, d.cid.setWidth 64, fl.setWidth 64, w64 st] ++ vs.map (fun x => x.setWidth 64)
  | .written d n => [8, d.cid.setWidth 64, w64 n]
  | .final d => [9, d.cid.setWidth 64]
  | .caught st n => [10, st.setWidth 64, w64 n]
  | .commit st => [11, st.setWidth 64]
  | .mapupd r n c => [12, w64 r, w64 n, w64 (c.getD 0)]
  | .mapack n => [13, w64 n]

/-- A packet in a port's queue. -/
def Pkt.words (p : Pkt) : List Word64 :=
  [w64 p.id, w64 (p.node.getD (2 ^ 20)), w64 p.ctx, p.job.setWidth 64, w64 p.rank, w64 (bit p.held + 2 * bit p.full)] ++ p.kind.words

/-- Segment 8: port queues, link retry buffers, links, management. Which of the packets that have been sent no link has acknowledged is open (log 53). -/
def State.scanHub (s : State) : List Word64 :=
  let unacked := s.outs.fabric.filter (fun e => Config.freePick (s.tick + e.2.id))
  (s.front.pkts.map Pkt.words).flatten ++ (unacked.map (fun e => w64 e.1 :: e.2.words)).flatten ++ (s.mgmt.links.map (fun e => [w64 e.1, w64 e.2])).flatten ++ (s.mgmt.eth.map (fun e => [w64 e.1, w64 e.2])).flatten
    ++ [w64 s.mgmt.clock, w64 s.mgmt.plimit, w64 s.mgmt.fwver, w64 s.mgmt.rollback, s.mgmt.node.setWidth 64]

/-- A segment: its number and its length in bytes, then its contents, or as many zeros. -/
def segment (n : Nat) (hide : Bool) (body : List Word64) : List Word64 :=
  w64 (n * 2 ^ 48 + 8 * body.length) :: (if hide then body.map (fun _ => 0) else body)

/-- SCAN_READOUT (R340): the eight segments in order. Segments 4 and 6 read as zero unless debug readout was enabled at secure boot. -/
def execScanReadout (s : State) : Out :=
  let hide := !s.mgmt.dbgReadout
  let all := segment 1 false s.scanModule ++ segment 2 false s.scanFront ++ segment 3 false s.scanAgents ++ segment 4 hide s.scanCores
    ++ segment 5 false s.scanCrews ++ segment 6 hide s.scanSlices ++ segment 7 false s.scanEngines ++ segment 8 false s.scanHub
  .next (if s.mgmt.weighed then { s with outs := { s.outs with scan := s.outs.scan ++ all } } else s)

end Sys2Proof.Machine
end

