-- ==== Sys2Proof/Machine/Dispatch.lean ====
section
/-! DEFINITION. The dispatch: one arm for each constructor of Instr, each one direct call of its meaning. -/

namespace Sys2Proof.Machine

/-- The meaning of an instruction, micro-op, event or command. -/
def exec (i : Instr) (s : State) : Host.Outcome State Fault Refusal :=
  match i with
  | .nop => Sys2Proof.Machine.execNop s
  | .add u w d a b => Sys2Proof.Machine.execAdd u w d a b s
  | .sub u w d a b => Sys2Proof.Machine.execSub u w d a b s
  | .mul u w d a b => Sys2Proof.Machine.execMul u w d a b s
  | .mulh u w d a b => Sys2Proof.Machine.execMulh u w d a b s
  | .div u w d a b => Sys2Proof.Machine.execDiv u w d a b s
  | .rem u w d a b => Sys2Proof.Machine.execRem u w d a b s
  | .and u w d a b => Sys2Proof.Machine.execAnd u w d a b s
  | .or u w d a b => Sys2Proof.Machine.execOr u w d a b s
  | .xor u w d a b => Sys2Proof.Machine.execXor u w d a b s
  | .shl u w d a b => Sys2Proof.Machine.execShl u w d a b s
  | .shr u w d a b => Sys2Proof.Machine.execShr u w d a b s
  | .min u w d a b => Sys2Proof.Machine.execMin u w d a b s
  | .max u w d a b => Sys2Proof.Machine.execMax u w d a b s
  | .cmp cond w d a b => Sys2Proof.Machine.execCmp cond w d a b s
  | .sel p d a b => Sys2Proof.Machine.execSel p d a b s
  | .movi d v => Sys2Proof.Machine.execMovi d v s
  | .movsh d v => Sys2Proof.Machine.execMovsh d v s
  | .plog fn d a b => Sys2Proof.Machine.execPlog fn d a b s
  | .bfx sx d a b => Sys2Proof.Machine.execBfx sx d a b s
  | .bitc fn w d a => Sys2Proof.Machine.execBitc fn w d a s
  | .lea k d a b => Sys2Proof.Machine.execLea k d a b s
  | .lix l a b => Sys2Proof.Machine.execLix l a b s
  | .lixstep l => Sys2Proof.Machine.execLixstep l s
  | .lixstepAll => Sys2Proof.Machine.execLixstepAll s
  | .fadd sub sat d a b => Sys2Proof.Machine.execFadd sub sat d a b s
  | .fmul sat d a b => Sys2Proof.Machine.execFmul sat d a b s
  | .fma sub sat d a b => Sys2Proof.Machine.execFma sub sat d a b s
  | .fcmp cond d a b => Sys2Proof.Machine.execFcmp cond d a b s
  | .fcvt dst src sat d a => Sys2Proof.Machine.execFcvt dst src sat d a s
  | .fminmax max d a b => Sys2Proof.Machine.execFminmax max d a b s
  | .br off => Sys2Proof.Machine.execBr off s
  | .brp neg p off => Sys2Proof.Machine.execBrp neg p off s
  | .bri a => Sys2Proof.Machine.execBri a s
  | .call off => Sys2Proof.Machine.execCall off s
  | .calli a => Sys2Proof.Machine.execCalli a s
  | .ret => Sys2Proof.Machine.execRet s
  | .loop off => Sys2Proof.Machine.execLoop off s
  | .loopset a b => Sys2Proof.Machine.execLoopset a b s
  | .srd d r => Sys2Proof.Machine.execSrd d r s
  | .swr r a => Sys2Proof.Machine.execSwr r a s
  | .trap code => Sys2Proof.Machine.execTrap code s
  | .eret => Sys2Proof.Machine.execEret s
  | .brk code => Sys2Proof.Machine.execBrk code s
  | .tend => Sys2Proof.Machine.execTend s
  | .taskCatch => Sys2Proof.Machine.execCatch s
  | .isync => Sys2Proof.Machine.execIsync s
  | .evset a => Sys2Proof.Machine.execEvset a s
  | .evsetClr a => Sys2Proof.Machine.execEvsetClr a s
  | .evtest d a => Sys2Proof.Machine.execEvtest d a s
  | .evtestTake d a => Sys2Proof.Machine.execEvtestTake d a s
  | .widf k d a => Sys2Proof.Machine.execWidf k d a s
  | .widfPfx k d a => Sys2Proof.Machine.execWidfPfx k d a s
  | .widfW d => Sys2Proof.Machine.execWidfW d s
  | .flagopClr a => Sys2Proof.Machine.execFlagopClr a s
  | .flagopSet a => Sys2Proof.Machine.execFlagopSet a s
  | .flagopRdclr d a => Sys2Proof.Machine.execFlagopRdclr d a s
  | .flagopTst d a => Sys2Proof.Machine.execFlagopTst d a s
  | .yield => Sys2Proof.Machine.execYield s
  | .qlaunch d a b => Sys2Proof.Machine.execQlaunch d a b s
  | .vadd f sat d a b => Sys2Proof.Machine.execVadd f sat d a b s
  | .vsub f sat d a b => Sys2Proof.Machine.execVsub f sat d a b s
  | .vmul f sat d a b => Sys2Proof.Machine.execVmul f sat d a b s
  | .vmac f sat d a b => Sys2Proof.Machine.execVmac f sat d a b s
  | .vmsb f sat d a b => Sys2Proof.Machine.execVmsb f sat d a b s
  | .vmin f d a b => Sys2Proof.Machine.execVmin f d a b s
  | .vmax f d a b => Sys2Proof.Machine.execVmax f d a b s
  | .vabs f sat d a => Sys2Proof.Machine.execVabs f sat d a s
  | .vneg f sat d a => Sys2Proof.Machine.execVneg f sat d a s
  | .vcpy d a => Sys2Proof.Machine.execVcpy d a s
  | .vsel f d a b => Sys2Proof.Machine.execVsel f d a b s
  | .vceq f d a b => Sys2Proof.Machine.execVceq f d a b s
  | .vclt f d a b => Sys2Proof.Machine.execVclt f d a b s
  | .vcle f d a b => Sys2Proof.Machine.execVcle f d a b s
  | .vcun f d a b => Sys2Proof.Machine.execVcun f d a b s
  | .vand d a b => Sys2Proof.Machine.execVand d a b s
  | .vor d a b => Sys2Proof.Machine.execVor d a b s
  | .vxor d a b => Sys2Proof.Machine.execVxor d a b s
  | .vshl sat d a b => Sys2Proof.Machine.execVshl sat d a b s
  | .vshr arith d a b => Sys2Proof.Machine.execVshr arith d a b s
  | .vcvt dst src sat part d a => Sys2Proof.Machine.execVcvt dst src sat part d a s
  | .vqnt f sat sc d a => Sys2Proof.Machine.execVqnt f sat sc d a s
  | .vqspt sat sc d a => Sys2Proof.Machine.execVqspt sat sc d a s
  | .vdqnt f sat sc d a => Sys2Proof.Machine.execVdqnt f sat sc d a s
  | .vscalb f sat d a b => Sys2Proof.Machine.execVscalb f sat d a b s
  | .vrcp f sat d a => Sys2Proof.Machine.execVrcp f sat d a s
  | .vrsq f sat d a => Sys2Proof.Machine.execVrsq f sat d a s
  | .vsqrt f sat d a => Sys2Proof.Machine.execVsqrt f sat d a s
  | .vexp2 f sat d a => Sys2Proof.Machine.execVexp2 f sat d a s
  | .vlog2 f sat d a => Sys2Proof.Machine.execVlog2 f sat d a s
  | .vtanh f sat d a => Sys2Proof.Machine.execVtanh f sat d a s
  | .verf f sat d a => Sys2Proof.Machine.execVerf f sat d a s
  | .vredadd f sat d a => Sys2Proof.Machine.execVredadd f sat d a s
  | .vredmax f d a => Sys2Proof.Machine.execVredmax f d a s
  | .vredmin f d a => Sys2Proof.Machine.execVredmin f d a s
  | .vargmax f d a => Sys2Proof.Machine.execVargmax f d a s
  | .vrot d a b => Sys2Proof.Machine.execVrot d a b s
  | .vshuf d a b => Sys2Proof.Machine.execVshuf d a b s
  | .vrand d a b => Sys2Proof.Machine.execVrand d a b s
  | .vgumb sat d a => Sys2Proof.Machine.execVgumb sat d a s
  | .vdrop f d a c => Sys2Proof.Machine.execVdrop f d a c s
  | .vnfchk f d a => Sys2Proof.Machine.execVnfchk f d a s
  | .viota d a => Sys2Proof.Machine.execViota d a s
  | .radd f sat d a b => Sys2Proof.Machine.execRadd f sat d a b s
  | .rsub f sat d a b => Sys2Proof.Machine.execRsub f sat d a b s
  | .rmul f sat d a b => Sys2Proof.Machine.execRmul f sat d a b s
  | .rnarw f sat part d a => Sys2Proof.Machine.execRnarw f sat part d a s
  | .rrelu f d a => Sys2Proof.Machine.execRrelu f d a s
  | .rscalb f sat d a b => Sys2Proof.Machine.execRscalb f sat d a b s
  | .rshr arith d a b => Sys2Proof.Machine.execRshr arith d a b s
  | .uadd f d y b => Sys2Proof.Machine.execUadd f d y b s
  | .usub f d y b => Sys2Proof.Machine.execUsub f d y b s
  | .umul f d y b => Sys2Proof.Machine.execUmul f d y b s
  | .unarw f part d y => Sys2Proof.Machine.execUnarw f part d y s
  | .urelu f d y => Sys2Proof.Machine.execUrelu f d y s
  | .uscalb f d y b => Sys2Proof.Machine.execUscalb f d y b s
  | .ushr d y b => Sys2Proof.Machine.execUshr d y b s
  | .ld sz sx d a b => Sys2Proof.Machine.execLd sz sx d a b s
  | .st sz v a b => Sys2Proof.Machine.execSt sz v a b s
  | .ldln d a b => Sys2Proof.Machine.execLdln d a b s
  | .stln v a b => Sys2Proof.Machine.execStln v a b s
  | .lda scope w d a b => Sys2Proof.Machine.execLda scope w d a b s
  | .strel scope w v a b => Sys2Proof.Machine.execStrel scope w v a b s
  | .ldw dbl consume d a b => Sys2Proof.Machine.execLdw dbl consume d a b s
  | .stw dbl v a b => Sys2Proof.Machine.execStw dbl v a b s
  | .feclr a b => Sys2Proof.Machine.execFeclr a b s
  | .feset a b => Sys2Proof.Machine.execFeset a b s
  | .fepoll d a b => Sys2Proof.Machine.execFepoll d a b s
  | .aadd sz ord d a b => Sys2Proof.Machine.execAadd sz ord d a b s
  | .amin sx sz ord d a b => Sys2Proof.Machine.execAmin sx sz ord d a b s
  | .amax sx sz ord d a b => Sys2Proof.Machine.execAmax sx sz ord d a b s
  | .aand sz ord d a b => Sys2Proof.Machine.execAand sz ord d a b s
  | .aor sz ord d a b => Sys2Proof.Machine.execAor sz ord d a b s
  | .axor sz ord d a b => Sys2Proof.Machine.execAxor sz ord d a b s
  | .aswap sz ord d a b => Sys2Proof.Machine.execAswap sz ord d a b s
  | .acas sz ord d a b => Sys2Proof.Machine.execAcas sz ord d a b s
  | .afadd f32 ord d a b => Sys2Proof.Machine.execAfadd f32 ord d a b s
  | .dqpush d a b => Sys2Proof.Machine.execDqpush d a b s
  | .dqpop d p b => Sys2Proof.Machine.execDqpop d p b s
  | .dqsteal d p b => Sys2Proof.Machine.execDqsteal d p b s
  | .bklock mask n => Sys2Proof.Machine.execBklock mask n s
  | .lblk a b => Sys2Proof.Machine.execLblk a b s
  | .probe k d a b => Sys2Proof.Machine.execProbe k d a b s
  | .evict mode b => Sys2Proof.Machine.execEvict mode b s
  | .cpy a => Sys2Proof.Machine.execCpy a s
  | .cpyt f tr d a b => Sys2Proof.Machine.execCpyt f tr d a b s
  | .rgdef r a => Sys2Proof.Machine.execRgdef r a s
  | .rgadvt r b => Sys2Proof.Machine.execRgadvt r b s
  | .rgadvh r b => Sys2Proof.Machine.execRgadvh r b s
  | .rgwaitf r b => Sys2Proof.Machine.execRgwaitf r b s
  | .rgwaite r b => Sys2Proof.Machine.execRgwaite r b s
  | .owngive a b => Sys2Proof.Machine.execOwngive a b s
  | .ownqry byAddr d a => Sys2Proof.Machine.execOwnqry byAddr d a s
  | .tdep r a b => Sys2Proof.Machine.execTdep r a b s
  | .tcpy nowait r a b => Sys2Proof.Machine.execTcpy nowait r a b s
  | .ttak nowait r a b => Sys2Proof.Machine.execTtak nowait r a b s
  | .tcan r => Sys2Proof.Machine.execTcan r s
  | .chsend r a b => Sys2Proof.Machine.execChsend r a b s
  | .chrecv r a b => Sys2Proof.Machine.execChrecv r a b s
  | .coll a => Sys2Proof.Machine.execColl a s
  | .bkarm a b => Sys2Proof.Machine.execBkarm a b s
  | .nmop a => Sys2Proof.Machine.execNmop a s
  | .fenceAcq n => Sys2Proof.Machine.execFenceAcq n s
  | .fenceRel n => Sys2Proof.Machine.execFenceRel n s
  | .fenceFull n => Sys2Proof.Machine.execFenceFull n s
  | .fenceJoin n => Sys2Proof.Machine.execFenceJoin n s
  | .icinv n a b => Sys2Proof.Machine.execIcinv n a b s
  | .tkdec a b => Sys2Proof.Machine.execTkdec a b s
  | .rsmark a => Sys2Proof.Machine.execRsmark a s
  | .rsdrop a => Sys2Proof.Machine.execRsdrop a s
  | .rsdropMark d => Sys2Proof.Machine.execRsdropMark d s
  | .rssync => Sys2Proof.Machine.execRssync s
  | .rssyncFlush => Sys2Proof.Machine.execRssyncFlush s
  | .pref replica a b => Sys2Proof.Machine.execPref replica a b s
  | .mcall fa fb ovw n a => Sys2Proof.Machine.execMcall fa fb ovw n a s
  | .mpset q a => Sys2Proof.Machine.execMpset q a s
  | .mpget d q => Sys2Proof.Machine.execMpget d q s
  | .mwait => Sys2Proof.Machine.execMwait s
  | .mload a b => Sys2Proof.Machine.execMload a b s
  | .mzero t => Sys2Proof.Machine.execMzero t s
  | .mtran t => Sys2Proof.Machine.execMtran t s
  | .kld f c a b => Sys2Proof.Machine.execKld f c a b s
  | .kldz bf16 z a b => Sys2Proof.Machine.execKldz bf16 z a b s
  | .kmovCFromOp c a => Sys2Proof.Machine.execKmovCFromOp c a s
  | .kmovSFromC d c => Sys2Proof.Machine.execKmovSFromC d c s
  | .kmovCFromC d c => Sys2Proof.Machine.execKmovCFromC d c s
  | .kmovCFromZ c z b => Sys2Proof.Machine.execKmovCFromZ c z b s
  | .kmovZFromC z c b => Sys2Proof.Machine.execKmovZFromC z c b s
  | .kst c a b => Sys2Proof.Machine.execKst c a b s
  | .kstZ z a b => Sys2Proof.Machine.execKstZ z a b s
  | .ksetef a => Sys2Proof.Machine.execKsetef a s
  | .kgetef d => Sys2Proof.Machine.execKgetef d s
  | .unop => Sys2Proof.Machine.execUnop s
  | .mac ra rb k0 kn => Sys2Proof.Machine.execMac ra rb k0 kn s
  | .macs ra rb k0 kn rm ns => Sys2Proof.Machine.execMacs ra rb k0 kn rm ns s
  | .macw ra rb k0 kn => Sys2Proof.Machine.execMacw ra rb k0 kn s
  | .mact rb k0 kn tile dir => Sys2Proof.Machine.execMact rb k0 kn tile dir s
  | .macg ra rb k0 kn g q => Sys2Proof.Machine.execMacg ra rb k0 kn g q s
  | .ringadv ring count => Sys2Proof.Machine.execRingadv ring count s
  | .waitring ring count => Sys2Proof.Machine.execWaitring ring count s
  | .setc q => Sys2Proof.Machine.execSetc q s
  | .accscl z reg dir => Sys2Proof.Machine.execAccscl z reg dir s
  | .cvtout ring fmt sat tr => Sys2Proof.Machine.execCvtout ring fmt sat tr s
  | .microLoop ctr q target => Sys2Proof.Machine.execMicroLoop ctr q target s
  | .exit => Sys2Proof.Machine.execExit s
  | .launchMessage ctx queue words => Sys2Proof.Machine.execLaunchMessage ctx queue words s
  | .eventSetMessage ctx queue words => Sys2Proof.Machine.execEventSetMessage ctx queue words s
  | .eventClearMessage ctx queue words => Sys2Proof.Machine.execEventClearMessage ctx queue words s
  | .completionHeadMessage ctx queue words => Sys2Proof.Machine.execCompletionHeadMessage ctx queue words s
  | .unrecognisedMessage ctx queue len words => Sys2Proof.Machine.execUnrecognisedMessage ctx queue len words s
  | .unboundQpRequest qp => Sys2Proof.Machine.execUnboundQpRequest qp s
  | .completionRecordWrite ctx => Sys2Proof.Machine.execCompletionRecordWrite ctx s
  | .launchHead ctx queue => Sys2Proof.Machine.execLaunchHead ctx queue s
  | .taskStart ctx queue serial slot task => Sys2Proof.Machine.execTaskStart ctx queue serial slot task s
  | .predecessorDecrement id => Sys2Proof.Machine.execPredecessorDecrement id s
  | .taskRetire key => Sys2Proof.Machine.execTaskRetire key s
  | .sliceEnd key => Sys2Proof.Machine.execSliceEnd key s
  | .launchRetire ctx queue serial => Sys2Proof.Machine.execLaunchRetire ctx queue serial s
  | .starvationHold core => Sys2Proof.Machine.execStarvationHold core s
  | .bundleFetch key => Sys2Proof.Machine.execBundleFetch key s
  | .scoreboardResultLands key id => Sys2Proof.Machine.execScoreboardResultLands key id s
  | .pageWalk core slot va => Sys2Proof.Machine.execPageWalk core slot va s
  | .shootdownAck id => Sys2Proof.Machine.execShootdownAck id s
  | .hbmUncorrectableError key slot va kind => Sys2Proof.Machine.execHbmUncorrectableError key slot va kind s
  | .softError e => Sys2Proof.Machine.execSoftError e s
  | .bumpComplete ctx buf => Sys2Proof.Machine.execBumpComplete ctx buf s
  | .evictionStart slot => Sys2Proof.Machine.execEvictionStart slot s
  | .evictionComplete slot => Sys2Proof.Machine.execEvictionComplete slot s
  | .recallStart slot => Sys2Proof.Machine.execRecallStart slot s
  | .recallComplete slot => Sys2Proof.Machine.execRecallComplete slot s
  | .packetHold id => Sys2Proof.Machine.execPacketHold id s
  | .heldPacketRelease id => Sys2Proof.Machine.execHeldPacketRelease id s
  | .spill key => Sys2Proof.Machine.execSpill key s
  | .fill key => Sys2Proof.Machine.execFill key s
  | .spillFillComplete key => Sys2Proof.Machine.execSpillFillComplete key s
  | .matrixCallStart core => Sys2Proof.Machine.execMatrixCallStart core s
  | .matrixCallComplete core => Sys2Proof.Machine.execMatrixCallComplete core s
  | .callCycleLimit core => Sys2Proof.Machine.execCallCycleLimit core s
  | .copyComplete id => Sys2Proof.Machine.execCopyComplete id s
  | .loadBlockFillComplete id => Sys2Proof.Machine.execLoadBlockFillComplete id s
  | .loadBlockEvictComplete id => Sys2Proof.Machine.execLoadBlockEvictComplete id s
  | .nmopComplete id => Sys2Proof.Machine.execNmopComplete id s
  | .refreshDue stack pc bank => Sys2Proof.Machine.execRefreshDue stack pc bank s
  | .owedRefreshPayment stack pc => Sys2Proof.Machine.execOwedRefreshPayment stack pc s
  | .refreshEnd stack pc bank => Sys2Proof.Machine.execRefreshEnd stack pc bank s
  | .fewait key => Sys2Proof.Machine.execFewait key s
  | .bklockHoldEnd key => Sys2Proof.Machine.execBklockHoldEnd key s
  | .granuleDelivery id => Sys2Proof.Machine.execGranuleDelivery id s
  | .tulleDepositProcess id => Sys2Proof.Machine.execTulleDepositProcess id s
  | .tulleMatchProcess id => Sys2Proof.Machine.execTulleMatchProcess id s
  | .tulleCancelProcess id => Sys2Proof.Machine.execTulleCancelProcess id s
  | .tulleWithdrawal id => Sys2Proof.Machine.execTulleWithdrawal id s
  | .detachedGranuleDelivery slot gran => Sys2Proof.Machine.execDetachedGranuleDelivery slot gran s
  | .channelArrival id => Sys2Proof.Machine.execChannelArrival id s
  | .sendAcceptance id => Sys2Proof.Machine.execSendAcceptance id s
  | .heldArrivalRetry slot => Sys2Proof.Machine.execHeldArrivalRetry slot s
  | .collectiveContribution id => Sys2Proof.Machine.execCollectiveContribution id s
  | .switchLateForward id => Sys2Proof.Machine.execSwitchLateForward id s
  | .collectiveComplete slot cid => Sys2Proof.Machine.execCollectiveComplete slot cid s
  | .bucketFire slot bucket => Sys2Proof.Machine.execBucketFire slot bucket s
  | .heatCommit ctx queue serial slot => Sys2Proof.Machine.execHeatCommit ctx queue serial slot s
  | .nextHeatStart ctx queue serial slot => Sys2Proof.Machine.execNextHeatStart ctx queue serial slot s
  | .caughtMessage job step count => Sys2Proof.Machine.execCaughtMessage job step count s
  | .commitMessage job step => Sys2Proof.Machine.execCommitMessage job step s
  | .deferralEnd slot => Sys2Proof.Machine.execDeferralEnd slot s
  | .migrationWaitExpiry slot => Sys2Proof.Machine.execMigrationWaitExpiry slot s
  | .migrationTransfer slot => Sys2Proof.Machine.execMigrationTransfer slot s
  | .mapupd job rank node coord => Sys2Proof.Machine.execMapupd job rank node coord s
  | .migrationComplete slot => Sys2Proof.Machine.execMigrationComplete slot s
  | .preemptionRequest key full => Sys2Proof.Machine.execPreemptionRequest key full s
  | .preemptionStop key => Sys2Proof.Machine.execPreemptionStop key s
  | .dpbExpiry key => Sys2Proof.Machine.execDpbExpiry key s
  | .drainlimExpiry key => Sys2Proof.Machine.execDrainlimExpiry key s
  | .contextSave key => Sys2Proof.Machine.execContextSave key s
  | .contextRestore ctx area key => Sys2Proof.Machine.execContextRestore ctx area key s
  | .asyncTrapDelivery key => Sys2Proof.Machine.execAsyncTrapDelivery key s
  | .abortLaunch c ctx queue serial => Sys2Proof.Machine.execAbortLaunch c ctx queue serial s
  | .debugHalt key => Sys2Proof.Machine.execDebugHalt key s
  | .debugStep key => Sys2Proof.Machine.execDebugStep key s
  | .debugCont key => Sys2Proof.Machine.execDebugCont key s
  | .weigh => Sys2Proof.Machine.execWeigh s
  | .scanReadout => Sys2Proof.Machine.execScanReadout s
  | .weighResume => Sys2Proof.Machine.execWeighResume s
  | .moduleReset => Sys2Proof.Machine.execModuleReset s
  | .setPlimit watts => Sys2Proof.Machine.execSetPlimit watts s
  | .readTelemetry => Sys2Proof.Machine.execReadTelemetry s
  | .fenceUnit c u => Sys2Proof.Machine.execFenceUnit c u s
  | .errorCountFence u count cycles control => Sys2Proof.Machine.execErrorCountFence u count cycles control s
  | .writeRankRecord c slot w => Sys2Proof.Machine.execWriteRankRecord c slot w s
  | .writeSchedulingRecord c ctx x => Sys2Proof.Machine.execWriteSchedulingRecord c ctx x s
  | .writeJobRecord c idx jb => Sys2Proof.Machine.execWriteJobRecord c idx jb s
  | .writeChannelRow c slot n h => Sys2Proof.Machine.execWriteChannelRow c slot n h s
  | .writeTulleRegion c ctx handle u => Sys2Proof.Machine.execWriteTulleRegion c ctx handle u s
  | .writeStreamRegister c slot handle j => Sys2Proof.Machine.execWriteStreamRegister c slot handle j s
  | .writeDebugComparator c ctx idx w => Sys2Proof.Machine.execWriteDebugComparator c ctx idx w s
  | .readRankRecord c slot => Sys2Proof.Machine.execReadRankRecord c slot s
  | .readSchedulingRecord c ctx => Sys2Proof.Machine.execReadSchedulingRecord c ctx s
  | .readJobRecord c idx => Sys2Proof.Machine.execReadJobRecord c idx s
  | .readChannelRow c slot n => Sys2Proof.Machine.execReadChannelRow c slot n s
  | .readTulleRegion c ctx handle => Sys2Proof.Machine.execReadTulleRegion c ctx handle s
  | .readStreamRegister c slot handle => Sys2Proof.Machine.execReadStreamRegister c slot handle s
  | .readDebugComparator c ctx idx => Sys2Proof.Machine.execReadDebugComparator c ctx idx s
  | .shootdown c s0 s1 => Sys2Proof.Machine.execShootdown c s0 s1 s
  | .evictRank c slot => Sys2Proof.Machine.execEvictRank c slot s
  | .recallRank c slot => Sys2Proof.Machine.execRecallRank c slot s
  | .migrationOrder c mo0 mo1 mo2 => Sys2Proof.Machine.execMigrationOrder c mo0 mo1 mo2 s
  | .versionBump c ctx buf => Sys2Proof.Machine.execVersionBump c ctx buf s
  | .installContextKeys c ctx blob => Sys2Proof.Machine.execInstallContextKeys c ctx blob s
  | .installRank c m1 => Sys2Proof.Machine.execInstallRank c m1 s
  | .removeRank c m1 => Sys2Proof.Machine.execRemoveRank c m1 s
  | .createContext c m1 m2 m3 m4 => Sys2Proof.Machine.execCreateContext c m1 m2 m3 m4 s
  | .destroyContext c m1 => Sys2Proof.Machine.execDestroyContext c m1 s
  | .readAndClearCounter c m1 => Sys2Proof.Machine.execReadAndClearCounter c m1 s
  | .readSaveAreaDescriptor c => Sys2Proof.Machine.execReadSaveAreaDescriptor c s
  | .unknownCommand c code => Sys2Proof.Machine.execUnknownCommand c code s
  | .attestationRequest nonce => Sys2Proof.Machine.execAttestationRequest nonce s
  | .standbyPowerOn f key sig => Sys2Proof.Machine.execStandbyPowerOn f key sig s
  | .mainPowerOn l4 l5 l6 => Sys2Proof.Machine.execMainPowerOn l4 l5 l6 s
  | .finserLinkTraining port gen node => Sys2Proof.Machine.execFinserLinkTraining port gen node s
  | .ethernetLinkChange port rate => Sys2Proof.Machine.execEthernetLinkChange port rate s
  | .thermalReport die celsius => Sys2Proof.Machine.execThermalReport die celsius s
  | .powerWindow watts => Sys2Proof.Machine.execPowerWindow watts s
  | .writePerformed id => Sys2Proof.Machine.execWritePerformed id s
  | .incomingWriteApply id => Sys2Proof.Machine.execIncomingWriteApply id s
  | .bklockStallLimit key => Sys2Proof.Machine.execBklockStallLimit key s
  | .queuePairBind c ctx queue => Sys2Proof.Machine.execQueuePairBind c ctx queue s
  | .poisonFilterRemove c die frame => Sys2Proof.Machine.execPoisonFilterRemove c die frame s
  | .debuggerWrite key w => Sys2Proof.Machine.execDebuggerWrite key w s

end Sys2Proof.Machine
end

