-- ==== Sys2Proof/Machine/Names.lean ====
section
/-! DEFINITION. The registers that an instruction names, for the scoreboard (R111): scalar register r as r, predicate n as 32 + n. -/

namespace Sys2Proof

open Sys2Proof.Machine (upto)

def SOp.names : SOp → List Nat
  | .reg r => [r.toNat]
  | .pred p => [32 + p.toNat]
  | _ => []

def Dst.names : Dst → List Nat
  | .reg r => [r.toNat]
  | .pred p => [32 + p.toNat]

def VSrc.names : VSrc → List Nat
  | .bc r => [r.toNat]
  | .line _ => []

/-- The upper registers of the pairs of a 16-byte atomic (R281). -/
def pairNames (sz : ASz) (d : SReg) (b : SOp) : List Nat := if sz = .b16 then (SOp.names (.reg d) ++ b.names).map (fun r => r + 1) else []

/-- Registers that a slot reads or writes (R111). LOOP and LOOPSET write p8-p15, CALL writes s31, RET reads it. -/
def Instr.names : Instr → List Nat
  | .add _ _ d a b => [d.toNat] ++ a.names ++ b.names
  | .sub _ _ d a b => [d.toNat] ++ a.names ++ b.names
  | .mul _ _ d a b => [d.toNat] ++ a.names ++ b.names
  | .mulh _ _ d a b => [d.toNat] ++ a.names ++ b.names
  | .div _ _ d a b => [d.toNat] ++ a.names ++ b.names
  | .rem _ _ d a b => [d.toNat] ++ a.names ++ b.names
  | .and _ _ d a b => [d.toNat] ++ a.names ++ b.names
  | .or _ _ d a b => [d.toNat] ++ a.names ++ b.names
  | .xor _ _ d a b => [d.toNat] ++ a.names ++ b.names
  | .shl _ _ d a b => [d.toNat] ++ a.names ++ b.names
  | .shr _ _ d a b => [d.toNat] ++ a.names ++ b.names
  | .min _ _ d a b => [d.toNat] ++ a.names ++ b.names
  | .max _ _ d a b => [d.toNat] ++ a.names ++ b.names
  | .cmp _ _ d a b => d.names ++ a.names ++ b.names
  | .sel p d a b => [32 + p.toNat] ++ [d.toNat] ++ a.names ++ b.names
  | .movi d _ => [d.toNat]
  | .movsh d _ => [d.toNat]
  | .plog _ d a b => [32 + d.toNat] ++ [32 + a.toNat] ++ [32 + b.toNat]
  | .bfx _ d a b => [d.toNat] ++ a.names ++ b.names
  | .bitc _ _ d a => [d.toNat] ++ a.names
  | .lea _ d a b => [d.toNat] ++ a.names ++ b.names
  | .lix _ a b => a.names ++ b.names
  | .fadd _ _ d a b => [d.toNat] ++ [a.toNat] ++ [b.toNat]
  | .fmul _ d a b => [d.toNat] ++ [a.toNat] ++ [b.toNat]
  | .fma _ _ d a b => [d.toNat] ++ [a.toNat] ++ [b.toNat]
  | .fcmp _ d a b => d.names ++ [a.toNat] ++ [b.toNat]
  | .fcvt _ _ _ d a => [d.toNat] ++ [a.toNat]
  | .fminmax _ d a b => [d.toNat] ++ [a.toNat] ++ [b.toNat]
  | .brp _ p _ => [32 + p.toNat]
  | .bri a => [a.toNat]
  | .call _ => [31]
  | .calli a => [a.toNat] ++ [31]
  | .ret => [31]
  | .loop _ => upto 40 8
  | .loopset a b => a.names ++ b.names ++ upto 40 8
  | .srd d _ => [d.toNat]
  | .swr _ a => a.names
  | .evset a => a.names
  | .evsetClr a => a.names
  | .evtest d a => d.names ++ a.names
  | .evtestTake d a => d.names ++ a.names
  | .widf _ d a => [d.toNat] ++ a.names
  | .widfPfx _ d a => [d.toNat] ++ a.names
  | .widfW d => [d.toNat]
  | .flagopClr a => a.names
  | .flagopSet a => a.names
  | .flagopRdclr d a => [d.toNat] ++ a.names
  | .flagopTst d a => [32 + d.toNat] ++ a.names
  | .qlaunch d a b => [d.toNat] ++ [a.toNat] ++ b.names
  | .vadd _ _ _ a b => a.names ++ b.names
  | .vsub _ _ _ a b => a.names ++ b.names
  | .vmul _ _ _ a b => a.names ++ b.names
  | .vmac _ _ _ a b => a.names ++ b.names
  | .vmsb _ _ _ a b => a.names ++ b.names
  | .vmin _ _ a b => a.names ++ b.names
  | .vmax _ _ a b => a.names ++ b.names
  | .vabs _ _ _ a => a.names
  | .vneg _ _ _ a => a.names
  | .vcpy _ a => a.names
  | .vsel _ _ a b => a.names ++ b.names
  | .vceq _ _ a b => a.names ++ b.names
  | .vclt _ _ a b => a.names ++ b.names
  | .vcle _ _ a b => a.names ++ b.names
  | .vcun _ _ a b => a.names ++ b.names
  | .vand _ a b => a.names ++ b.names
  | .vor _ a b => a.names ++ b.names
  | .vxor _ a b => a.names ++ b.names
  | .vshl _ _ a b => a.names ++ b.names
  | .vshr _ _ a b => a.names ++ b.names
  | .vcvt _ _ _ _ _ a => a.names
  | .vqnt _ _ _ _ a => a.names
  | .vqspt _ _ _ a => a.names
  | .vdqnt _ _ _ _ a => a.names
  | .vscalb _ _ _ a b => a.names ++ b.names
  | .vrcp _ _ _ a => a.names
  | .vrsq _ _ _ a => a.names
  | .vsqrt _ _ _ a => a.names
  | .vexp2 _ _ _ a => a.names
  | .vlog2 _ _ _ a => a.names
  | .vtanh _ _ _ a => a.names
  | .verf _ _ _ a => a.names
  | .vredadd _ _ d a => [d.toNat] ++ a.names
  | .vredmax _ d a => [d.toNat] ++ a.names
  | .vredmin _ d a => [d.toNat] ++ a.names
  | .vargmax _ d a => [d.toNat] ++ a.names
  | .vrot _ a b => a.names ++ [b.toNat]
  | .vshuf _ a b => a.names ++ b.names
  | .vrand _ a b => [a.toNat] ++ [b.toNat]
  | .vgumb _ _ a => a.names
  | .vdrop _ _ a _ => a.names
  | .vnfchk _ d a => [d.toNat] ++ a.names
  | .viota _ a => [a.toNat]
  | .radd _ _ _ a b => a.names ++ b.names
  | .rsub _ _ _ a b => a.names ++ b.names
  | .rmul _ _ _ a b => a.names ++ b.names
  | .rnarw _ _ _ _ a => a.names
  | .rrelu _ _ a => a.names
  | .rscalb _ _ _ a b => a.names ++ b.names
  | .rshr _ _ a b => a.names ++ b.names
  | .uadd _ _ y b => y.names ++ b.names
  | .usub _ _ y b => y.names ++ b.names
  | .umul _ _ y b => y.names ++ b.names
  | .unarw _ _ _ y => y.names
  | .urelu _ _ y => y.names
  | .uscalb _ _ y b => y.names ++ b.names
  | .ushr _ y b => y.names ++ b.names
  | .ld _ _ d a b => [d.toNat] ++ [a.toNat] ++ b.names
  | .st _ v a b => [v.toNat] ++ [a.toNat] ++ b.names
  | .ldln _ a b => [a.toNat] ++ b.names
  | .stln _ a b => [a.toNat] ++ b.names
  | .lda _ _ d a b => [d.toNat] ++ [a.toNat] ++ b.names
  | .strel _ _ v a b => [v.toNat] ++ [a.toNat] ++ b.names
  | .ldw _ _ d a b => [d.toNat] ++ [a.toNat] ++ b.names
  | .stw _ v a b => [v.toNat] ++ [a.toNat] ++ b.names
  | .feclr a b => [a.toNat] ++ b.names
  | .feset a b => [a.toNat] ++ b.names
  | .fepoll d a b => [32 + d.toNat] ++ [a.toNat] ++ b.names
  | .aadd _ _ d a b => [d.toNat] ++ [a.toNat] ++ b.names
  | .amin _ _ _ d a b => [d.toNat] ++ [a.toNat] ++ b.names
  | .amax _ _ _ d a b => [d.toNat] ++ [a.toNat] ++ b.names
  | .aand sz _ d a b => [d.toNat] ++ [a.toNat] ++ b.names ++ pairNames sz d b
  | .aor sz _ d a b => [d.toNat] ++ [a.toNat] ++ b.names ++ pairNames sz d b
  | .axor sz _ d a b => [d.toNat] ++ [a.toNat] ++ b.names ++ pairNames sz d b
  | .aswap sz _ d a b => [d.toNat] ++ [a.toNat] ++ b.names ++ pairNames sz d b
  | .acas sz _ d a b => [d.toNat] ++ [a.toNat] ++ b.names ++ pairNames sz d b
  | .afadd _ _ d a b => [d.toNat] ++ [a.toNat] ++ b.names
  | .dqpush d a b => [32 + d.toNat] ++ [a.toNat] ++ b.names
  | .dqpop d p b => [d.toNat] ++ [32 + p.toNat] ++ b.names
  | .dqsteal d p b => [d.toNat] ++ [32 + p.toNat] ++ b.names
  | .lblk a b => [a.toNat] ++ b.names
  | .probe k d a b => [32 + k.toNat] ++ [d.toNat] ++ [a.toNat] ++ b.names
  | .evict _ b => b.names
  | .cpy a => [a.toNat]
  | .cpyt _ _ d a b => [d.toNat] ++ [a.toNat] ++ [b.toNat]
  | .rgdef _ a => [a.toNat]
  | .rgadvt _ b => b.names
  | .rgadvh _ b => b.names
  | .rgwaitf _ b => b.names
  | .rgwaite _ b => b.names
  | .owngive a b => [a.toNat] ++ b.names
  | .ownqry _ d a => [d.toNat] ++ a.names
  | .tdep r a b => [r.toNat] ++ [a.toNat] ++ b.names
  | .tcpy _ r a b => [r.toNat] ++ [a.toNat] ++ b.names
  | .ttak _ r a b => [r.toNat] ++ [a.toNat] ++ b.names
  | .tcan r => [r.toNat]
  | .chsend r a b => [r.toNat] ++ [a.toNat] ++ b.names
  | .chrecv r a b => [r.toNat] ++ [a.toNat] ++ b.names
  | .coll a => [a.toNat]
  | .bkarm a b => [a.toNat] ++ b.names
  | .nmop a => [a.toNat]
  | .icinv _ a b => [a.toNat] ++ b.names
  | .tkdec a b => a.names ++ b.names
  | .rsmark a => a.names
  | .rsdrop a => a.names
  | .rsdropMark d => [d.toNat]
  | .pref _ a b => [a.toNat] ++ b.names
  | .mcall _ _ _ _ a => a.names
  | .mpset _ a => a.names
  | .mpget d _ => [d.toNat]
  | .mload a b => [a.toNat] ++ b.names
  | .kld _ _ a b => [a.toNat] ++ b.names
  | .kldz _ _ a b => [a.toNat] ++ b.names
  | .kmovCFromOp _ a => a.names
  | .kmovSFromC d _ => [d.toNat]
  | .kmovCFromZ _ _ b => b.names
  | .kmovZFromC _ _ b => b.names
  | .kst _ a b => [a.toNat] ++ b.names
  | .kstZ _ a b => [a.toNat] ++ b.names
  | .ksetef a => a.names
  | .kgetef d => [d.toNat]
  | _ => []

end Sys2Proof
end

