-- ==== Sys2Proof/Machine/Turn.lean ====
section
/-! DEFINITION. A core's turn: the boundary (R322), fetching (R84), the guard (R89), the scoreboard (R111), issuing the slots of a bundle in their
order (R112), what a stall or a trap leaves (R278, R289, R320), two streams on one core (R114, R115), and the matrix unit's turn (R225). -/

namespace Sys2Proof.Machine

/-! Before a bundle. -/

/-- Whether the guard lets a bundle's slots take effect (R89). -/
def Stream.guardOn (x : Stream) (b : Bundle) : Bool :=
  x.readP (b.header.extractLsb' 7 4) != b.header.getLsbD 6

/-- What the scoreboard says of a bundle (R107, R111): it stalls, and whether a C-slot condition holds it. A bundle whose guard is off waits for its
guard alone. A C-slot instruction comes after the stream's earlier loads, so it waits while a version bump holds one of them (R72). -/
def State.blocked (s : State) (b : Bundle) (on : Bool) : Option Bool :=
  let is := if on then b.slots.map (fun e => e.2) else []
  let gp := 32 + (b.header.extractLsb' 7 4).toNat
  let names := gp :: (is.map Instr.names).flatten
  let tiles := (is.map (fun i => i.lineTiles.map s.tileOf)).flatten
  let pend := (s.cur.pend.map (fun p => p.tgts)).flatten
  let load := pend.any (fun t =>
    match t with
    | .s r _ => names.contains r
    | .p r _ => names.contains (32 + r)
    | .cells cs => cs.any (fun c => tiles.contains (c.1 / 4096))
    | _ => false)
  let held := tiles.any (fun t => s.core.calls.any (fun c => c.mask.contains t))
  let stuck := s.cur.pend.any (s.loadWaits s.cur) && on && b.slots.any (fun e => e.1.kind == .c)
  if load || stuck then some true else if held then some false else none

/-- The join of completed calls takes effect at the boundary before an MWAIT or FENCE.JOIN bundle issues (R214). -/
def State.preJoin (s : State) (b : Bundle) (on : Bool) : State :=
  let joins := b.slots.any (fun e => match e.2 with | .mwait => true | .fenceJoin _ => true | _ => false)
  if on && joins && (s.ownCalls s.curKey).isEmpty then s.joinCalls else s

/-! The slots. -/

/-- What the slots of a bundle came to. -/
structure Slots where
  s : State
  traps : List (Slot × TrapRec) := []
  stalls : List (Bool × Option TrapRec × Keep) := []

/-- Whether an instruction makes an access that an acquire of EVTEST.TAKE before it orders, or an update of the event vector (R39, R261). -/
def accesses (sl : Slot) (i : Instr) : Bool :=
  match sl.kind, i with
  | .v, _ => false
  | .s, .evset _ => true
  | .s, .evsetClr _ => true
  | .s, .qlaunch _ _ _ => true
  | .s, _ => false
  | _, _ => true

/-- Runs the slots of a bundle in the order of R112, each against the scratchpad and rings as they stood before it. A slot that traps or stalls
has no effect. -/
def runSlots (b : Bundle) : List Slot → Slots → Host.Outcome Slots Fault Refusal
  | [], r => .next r
  | sl :: rest, r =>
    match b.slots.find? (fun e => e.1 == sl) with
    | none => runSlots b rest r
    | some (_, i) =>
      let s := if accesses sl i then r.s.serveTakes (fun _ => true) else r.s
      match exec i { s with slotRank := sl.rank } with
      | .fault f => .fault f
      | .refused q => .refused q
      | .next t =>
        match t.cur.mark with
        | .none => runSlots b rest { r with s := t }
        | .trapped e => runSlots b rest { r with traps := r.traps ++ [(sl, e)] }
        | .stalled l w k => runSlots b rest { r with stalls := r.stalls ++ [(l, w, k)] }

/-- The trap of the first slot in mask order that raised one. -/
def firstTrap (ts : List (Slot × TrapRec)) : Option TrapRec :=
  (maskOrder.findSome? (fun sl => ts.find? (fun e => e.1 == sl))).map (fun e => e.2)

/-! After a bundle. -/

/-- A bundle stalls: its cycle is counted (R111, R278, R288), and a limit reached becomes its trap (R278, R289). -/
def State.stallBundle (s : State) (lat : Bool) (wait : Option TrapRec) (keeps : List Keep) : Host.Outcome State Fault Refusal :=
  let limit := match s.cur.hold with | some h => decide (8 ≤ h.stalls) | none => false
  if limit then execBklockStallLimit s.curKey s
  else
    let x := s.cur
    let hold := x.hold.map (fun (h : Hold) => { h with stalls := h.stalls + 1 })
    let x := { x with
      latcnt := if lat then x.latcnt + 1 else x.latcnt, waitCyc := if wait.isSome then x.waitCyc + 1 else x.waitCyc,
      mark := .stalled lat wait .nothing, hold := hold }
    execFewait s.curKey (keeps.eraseDups.foldl (fun (s : State) k => s.keepStall k) { s with cur := x })

/-- The trap of TRAP or BRK at the boundary after the bundle (R154); under a debugger BRK halts there (R337). -/
def State.softBoundary (s : State) : State :=
  match s.cur.btrap with
  | none => s
  | some t =>
    let s := { s with cur := { s.cur with btrap := none } }
    if t.cause = 0x11 && s.debugged s.cur then s.haltCur else s.enterTrap t s.cur.pc

/-- The boundary after a bundle that issued (R108, R287, R337). After one that executed its rank's CATCH, what its slots armed is disarmed too (R315). -/
def State.endBundle (s : State) : State :=
  let s := s.boundary
  let x := s.cur
  let hold := x.hold.map (fun (h : Hold) => { h with left := h.left - 1 })
  let s := { s with view := none, cur := { x with
    pc := x.npc, bundle := none, waitCyc := 0, fixed := 0, mark := .none, skipBp := false, hold := hold } }
  let s : State := match execBklockHoldEnd s.curKey s with | .next t => t | _ => s
  let s := if s.cur.ending ≠ 0 then s.landAll else s
  let s := if s.cur.ending = 2 then s.disarm s.cur.slot else s
  let s := s.softBoundary
  if s.curLive && s.cur.stepOne then s.haltCur else s

/-- What a turn did for a stream. -/
inductive Did where
  | issued
  /-- a bundle that was ready raised a fault at issue -/
  | faulted
  | stalled
  | other
  deriving DecidableEq, Repr

/-- Issues the focused stream's bundle, which stands ready, or stalls it, or raises its fault. Beside a held tile a C-slot condition of the bundle counts
its cycle too (R111, R278). -/
def State.issueBundle (s : State) (b : Bundle) : Host.Outcome (State × Did) Fault Refusal :=
  let tag (d : Did) (r : Host.Outcome State Fault Refusal) : Host.Outcome (State × Did) Fault Refusal :=
    match r with
    | .next t => .next (t, d)
    | .fault f => .fault f
    | .refused q => .refused q
  match s.blocked b false with
  | some lat => tag .stalled (s.stallBundle lat none [])
  | none =>
  let on := s.cur.guardOn b
  let s := s.preJoin b on
  if on && s.cur.hold.isSome && b.header.getLsbD 26 then .next (s.enterTrap (bkTrap 0x62 b.addr) b.addr, .faulted)
  else
    match s.blocked b on with
    | some true => tag .stalled (s.stallBundle true none [])
    | some false =>
      match runSlots b slotOrder { s := { s with view := some s.viewNow } } with
      | .fault f => .fault f
      | .refused q => .refused q
      | .next r => tag .stalled (s.stallBundle (r.stalls.any (fun e => e.1)) (r.stalls.findSome? (fun e => e.2.1)) [])
    | none =>
      if !on then .next (s.endBundle, .issued)
      else
        let v := s.viewNow
        match runSlots b slotOrder { s := { s with view := some v } } with
        | .fault f => .fault f
        | .refused q => .refused q
        | .next r =>
          if !r.stalls.isEmpty then
            tag .stalled (s.stallBundle (r.stalls.any (fun e => e.1)) (r.stalls.findSome? (fun e => e.2.1)) (r.stalls.map (fun e => e.2.2)))
          else
            match firstTrap r.traps with
            | some t => .next (s.enterTrap t b.addr, .faulted)
            | none => .next (r.s.endBundle, .issued)

/-! The boundary (R322). -/

/-- Whether a stream may do anything at its core's turn. -/
def Stream.ready (x : Stream) : Bool := !x.halted && !x.stopped && x.ending == 0

/-- Whether a halted stream is asked for pre-emption (R338). -/
def Stream.haltedStop (x : Stream) : Bool := x.halted && !x.stopped && x.ending == 0 && x.pre != 0

/-- Whether a stream asked for pre-emption stops at this boundary (R322, R327). -/
def State.preempts (s : State) (key : Nat) : Option State :=
  if !s.mayStop then none
  else
    let s1 := match execPreemptionStop key s with | .next t => t | _ => s
    if s1.cur.stopped then some s1
    else
      let s2 := match execDpbExpiry key s1 with | .next t => t | _ => s1
      if s2.cur.stopped then some s2 else none

/-- One stream's turn: the first condition of R322 that holds. -/
def State.streamTurn (s : State) (key : Nat) : Host.Outcome (State × Did) Fault Refusal :=
  let s := s.focus key
  if s.curLive && s.cur.haltedStop then .next ((s.preempts key).getD s, .other)
  else if !s.curLive || !s.cur.ready then .next (s, .other)
  else if s.cur.haltReq then .next (s.haltCur, .other)
  else if s.cur.hold.isNone && s.dbgMatch key s.cur && !s.cur.skipBp then .next (s.haltCur, .other)
  else if s.takesAsync then
    match execAsyncTrapDelivery key s with
    | .next t => .next (t, .other)
    | .fault f => .fault f
    | .refused q => .refused q
  else
    match s.preempts key with
    | some t => .next (t, .other)
    | none =>
      match s.cur.bundle with
      | some b => ({ s with cur := { s.cur with mark := .none } }).issueBundle b
      | none =>
        match execBundleFetch key { s with cur := { s.cur with mark := .none } } with
        | .next t =>
          match t.cur.bundle with
          | some b => t.issueBundle b
          | none =>
            if t.cur.mark = .stalled false none .nothing then
              (match t.stallBundle false none [] with
               | .next u => .next (u, .stalled)
               | .fault f => .fault f
               | .refused q => .refused q)
            else .next (t, .other)
        | .fault f => .fault f
        | .refused q => .refused q

/-! Two streams (R114, R115). -/

/-- Whether two bundles may issue in one cycle (R114). -/
def mayPair (a b : Bundle) : Bool :=
  a.slots.all (fun e => !b.slots.any (fun f => f.1 == e.1)) && decide (allotSum a.header + allotSum b.header ≤ 4)
    && !(a.slots ++ b.slots).any (fun e => match e.2 with | .bklock _ _ => true | _ => false)

/-- The bundle a stream is about to issue. -/
def State.nextBundle (s : State) (key : Nat) : Option Bundle :=
  let s := s.focus key
  match s.cur.bundle with
  | some b => some b
  | none => match s.fetchBundle with | .ok (b, _) => some b | .error _ => none

/-- Whether a stream's bundle was ready (R114). -/
def Did.ready : Did → Bool
  | .issued => true
  | .faulted => true
  | _ => false

/-- The secondary's turn in a cycle in which the primary did what `did` says with bundle `pb`: beside a bundle that issued it issues only under R114,
and not at all where that bundle stood in a hold (`alone`, R288). A ready bundle that is refused is counted (R115). -/
def State.secondTurn (s : State) (core : Nat) (did : Did) (pb : Option Bundle) (alone : Bool) : Host.Outcome State Fault Refusal :=
  let k := core * 2 + 1
  if (s.stream k).isNone then .next s
  else
    let refuse := did == .issued && (alone || !(match pb, s.nextBundle k with | some a, some b => mayPair a b | _, _ => true))
    match s.streamTurn k with
    | .fault f => .fault f
    | .refused r => .refused r
    | .next (t, qd) =>
      if refuse && qd.ready then .next (s.modStream k (fun x => { x with refused := x.refused + 1 }))
      else .next (t.modStream k (fun x => { x with refused := 0 }))

/-- Whether a stream stands in a BKLOCK hold (R288). -/
def State.holds (s : State) (key : Nat) : Bool := match s.stream key with | some x => x.hold.isSome | none => false

/-- The primary's turn, then the secondary's. A primary in a hold shares no cycle in which it issues (R288). -/
def State.bothTurns (s : State) (core : Nat) : Host.Outcome State Fault Refusal :=
  let p := core * 2
  let pb := if (s.stream (p + 1)).isSome then s.nextBundle p else none
  let alone := s.holds p
  match s.streamTurn p with
  | .fault f => .fault f
  | .refused r => .refused r
  | .next (t, did) => t.secondTurn core did pb alone

/-- A core's turn: the primary, unless it is held (R115) or the secondary holds banks and issues (R288), then the secondary. -/
def State.coreTurn (s : State) (core : Nat) : Host.Outcome State Fault Refusal :=
  let p := core * 2
  let s := match execStarvationHold core s with | .next t => t | _ => s
  let held := match s.stream p with | some x => x.starved | none => false
  if held then (s.modStream p (fun x => { x with starved := false })).secondTurn core .other none false
  else if s.holds (p + 1) then
    match s.streamTurn (p + 1) with
    | .fault f => .fault f
    | .refused r => .refused r
    | .next (t, did) =>
      if did = .issued then .next t
      else
        match t.streamTurn p with
        | .fault f => .fault f
        | .refused r => .refused r
        | .next (u, _) => .next u
  else s.bothTurns core

/-! The matrix unit's turn (R212, R225-R227). -/

/-- One micro-op of the core's running call, or its end. -/
def State.microTurn (s : State) (core : Nat) : Host.Outcome State Fault Refusal :=
  let s := s.focus (core * 2)
  match s.runCall with
  | none => execMatrixCallStart core s
  | some c =>
    match c.kind with
    | .mzero => execMatrixCallComplete core s
    | .mtran => execMatrixCallComplete core s
    | .routine _ =>
      if 2048 ≤ c.cycles then execCallCycleLimit core s
      else
        match decodeMicro (s.microWord c) with
        | none => .next s.microBad
        | some .exit => execMatrixCallComplete core s
        | some i => exec i s

end Sys2Proof.Machine
end

