-- ==== Sys2Proof/Machine/Cycle.lean ====
section
/-! DEFINITION. One step of the module: what may happen next, and doing it. Time passes, then one enabled action takes place: an input arrives,
a core, a matrix unit, an engine or an agent makes its next move. -/

namespace Sys2Proof.Machine

/-- Inputs on the management port and the rails, which arrive whatever the module is doing (R339, R374). -/
def isMgmt : Instr → Bool
  | .weigh => true
  | .scanReadout => true
  | .weighResume => true
  | .moduleReset => true
  | .setPlimit _ => true
  | .readTelemetry => true
  | .thermalReport _ _ => true
  | .standbyPowerOn _ _ _ => true
  | .unknownCommand _ code => code.bus
  | .mainPowerOn _ _ _ => true
  | _ => false

/-! Actions of streams and cores. -/

/-- Fetching ahead of issue, once a stream holds a line of code (R91). -/
def fetchActs (key : Nat) (x : Stream) : List Act :=
  if x.code.isEmpty || x.halted || x.stopped || x.ending ≠ 0 then []
  else x.code.map (fun l => .refetch key l.1) ++ [.ahead key]

/-- Results, fetching ahead, the window's agent, retirement, stops and slices of a stream. -/
def State.streamActs (s : State) (key : Nat) (x : Stream) : List Act :=
  (x.pend.filter (s.landable x)).map (fun p => .land key p.id)
    ++ (x.pend.map (fun p => ((upto 0 p.dram.length).zip p.dram).filterMap (fun r =>
          if r.2.stage = 3 || (r.2.stage = 1 && (s.refreshing r.2.pa || s.bankBusy (dramChan r.2.pa) (dramBank r.2.pa))) then none
          else some (Act.dram key p.id r.1)))).flatten
    ++ fetchActs key x ++ (if x.land.any (fun e => e.tgt.tests) then [.serveEv key] else [])
    ++ (if x.wantSpill && !x.pend.any (s.loadWaits x) then [.spill key] else [])
    ++ (if x.wantFill (s.rank x.slot) && !x.pend.any (s.loadWaits x) then [.fill key] else [])
    ++ (if (x.winAgent = 1 || x.winAgent = 2) && !s.windowWaits key x (x.winAgent == 1) then [.windowEnd key] else [])
    ++ (if x.ending ≠ 0 && s.workDone key x && !(x.winHeld && x.winAgent != 3 && x.flushing && !x.win.isEmpty)
          && !s.treqs.any (fun t => t.key == key && t.withdraw) then [.retire key] else [])
    ++ (if x.stopped && !x.atDrain && decide (x.stopAt + (s.ctxAt x.ctx).drainlim.toNat ≤ s.cycle.toNat)
          && s.ops.any (fun o => o.key == key && o.queued && o.status.isNone && !o.cut) then [.drainlim key] else [])
    ++ (if x.stopped && s.saveReady key x && (s.ctxAt x.ctx).freeArea.isSome then [.save key] else [])
    ++ (if !x.halted && !x.stopped && x.ending == 0 && decide (x.sliceAt + (s.ctxAt x.ctx).slice ≤ s.cycle.toNat) then [.sliceEnd key] else [])

/-- The cores that have a stream which may act, or a halted one to be stopped (R338). -/
def coresReady (xs : List (Nat × Stream)) : List Act := (((xs.filter (fun e => e.2.ready || e.2.haltedStop)).map (fun e => e.1 / 2)).eraseDups).map .core

/-- The matrix units that may act: a running call, or a head that may start; that of a halted stream only when the stream is pre-empted (R212, R230, R338). -/
def State.unitActs (s : State) : List Act :=
  s.allCores.filterMap (fun e =>
    match e.2.calls with
    | [] => none
    | q :: _ =>
      let halted := match s.stream q.key with | some x => x.halted && !x.stopped | none => false
      if q.running || (!halted && decide (q.issued + 4 ≤ s.cycle.toNat)) then some (.unit e.1) else none)

/-! Actions of engines and agents. -/

/-- The next move of an engine operation. -/
def State.opActs (s : State) (o : Op) : List Act :=
  match o.kind with
  | .send _ _ _ _ =>
    if o.moved = 0 then (if !(s.rank o.slot).chanStop && !s.relBehind o then [.send o.id] else []) else if s.awaitsAck o then [.foreignAck o.id] else []
  | .trap => [.trapIn o.key]
  | .coll d =>
    let r := s.rank o.slot
    if o.moved = 0 then (if s.relBehind o || !s.collRoom o.ctx r.job d o.piece then [] else [.contribute o.id])
    else
      match s.coll r.ctx r.job d.cid with
      | some c =>
        if (d.kind = 1 && r.vrank.toNat ≠ d.root) || c.status ≠ 0 || (if o.piece = 0 then c.result.isSome else c.final) then [.collEnd o.slot d.cid] else []
      | none => []
  | .dec _ _ _ => [.decrement o.id]
  | .gran _ _ _ t =>
    let earlier := (s.ops.takeWhile (fun p => p.id != o.id)).any (fun p => match p.kind with | .gran _ _ _ u => u == t | _ => false)
    let taker := s.allStreams.any (fun e => s.isTask e.2 t && e.2.recvSlot.isSome)
    if s.refDrop t || (taker && !earlier) then [.granule o.id] else []
  | .spill _ => []
  | _ =>
    if o.status.isSome then [.opEnd o.id]
    else
      let halted := match s.stream o.key with | some x => x.halted | none => true
      if o.cut || (!o.started && halted) || s.blkBehind o then [] else [.piece o.id]

/-- The next move of a Tulle request. -/
def State.reqActs (s : State) (t : TReq) : List Act :=
  (if s.tulleNext t then [if t.kind = .dep then .deposit t.id else .matchReq t.id] else [])
    ++ (if s.cancelNext t then [.cancelReq t.id] else []) ++ (if t.leaving then [.withdrawReq t.id] else [])
    ++ (if (t.state = 5 || t.state = 6) && !(s.foreignAnswers t).isEmpty && !s.front.pkts.any (fun p => match p.kind with | .tulleAns r _ _ => r == t.id | _ => false)
          then [.foreignTulle t.id] else [])
    ++ (if t.state = 6 && (t.cancel.isSome || t.withdraw) && (s.mapNode t.ctx (t.job.getD 0) 0).isSome then [.sendEnd t.id] else [])

/-- The next move of a packet for a rank: it waits while the rank is not ACTIVE here (R74, R382), goes on to the module that has the rank, or is delivered,
after those before it that wait. -/
def State.rankPkt (s : State) (p : Pkt) (deliver : List Act) : List Act :=
  if (s.deliverP p).isSome then (if s.heldBefore p then [] else deliver)
  else if (!p.held && !p.full) || s.callsBack p then [.hold p.id]
  else if (s.goesTo p).isSome && !s.heldBefore p && s.mayLeave p then [.release p.id]
  else []

/-- The next move of a packet. -/
def State.pktActs (s : State) (p : Pkt) : List Act :=
  let go (a : Act) : List Act := [if p.held then .release p.id else a]
  match p.kind with
  | .ack _ _ _ _ _ => if (s.slotOfRank p.ctx p.job p.rank).isSome then [.acceptance p.id] else []
  | .caught _ _ => [.message p.id]
  | .commit step => if (match s.jobNo p.job with | some (_, j) => step == j.next + 1 | none => false) then [] else [.message p.id]
  | .mapupd _ _ _ => [.message p.id]
  | .mapack _ => [.message p.id]
  | .tulleAns r _ _ => if s.treqs.any (fun t => t.id == r && s.answerHeld t) then [] else [.message p.id]
  | .tulleEnd _ _ _ => [.message p.id]
  | .msg _ _ _ _ op =>
    let behind := match s.ops.find? (fun o => o.id == op) with | some o => s.relBehind o | none => false
    if p.full && (s.deliverP p).isSome then [.retry ((s.deliverP p).getD 0)] else s.rankPkt p (if behind then [] else go (.arrival p.id))
  | .tulle _ => s.rankPkt p [.release p.id]
  | .tulleReq _ _ => s.rankPkt p [.release p.id]
  | .node d v _ _ => s.rankPkt p (if s.collRoom p.ctx p.job d v.piece then go (.contribute p.id) else [])
  | _ => s.rankPkt p (go (.contribute p.id))

/-- Waiting granules and buckets of a rank. -/
def State.rankActs (s : State) (slot : Nat) (r : Rank) : List Act :=
  (r.waiting.filter (fun w => !s.treqs.any (fun t => t.detach && t.inGran w.core w.gran))).map (fun w => .waiting slot (w.core * 16 + w.gran))
    ++ (r.buckets.filter (fun (e : Nat × Bucket) => e.2.full)).map (fun (e : Nat × Bucket) => .bucket slot e.1)
    ++ (r.buckets.filter (fun (e : Nat × Bucket) => e.2.off)).map (fun (e : Nat × Bucket) => .disarmed slot e.1)
    ++ (if s.catchDue slot then [.caught slot] else [])
    ++ (if r.evictDue && (!s.mayEvict slot || !r.waiting.isEmpty || !s.tierBusy) then [.evictStart slot] else [])
    ++ (if r.state = .evicting then [.evictEnd slot] else [])
    ++ (if r.recallDue && r.state == .cold && !s.tierBusy
          && (decide (s.inH < 64) || (!s.front.ranks.any (fun e => e.2.evictDue || e.2.state == .evicting) && decide (s.coldCount < 1024)
            && s.victim.any (fun v => !s.lp6Full v))) then [.recallStart slot]
        else [])
    ++ (if r.state = .recalling then [.recallEnd slot] else [])

/-- Whether a queue's head has something to do (R25, R37, R38, R349). -/
def State.headDue (s : State) (c q : Nat) (x : Ctx) : Bool :=
  match headOf (x.queues.at q []) with
  | none => false
  | some l =>
    !l.checked || (decide (x.weight q ≠ 0) && !l.started && (s.stale c l || (!s.headWaits c l && x.ev &&& l.mask 8 == l.mask 8)))

/-- The heats of a deterministic launch on a rank (R347). -/
def State.heatActs (s : State) (c q : Nat) (l : Launch) (r : LRank) : List Act :=
  if !l.det || !l.started then []
  else
    match s.heats l r.slot with
    | none => []
    | some hs =>
      if !r.heatDone then
        (if r.heatOver hs (r.nowHeat hs) && ((s.rank r.slot).state == .active || r.discarded) then [.heatCommit c q l.serial r.slot] else [])
      else if hs.any (fun e => decide (r.heat < e.2)) then [.nextHeat c q l.serial r.slot]
      else []

/-- Launches of one queue: their head, their end, their heats, their next tasks (R38, R44, R346). -/
def State.queueActs (s : State) (c q : Nat) (x : Ctx) : List Act :=
  let ls := x.queues.at q []
  if ls.isEmpty then []
  else
    (if s.headDue c q x then [.head c q] else [])
      ++ (ls.filter (fun l => !l.done && l.finished && !s.heatsOpen l)).map (fun l => .launchEnd c q l.serial)
      ++ (ls.map (fun l => (l.ranks.map (s.heatActs c q l)).flatten)).flatten
      ++ ((s.startable c q).map (fun t =>
          let go : List Act := [.start c q t.1.serial t.2.1.slot t.2.2.1]
          match t.2.2.2 with
          | .wait => []
          | .bad _ => go
          | .good e => if (s.chooseCore c q t.1 t.2.1.slot e).isSome && s.winner c q && !s.resumable (c, q) then go else [])).flatten

/-- A core's light saves as though their granules had been saved. -/
def State.withoutLight (s : State) (core : Nat) : State :=
  let full (v : Saved) : Saved := if v.core = core then { v with full := true } else v
  { s with front := { s.front with ctxs := s.front.ctxs.map (fun (e : Nat × Ctx) => (e.1, { e.2 with saved := e.2.saved.map full })) } }

/-- Whether the granules of a core's light saves are wanted (R331): a startable task, or one that a full save holds, finds no core, and would find this one
without them. -/
def State.gransWanted (s : State) (core : Nat) : Bool :=
  let t := s.withoutLight core
  s.queues.any (fun e => (s.startable e.1 e.2).any (fun u =>
    match u.2.2.2 with
    | .good d =>
      d.grans != 0 && (s.chooseCore e.1 e.2 u.1 u.2.1.slot d).isNone && (s.coreOrder e.1 e.2 u.1.lid u.2.1.slot u.1.widths d.wid).contains core
        && (t.fitsFree core d || t.fitsBeside core e.1 d)
    | _ => false))
    || s.front.ctxs.any (fun e => e.2.saved.any (fun v =>
      v.full && e.2.weight v.stream.queue != 0 && !v.stream.lgran.isEmpty && (upto 0 512).all (fun k => !s.fitsSaved v k) && t.fitsSaved v core))

/-- Saved streams of a context: restores, and light saves whose granules are wanted. -/
def State.savedActs (s : State) (c : Nat) (x : Ctx) : List Act :=
  (x.saved.map (fun v =>
    let q := v.stream.queue
    (if x.weight q ≠ 0 && s.winner c q then
       (upto 0 512).filterMap (fun k => (s.savedSeat v k).map (fun key => Act.restore c v.area key)) else [])
      ++ (if !v.full && !v.stream.lgran.isEmpty && s.gransWanted v.core then [.toFull (savedKey c v.area)] else []))).flatten

/-- A context's actions. -/
def State.ctxActs (s : State) (c : Nat) (x : Ctx) : List Act :=
  (if x.cqHeld.isEmpty || 2 ^ x.cqlog.toNat ≤ x.unconsumed then [] else [.record c])
    ++ (x.queues.map (fun (e : Nat × List Launch) => s.queueActs c e.1 x)).flatten ++ s.savedActs c x

/-- Pending writes, writes between dies, and DRAM refresh. -/
def State.memActs (s : State) : List Act :=
  (s.mem.wq.filter s.writeMay).map (fun w => .write w.id)
    ++ (s.mem.rq.filter s.mem.mayApply).map (fun r => .apply r.id)
    ++ (s.mem.chans.filter (fun (e : Nat × PChan) =>
          if e.2.allDue then !(upto 0 16).any (s.bankBusy e.1) else e.2.due.any (fun b => !s.bankBusy e.1 b))).map (fun e => .refreshGo e.1)
    ++ (s.mem.chans.map (fun (e : Nat × PChan) => e.2.busy.map (fun b => Act.refreshEnd (e.1 / 64) (e.1 % 64) b))).flatten
    ++ (s.mem.chans.filter (fun (e : Nat × PChan) => !e.2.owed.isEmpty && e.2.busy.isEmpty && e.2.due.isEmpty && !e.2.allDue && !s.latReq e.1 none
          && decide (e.2.lastLat + 400 ≤ s.cycle.toNat))).map (fun e => .payOwed (e.1 / 64) (e.1 % 64))

/-- The next move of a migration (R355-R357). -/
def State.migrActs (s : State) (m : Migr) : List Act :=
  if m.phase = 0 then
    (if s.deferralOver m.slot then [.deferralEnd m.slot]
     else if s.migDeferred m.slot && decide (m.since + m.waitus * s.mgmt.clock ≤ s.cycle.toNat) then [.waitExpiry m.slot] else [])
  else if m.phase = 1 then [.transfer m.slot]
  else if m.waits.isEmpty then [.migrated m.slot]
  else (m.waits.filter (fun n => n != s.mgmt.node.toNat)).map (.mapAck m.slot)

/-- The front's other actions. -/
def State.frontActs (s : State) : List Act :=
  (s.front.shoots.filter (fun h => !s.shootOpen h)).map (fun h => .shootAck h.id)
    ++ (s.front.bumpSeqs.filter (fun e => s.front.ranks.all (fun r =>
          r.2.state == .free || r.2.ctx != e.1 || r.2.state == .active || r.2.state == .cold))).map (fun e => .bumpEnd e.1 (BitVec.ofNat 24 e.2.1))
    ++ (s.front.migrs.map s.migrActs).flatten ++ (s.front.arrivals.filter (fun a => (s.rank a.dslot).state == .arriving || s.mayArrive a)).map (fun a => .transfer a.dslot)
    ++ s.mgmt.fenceDue.map (fun u => .fence u.1 u.2)

/-- Everything that may happen next. -/
def State.acts (s : State) : List Act :=
  let inp : List Act := if s.inbox.isEmpty then [] else [.input]
  if s.mgmt.weighed then (if s.inbox.any isMgmt then [.input] else [])
  else if s.mgmt.power ≠ .on then inp
  else
    let xs := s.allStreams
    inp ++ coresReady xs ++ (xs.map (fun e => s.streamActs e.1 e.2)).flatten ++ s.unitActs ++ (s.ops.map s.opActs).flatten
      ++ (s.treqs.map s.reqActs).flatten ++ (s.front.pkts.map s.pktActs).flatten ++ (s.front.ranks.map (fun e => s.rankActs e.1 e.2)).flatten
      ++ (s.front.ctxs.map (fun e => s.ctxActs e.1 e.2)).flatten ++ s.memActs ++ s.frontActs

/-! Doing one. -/

/-- The next input, as far as the module takes it: while it is weighed, management's alone. -/
def State.takeInput (s : State) : Host.Outcome State Fault Refusal :=
  let rest := s.inbox.dropWhile (fun i => s.mgmt.weighed && !isMgmt i)
  match rest with
  | [] => .next s
  | i :: _ =>
    let at' := s.inbox.length - rest.length
    exec i { s with inbox := s.inbox.eraseIdx at' }

/-- A message between fronts or slices that has arrived here. -/
def State.takeMessage (s : State) (id : Nat) : Host.Outcome State Fault Refusal :=
  match s.pkt id with
  | none => .next s
  | some p =>
    let s := s.dropPkt id
    match p.kind with
    | .caught step n => execCaughtMessage p.job step n s
    | .commit step => execCommitMessage p.job step s
    | .mapupd r n d => execMapupd p.job r n d s
    | .mapack n => .next (s.ackMap p.job p.rank n)
    | .tulleAns req f st => .next (s.takeAnswer req f st)
    | .tulleEnd node req w => .next (s.takeEndOf node req w)
    | _ => .next s

/-- A piece of an engine operation. -/
def State.takePiece (s : State) (id : Nat) : State := match s.ops.find? (fun o => o.id == id) with | some o => s.opStep o | none => s

/-- A TCAN or withdrawal sets out for the module where its request is parked. -/
def State.takeSendEnd (s : State) (id : Nat) : State := match s.treqs.find? (fun t => t.id == id) with | some t => s.sendEnd t | none => s

/-- A send reads and delivers. -/
def State.takeSend (s : State) (id : Nat) : State := match s.ops.find? (fun o => o.id == id) with | some o => s.sendStep o | none => s

/-- The completion of an operation that has stopped moving data. -/
def State.takeEnd (s : State) (id : Nat) : Host.Outcome State Fault Refusal :=
  match s.ops.find? (fun o => o.id == id) with
  | none => .next s
  | some o =>
    match o.kind with
    | .copy _ => execCopyComplete id s
    | .fill _ _ _ => execLoadBlockFillComplete id s
    | .evict _ _ _ => execLoadBlockEvictComplete id s
    | .nm _ => execNmopComplete id s
    | _ => .next s

/-- The queues that an action of no queue's own has let contend take the maximum rule (R49). -/
def waking (old : State) (o : Host.Outcome State Fault Refusal) : Host.Outcome State Fault Refusal :=
  match o with
  | .next t => .next (t.wakeAll old)
  | o => o

/-- Does an action. -/
def State.act (s : State) : Act → Host.Outcome State Fault Refusal
  | .input => waking s s.takeInput
  | .core n => s.coreTurn n
  | .unit n => s.microTurn n
  | .land k i => execScoreboardResultLands k i s
  | .dram k i n => .next (s.dramStep k i n)
  | .refreshGo ch => .next (s.startDue ch)
  | .refetch k l => .next (s.refetch k (l + 4 * (Config.freeSched s.tick % 32)))
  | .ahead k => .next (s.fetchAhead k (Config.freeSched s.tick))
  | .serveEv k => .next (s.serveEv k)
  | .trapIn k => .next (s.trapArrives k)
  | .spill k => execSpill k s
  | .fill k => execFill k s
  | .windowEnd k => execSpillFillComplete k s
  | .retire k => execTaskRetire k s
  | .drainlim k => execDrainlimExpiry k s
  | .save k => execContextSave k s
  | .restore c a k => execContextRestore c a k s
  | .toFull k => execPreemptionRequest k true s
  | .sliceEnd k => execSliceEnd k s
  | .piece i => .next (s.takePiece i)
  | .opEnd i => s.takeEnd i
  | .send i => .next (s.takeSend i)
  | .contribute i => execCollectiveContribution i s
  | .collEnd sl c => execCollectiveComplete sl c s
  | .decrement i => execPredecessorDecrement i s
  | .granule i => execGranuleDelivery i s
  | .deposit i => execTulleDepositProcess i s
  | .matchReq i => execTulleMatchProcess i s
  | .cancelReq i => execTulleCancelProcess i s
  | .withdrawReq i => execTulleWithdrawal i s
  | .sendEnd i => .next (s.takeSendEnd i)
  | .waiting sl g => execDetachedGranuleDelivery sl g s
  | .bucket sl n => execBucketFire sl n s
  | .disarmed sl n => .next (s.disarmed sl n)
  | .caught sl => .next (s.checkCaught sl)
  | .arrival i => execChannelArrival i s
  | .retry sl => execHeldArrivalRetry sl s
  | .acceptance i => execSendAcceptance i s
  | .hold i => execPacketHold i s
  | .release i => execHeldPacketRelease i s
  | .message i => waking s (s.takeMessage i)
  | .record c => execCompletionRecordWrite c s
  | .head c q => execLaunchHead c q s
  | .start c q n sl t => execTaskStart c q n sl t s
  | .launchEnd c q n => execLaunchRetire c q n s
  | .heatCommit c q n sl => execHeatCommit c q n sl s
  | .nextHeat c q n sl => execNextHeatStart c q n sl s
  | .write i => execWritePerformed i s
  | .apply i => execIncomingWriteApply i s
  | .refreshEnd st pc b => waking s (execRefreshEnd st pc b s)
  | .payOwed st pc => execOwedRefreshPayment st pc s
  | .shootAck i => execShootdownAck i s
  | .bumpEnd c b => waking s (execBumpComplete c b s)
  | .evictStart sl => execEvictionStart sl s
  | .evictEnd sl => execEvictionComplete sl s
  | .recallStart sl => execRecallStart sl s
  | .recallEnd sl => execRecallComplete sl s
  | .deferralEnd sl => execDeferralEnd sl s
  | .waitExpiry sl => execMigrationWaitExpiry sl s
  | .transfer sl => waking s (execMigrationTransfer sl s)
  | .migrated sl => execMigrationComplete sl s
  | .mapAck sl n => .next (s.ackMap (s.rank sl).job (s.rank sl).vrank.toNat n)
  | .foreignTulle i => .next (s.foreignTulle i)
  | .foreignAck i => .next (s.foreignAck i)
  | .fence u control => execErrorCountFence u 65 0 control s

/-! Time. -/

/-- The virtual time of a queue grows by ⌊65,536 / w⌋ for a stream that a task of it holds (R49); a halted stream is not charged (R338). That one stopped for
its save is charged nothing while it drains, and nothing is charged at weight 0, are the model's choices (log 56). -/
def State.charge (s : State) : State :=
  (s.allStreams.filter (fun e => !e.2.halted && !e.2.stopped)).foldl (fun (s : State) e =>
    let w := (s.ctxAt e.2.ctx).weight e.2.queue
    if w = 0 then s else s.setVt e.2.ctx e.2.queue (s.vt e.2.ctx e.2.queue + 65536 / w)) s

/-- A halted stream's slice stands still (R338). -/
def State.holdSlices (s : State) : State :=
  (s.allStreams.filter (fun e => e.2.halted)).foldl (fun (s : State) e => s.modStream e.1 (fun x => { x with sliceAt := x.sliceAt + 1 })) s

/-- One cycle passes. A weighed module counts none (R339). -/
def State.advance (s : State) : State :=
  let s := { s with tick := s.tick + 1 }
  if s.mgmt.weighed || s.mgmt.power ≠ .on then s else ({ s with cycle := s.cycle + 1 }).charge.holdSlices

/-- A free choice among the enabled actions (R1, R384). -/
def pickAct (t : Nat) : List Act → Option Act
  | [] => none
  | [a] => some a
  | l => l[Config.freeSched t % l.length]?

/-- Which of the enabled actions takes place: the first that may be passed over no longer, or a free choice (R1, R384). -/
def State.pick (s : State) (as : List Act) : Option Act :=
  match s.late.find? (fun e => e.2 == 0 && as.contains e.1) with
  | some e => some e.1
  | none => pickAct s.tick as

/-- The actions passed over when one takes place: each that stays enabled loses a turn of its patience, and a new one has any finite patience
(R384). -/
def State.passOver (s : State) (as : List Act) (a : Act) : List (Act × Nat) :=
  let old := (s.late.filter (fun e => as.contains e.1)).map (fun e => (e.1, e.2 - 1))
  let new := ((upto 0 as.length).zip as).filterMap (fun e =>
    if s.late.any (fun o => o.1 == e.2) then none else some (e.2, Config.freeWait s.tick e.1))
  (old ++ new).filter (fun e => e.1 != a)

/-- One step of the module. -/
def State.cycleStep (s : State) : Host.Outcome State Fault Refusal :=
  let s := s.advance
  match s.pick s.acts with
  | some a => ({ s with late := s.passOver s.acts a }).act a
  | none => .next s

/-! Placing one instruction (log 40). -/

/-- The slot in which a word given without its bundle is placed: the first kind that decodeTableWord reads it in. -/
def tableSlot (w : Word32) : Slot :=
  match decodeSlot .s w, decodeSlot .v w, decodeSlot .c w, decodeSlot .m w, decodeSlot .k w with
  | .ok _, _, _, _, _ => .s
  | _, .ok _, _, _, _ => .v0
  | _, _, .ok _, _, _ => .c0
  | _, _, _, .ok _, _ => .m
  | _, _, _, _, .ok _ => .k
  | _, _, _, _, _ => .s

/-- The header of a bundle of one slot with all the read ports it may have, guarded by p0 (R77, R78). -/
def loneHeader : Slot → Word32
  | .s => 0x7A000000
  | .v0 => 0x79060000
  | .v1 => 0x78818000
  | .m => 0x78406000
  | .c0 => 0x78201000
  | .c1 => 0x78100800
  | .k => 0x78080000

/-- The bytes of a bundle of one word, which bit 31 ends (R76). -/
def fetchBytes (w : Nat) : List Byte :=
  leBytes (loneHeader (tableSlot (BitVec.ofNat 32 w))).toNat 4 ++ leBytes (2 ^ 31 + w % 2 ^ 31) 4

/-- A task's stream at the first byte of its only granule. -/
def fetchStream : Stream :=
  { grans := 1, lgran := [(0, 0)], codebase := BitVec.ofNat 64 Config.spwbase, pc := BitVec.ofNat 64 Config.spwbase }

/-- A running call of stream 0 at micro address 0. -/
def fetchCall : Call :=
  { key := 0, kind := .routine 0, mask := upto 0 8, tiles := upto 0 8, running := true }

end Sys2Proof.Machine
end

