-- ==== Sys2Proof/Machine/Step.lean ====
section
/-! DEFINITION. The step of the module, and the placing of one instruction where the next step fetches it. -/

namespace Sys2Proof.Machine

/-- One cycle of the module (R1, R384): time passes, then one of the enabled actions takes place, or none is enabled. -/
def step (s : State) : Host.Outcome State Fault Refusal := s.cycleStep

/-- The state with one instruction where the next step fetches it: the module has power, and the only stream that may act is the
primary of core 0, at a bundle of that one word in a granule it holds (log 40); a micro-word stands at the micro address of a running
call of core 0 instead. -/
def State.withFetchWord (s : State) (nbits w : Nat) : State :=
  let s := { s with inbox := [], streams := [], curKey := 0, curLive := true, mgmt := { s.mgmt with power := .on, weighed := false } }
  if nbits ≤ 32 then { s with cur := fetchStream, mem := { s.mem with spad := s.mem.spad.put 0 (fetchBytes w) } }
  else
    let x : Stream := { fetchStream with ending := 1 }
    { s with cur := x, core := { s.core with store := s.core.store.set (x.partBase 0) (BitVec.ofNat 64 w), calls := [fetchCall] } }

end Sys2Proof.Machine
end

