-- ==== Sys2Proof/Safety.lean ====
section
/-! DEFINITION. What the claims are stated in: the canonical form of the state's memories, what a safe run is, and the words of the
statements: what an instruction writes, where an exception goes, what a standing module keeps. -/

namespace Sys2Proof.Machine

/-- Every sparse memory of the module is in canonical form, so that equal memories are equal data. -/
def State.Canon (s : State) : Prop :=
  s.mem.hbm.wf = true ∧ s.mem.spad.wf = true ∧ s.mem.fe.wf = true ∧ s.mem.clocks.wf = true

/-- A run of n steps that neither faults nor refuses, from a state to a state. -/
inductive Runs : Nat → State → State → Prop where
  | here (s : State) : Runs 0 s s
  | more (n : Nat) (s t u : State) : step s = .next t → Runs n t u → Runs (n + 1) s u

/-- A safe run: every step of it answers a next state. -/
def State.Safe (s : State) : Prop := ∀ n, ∃ t, Runs n s t

/-! Words of the statements. -/

/-- The low 32 bits of a register. -/
def lo32 (v : Word64) : Word32 := v.setWidth 32

/-- A 32-bit result in its register: zero-extended when unsigned, sign-extended otherwise (R139). -/
def ext32 (u : Bool) (v : Word32) : Word64 := if u then v.setWidth 64 else v.signExtend 64

/-- An instruction issues and leaves one exposed result of latency L on its way to a target, with flags; everything else of the state,
registers, flags, memory and every other record, stands as it was (R108). -/
def State.Writes (s : State) (i : Instr) (L : Nat) (t : Tgt) (fl : Flags := 0) : Prop :=
  exec i s = .next { s with cur := { s.cur with land := s.cur.land ++ [⟨s.cur.pos + L, s.slotRank, s.cur.pos, t, fl⟩] } }

/-- An instruction issues and changes nothing but where the next bundle stands (R148). -/
def State.Jumps (s : State) (i : Instr) (a : Word64) : Prop := exec i s = .next { s with cur := { s.cur with npc := a } }

/-- An instruction raises a trap and has no other effect: the entry of R320 from the state before it. -/
def State.Traps (s : State) (i : Instr) (t : TrapRec) : Prop := exec i s = .next (s.enterTrap t s.cur.pc)

/-- The conditions of CMP on W-bit operands (R140). -/
def cmpHolds {n : Nat} (c : Cond) (x y : BitVec n) : Bool :=
  match c with
  | .eq => x == y
  | .ne => x != y
  | .lt => x.slt y
  | .ge => !x.slt y
  | .ltu => x.ult y
  | .geu => !x.ult y
  | .le => x.sle y
  | .leu => x.ule y

/-- The cells of a line operand after its 64 values stand in them (R80). -/
def State.WritesLine (s : State) (i : Instr) (L : Nat) (d : Line) (vs : List Word32) (fl : Flags := 0) : Prop :=
  s.Writes i L (.cells ((s.lineKeys d).zip vs)) fl

/-- Element k of lane l of a source (R80, R121). -/
def State.elemAt (s : State) (f : Fmt) (a : VSrc) (l k : Nat) : Nat := elem f s.cur.efr ((s.readSrc a).getD l 0) k

/-- A V-slot instruction of latency L writes the line d: element k of lane l takes g l k, bits that no element occupies are zero, and the flags
of all elements are merged (R121, R161). -/
def State.WritesElems (s : State) (i : Instr) (L : Nat) (f : Fmt) (d : Line) (g : Nat → Nat → Nat × Flags) : Prop :=
  ∃ (vs : List Word32) (fl : Flags), s.WritesLine i L d vs fl ∧ vs.length = 64 ∧
    (∀ l k, l < 64 → k < Fmt.count f s.cur.efr → elem f s.cur.efr (vs.getD l 0) k = (g l k).1) ∧
    (∀ l, l < 64 → (vs.getD l 0).toNat < 2 ^ (Fmt.width f s.cur.efr * Fmt.count f s.cur.efr)) ∧
    (∀ b, b < 7 → (fl.getLsbD b = true ↔ ∃ l k, l < 64 ∧ k < Fmt.count f s.cur.efr ∧ (g l k).2.getLsbD b = true))

/-- A V-slot instruction of latency L writes the line d: lane l takes the cell g l, and the flags of all lanes are merged (R161). -/
def State.WritesLanes (s : State) (i : Instr) (L : Nat) (d : Line) (g : Nat → Word32 × Flags) : Prop :=
  ∃ (vs : List Word32) (fl : Flags), s.WritesLine i L d vs fl ∧ vs.length = 64 ∧ (∀ l, l < 64 → vs.getD l 0 = (g l).1) ∧
    (∀ b, b < 7 → (fl.getLsbD b = true ↔ ∃ l, l < 64 ∧ (g l).2.getLsbD b = true))

/-- The cell of lane l of a source (R80). -/
def State.laneOf (s : State) (a : VSrc) (l : Nat) : Word32 := (s.readSrc a).getD l 0

/-- The value of element k of lane l of a source (R117, R122-R124). -/
def State.valAt (s : State) (f : Fmt) (a : VSrc) (l k : Nat) : Ex := Fmt.val f s.cur.efr (s.elemAt f a l k)

/-- An exact result with its own flags, narrowed once into an element in the mode RMV; an I32 result wraps or clamps (R122, R129, R161). -/
def State.oneRounding (s : State) (f : Fmt) (sat : Bool) (z : Ex × Flags) : Nat × Flags :=
  ((arith f s.cur.efr z.1 s.cur.rmv sat).1, z.2 ||| (arith f s.cur.efr z.1 s.cur.rmv sat).2)

/-- Node i at a level of the pairwise tree over 64 leaves: a leaf, or the sum of nodes 2i and 2i + 1 of the level below (R136). -/
def treeNode (add : Nat → Nat → Nat × Flags) (leaf : Nat → Nat) : Nat → Nat → Nat
  | 0, i => leaf i
  | n + 1, i => (add (treeNode add leaf n (2 * i)) (treeNode add leaf n (2 * i + 1))).1

/-! Conditions under which an access completes: each on the state and the address alone. -/

/-- Every one of n bytes at a lies in a granule that the stream x holds, as a core sees its window (R231). -/
def Stream.inGrans (x : Stream) (core a n : Nat) : Prop := ∀ b, a ≤ b → b < a + n → inWindow b = true ∧ ∃ k, x.winKey core b = .ok k

/-- No stream of the module holds banks, and no word of a scratchpad is uncorrectable (R288, R342). -/
def State.calm (s : State) : Prop := (∀ e ∈ s.allStreams, e.2.hold = none) ∧ s.mem.bad = []

/-- The leaf of an address that an access of kind k of the focused stream finds without a walk (R62). -/
def State.heldLeaf (s : State) (a : Nat) (k : AKind) : Option Tlb :=
  tlbFind (if k.engine then (s.crews.at (s.curKey / 16) {}).tlb else (s.coreOf (s.curKey / 2)).tlb) s.cur.slot a

/-- n bytes at a global address a lie in one page whose leaf e the TLB of the focused stream's access holds, and no rule of R67 or R72 stops an access of
kind k to them. -/
def State.mapped (s : State) (a n : Nat) (k : AKind) (e : Tlb) : Prop :=
  a + n ≤ Config.spwbase ∧ 0 < n ∧ a % 4096 + n ≤ 4096 ∧ s.heldLeaf a k = some e ∧ e.psn = false ∧
    s.poisoned (e.phys a) = false ∧ (k.writes = true → e.w = true) ∧ (k = .fetch → e.x = true) ∧ (e.home = 3 → e.hcore = s.curKey / 2) ∧
    hbmExists (e.phys a) = true ∧ (s.ctxAt s.cur.ctx).bumps.contains e.buf.toNat = false

/-- The focused stream reaches n bytes at a with an access of kind k: they lie in granules it holds, or every page of them is mapped so. -/
def State.reaches (s : State) (a n : Nat) (k : AKind) : Prop :=
  s.cur.inGrans (s.curKey / 2) a n ∨ ∀ r ∈ cut 4096 a n, ∃ e, s.mapped r.1 r.2 k e

/-- A K-slot or window instruction on n bytes at a, aligned to u: the faults of R184 in their order, an uncorrectable word of a load (R342),
and what it does when none applies and no other stream holds its banks (R288). -/
def State.Windowed (s : State) (i : Instr) (a : Word64) (u n : Nat) (k : AKind) (done : List Piece → State) : Prop :=
  (a.toNat % u ≠ 0 → s.Traps i { cause := 0x04, addr := a }) ∧
  (∀ t, a.toNat % u = 0 → s.cur.winPieces (s.curKey / 2) a.toNat n k = .error t → s.Traps i { t with addr := a }) ∧
  (∀ ps, a.toNat % u = 0 → s.cur.winPieces (s.curKey / 2) a.toNat n k = .ok ps → k = .load → ps.any (fun p => p.bad s.mem) = true →
    s.Traps i { trap68 0x08 a.toNat 0xF k 0x21 with addr := a }) ∧
  (∀ ps, a.toNat % u = 0 → s.cur.winPieces (s.curKey / 2) a.toNat n k = .ok ps → (k = .load → ps.any (fun p => p.bad s.mem) = false) →
    s.bankHeld s.curKey (winKeys ps) = false → exec i s = .next (done ps)) ∧
  (a.toNat % u = 0 → s.cur.inGrans (s.curKey / 2) a.toNat n → s.calm →
    ∃ ps, s.cur.winPieces (s.curKey / 2) a.toNat n k = .ok ps ∧ exec i s = .next (done ps))

/-- A C-slot access to n bytes at a, aligned to al: the faults of R237 in their order, BKLOCK in a hold (R289), an uncorrectable word of a
load (R342), and what it does, from the state after its translation, when none applies and nothing it waits for stands (R72, R288), nor what `wait`
says (R255); it completes in granules the stream holds, and in a page whose leaf the core's TLB holds, under conditions on the state and the
address alone. -/
def State.Accesses (s : State) (i : Instr) (a : Word64) (n al : Nat) (k : AKind) (done : List Piece → State → State)
    (wait : List Piece → State → Bool := fun _ _ => false) : Prop :=
  (a.toNat % al ≠ 0 → s.Traps i { cause := 0x04, addr := a }) ∧
  (a.toNat % al = 0 → s.inHold = true → inWindow a.toNat = false → s.Traps i (bkTrap 0x60 a)) ∧
  (∀ t, a.toNat % al = 0 → (s.inHold = true → inWindow a.toNat = true) →
    s.pieces s.cur (s.curKey / 2) a.toNat n k = .error t → s.Traps i { t with addr := a }) ∧
  (∀ ps u, a.toNat % al = 0 → s.inHold = false → s.pieces s.cur (s.curKey / 2) a.toNat n k = .ok (ps, u) → u.inHold = false → k = .load →
    ps.any (fun p => p.bad u.mem) = true → s.Traps i { trap68 0x08 a.toNat 0xF k 0x21 with addr := a }) ∧
  (∀ ps u, a.toNat % al = 0 → (s.inHold = true → inWindow a.toNat = true) → s.pieces s.cur (s.curKey / 2) a.toNat n k = .ok (ps, u) →
    (u.inHold = true → (winKeys ps).all (fun e => e.1 / 2 ^ 20 == u.curKey / 2) = true) →
    (k = .load → ps.any (fun p => p.bad u.mem) = false) → ps.any (u.bumping u.cur.ctx) = false →
    u.bankHeld u.curKey (winKeys ps) = false → wait ps u = false → exec i s = .next (done ps u)) ∧
  (a.toNat % al = 0 → s.inHold = false → s.cur.inGrans (s.curKey / 2) a.toNat n → s.calm →
    ∃ ps, s.cur.winPieces (s.curKey / 2) a.toNat n k = .ok ps ∧ exec i s = .next (done ps s)) ∧
  (∀ e, a.toNat % al = 0 → s.inHold = false → s.mapped a.toNat n k e → wait [⟨a.toNat, n, .glob (e.phys a.toNat) e⟩] s = false →
    exec i s = .next (done [⟨a.toNat, n, .glob (e.phys a.toNat) e⟩] s))

/-- A scoreboarded result joins the pending ones, under the next number (R111). -/
def State.pends (s : State) (ts : List Tgt) (dram : List (Nat × Bool) := []) (fl : Flags := 0) (rd : Option PRead := none) : State :=
  { s with nextId := s.nextId + 1, cur := { s.cur with pend := s.cur.pend ++ [⟨s.nextId, s.cur.pos, ts, fl, dram.map (fun r => { pa := r.1, lat := r.2 }), rd⟩] } }

/-- The value of a loaded element (R184). -/
def loadedVal : KFmt → Nat → Ex
  | .f32, b => fp32.value b
  | .bf16, b => bf16.value b
  | .f16, b => fp16.value b
  | .i32, b => .ofInt (BitVec.ofNat 32 b).toInt

/-- What a full/empty instruction on n bytes at a raises before it waits or acts, in the order of R277, and what it does when its words stand so
(R278). -/
def State.feActs (s : State) (i : Instr) (a : Word64) (n al : Nat) (k : AKind) (done : List Piece → Res) : Prop :=
  (a.toNat % al ≠ 0 → s.Traps i { cause := 0x04, addr := a }) ∧
  (a.toNat % al = 0 → s.inHold = true → inWindow a.toNat = false → s.Traps i (bkTrap 0x60 a)) ∧
  (a.toNat % al = 0 → (s.inHold = true → inWindow a.toNat = true) → ¬(inWindow a.toNat = true ∧ a.toNat + n ≤ 2 ^ 56) → s.Traps i (s.illop 0x14)) ∧
  (∀ t, a.toNat % al = 0 → inWindow a.toNat = true → a.toNat + n ≤ 2 ^ 56 → s.cur.winPieces (s.curKey / 2) a.toNat n k = .error t →
    s.Traps i { t with addr := a }) ∧
  (∀ ps, a.toNat % al = 0 → inWindow a.toNat = true → a.toNat + n ≤ 2 ^ 56 → s.cur.winPieces (s.curKey / 2) a.toNat n k = .ok ps →
    s.inHold = true → (winKeys ps).any (fun e => e.1 / 2 ^ 20 != s.curKey / 2) = true → s.Traps i (bkTrap 0x60 a)) ∧
  (∀ ps, a.toNat % al = 0 → inWindow a.toNat = true → a.toNat + n ≤ 2 ^ 56 → s.cur.winPieces (s.curKey / 2) a.toNat n k = .ok ps →
    (s.inHold = true → (winKeys ps).all (fun e => e.1 / 2 ^ 20 == s.curKey / 2) = true) → s.bankHeld s.curKey (winKeys ps) = false →
    exec i s = finish s (done ps)) ∧
  (a.toNat % al = 0 → a.toNat + n ≤ 2 ^ 56 → s.inHold = false → inWindow a.toNat = true → s.cur.inGrans (s.curKey / 2) a.toNat n → s.calm →
    ∃ ps, s.cur.winPieces (s.curKey / 2) a.toNat n k = .ok ps ∧ exec i s = finish s (done ps))

/-- The rational number that a finite exact value stands for. -/
def exRat : Ex → ℚ
  | .fin s n d e => (if s then -1 else 1) * ((n : ℚ) / d) * (2 : ℚ) ^ e
  | _ => 0

/-- The window's agent as a push, pop or drop of a holder leaves it: one that a fault stopped evaluates again outside handler mode (R201). -/
def agentNow (x : Stream) : Nat := if x.winAgent = 3 ∧ x.handler = false then 0 else x.winAgent

/-- The home slice's state as an atomic finds it: for an ordered one the stream's loads have read; the stream's earlier accesses to its bytes made and
performed, a line of the core's pin pool written back and given up, a home on another die after what the issuer's die knows (R258, R261, R283). -/
def State.atomHome (s : State) (ord : Bool) (e : Tlb) (va pa n : Nat) : State :=
  let key := s.curKey
  let s := if ord then s.relMark key 3 else s
  let s := (s.resolveOn pa n).drainOn key pa n
  let s := if e.home = 3 then s.unpin (key / 2) (pa / 128) else s
  let s := if e.home = 2 then s.pinHome s.cur.slot va pa n else s
  if paDie pa = coreDie (key / 2) then s
  else (s.settle (paDie pa) (s.mem.clock (coreDie (key / 2)))).settle (coreDie (key / 2)) (s.mem.lclk.at (pa / 128) [])

/-- What an atomic of n bytes at an address leaves of the state u after its translation to the leaf e: the old value read at its home, what `op` gives
written there, never under a heat tag, and the old value on its way through the scoreboard, sign-extended when asked, with the flags of `op`. An
ordered one carries in its write what a release at level 3 orders, and synchronises with the releases that stand over the bytes it reads (R281). -/
def State.atomDone (u : State) (n : Nat) (ord sx : Bool) (d : SReg) (op : Nat → Option Nat × Flags) (va : Nat) (e : Tlb) : State :=
  let pa := e.phys va
  let h := u.atomHome ord e va pa n
  let old := leNat (h.homeBytes h.cur.ctx e.buf pa n)
  let x := if ord then { h.cur with fences := { level := 3, ids := h.relSet u.curKey } :: h.cur.fences } else h.cur
  let o := h.observe u.curKey (paDie pa) pa n
  let o := if ord then o.acqOf (u.curKey / 2) 3 (h.mem.heardAt (paDie pa) pa n) else o
  let w (v : Nat) : PWrite := { mkWrite x u.curKey o.nextId va pa e (leBytes v n) with tag := none, atom := true }
  let t := match (op old).1 with
    | none => o
    | some v => State.putNow { o with nextId := o.nextId + 1 } (w v)
  let r : Word64 := if sx then (BitVec.ofNat (8 * n) old).signExtend 64 else BitVec.ofNat 64 old
  let out : List Tgt :=
    if n = 16 then (if d = 0 then [] else [.s d.toNat (BitVec.ofNat 64 old), .s (d.toNat + 1) (BitVec.ofNat 64 (old / 2 ^ 64))])
    else [.s d.toNat r]
  t.pends out ((t.streamed e.home pa n).map (fun a => (a, e.lat))) (op old).2

/-- An atomic of n bytes outside a hold: the faults of R282 in their order; otherwise it reads the old value at its home, writes there what `op`
gives, if it gives a value, and returns the old value (R281-R283). It completes on every aligned address whose leaf the core's TLB holds and lets it
write, while no bank of its lines is in refresh (R255). -/
def State.Atomic (s : State) (i : Instr) (n : Nat) (ord sx : Bool) (d a : SReg) (op : Nat → Option Nat × Flags) : Prop :=
  let va := (s.cur.readS a).toNat
  (2 ^ 56 ≤ va → s.Traps i { cause := 0x05, addr := s.cur.readS a, info := 0xF301 }) ∧
  (Config.spwbase ≤ va → va < 2 ^ 56 → s.Traps i (s.illop 0x14)) ∧
  (va < Config.spwbase → va % n ≠ 0 → s.Traps i { cause := 0x04, addr := s.cur.readS a }) ∧
  (∀ t, va < Config.spwbase → va % n = 0 → s.xlat (s.curKey / 2) s.cur.slot va .atomic = .error t → s.Traps i t) ∧
  (∀ e u, va < Config.spwbase → va % n = 0 → s.xlat (s.curKey / 2) s.cur.slot va .atomic = .ok (e, u) →
    (u.ctxAt u.cur.ctx).bumps.contains e.buf.toNat = false → (u.streamed e.home (e.phys va) n).any u.refreshing = false →
    exec i s = .next (u.atomDone n ord sx d op va e)) ∧
  (∀ e, va % n = 0 → s.mapped va n .atomic e → (s.streamed e.home (e.phys va) n).any s.refreshing = false →
    exec i s = .next (s.atomDone n ord sx d op va e))

/-- An engine operation of the focused stream, as it forks at issue (R268); it starts later (R338). -/
def State.newOp (s : State) (k : OpKind) : Op :=
  { id := s.nextId, key := s.curKey, ctx := s.cur.ctx, slot := s.cur.slot, core := s.curKey / 2, task := s.cur.task, kind := k,
    started := false, tag := s.cur.heatKey, wid := s.cur.wid }

/-- The state after such an operation has forked, behind every earlier load (R268). -/
def State.forked (s : State) (k : OpKind) : State :=
  { s.resolveAll with nextId := s.resolveAll.nextId + 1, ops := s.resolveAll.ops ++ [s.resolveAll.newOp k] }

/-- Fewer than 32 copies, load-block operations and near-memory commands of the focused stream are outstanding (R248). -/
def State.roomToFork (s : State) : Prop := (s.ops.filter (fun o => o.key == s.curKey && o.queued)).length < 32

/-- The focused stream holds the granules of n window bytes at va (R231). -/
def State.keeps (s : State) (va n : Nat) : Prop := ∃ ps, s.cur.winPieces (s.curKey / 2) va n .ewrite = .ok ps

/-- Bits hi to lo of word k of a descriptor. -/
def wbits (w : List Word64) (k hi lo : Nat) : Nat := (wordAt w k).toNat / 2 ^ lo % 2 ^ (hi + 1 - lo)

/-- n bytes at an address of a rank lie in one sound page of HOME = 00 on the home die, whose leaf e the TLB of that die's first core's crew holds, and no
write is on its way to that die: its agents read them there (R27, R303). -/
def State.rankPage (s : State) (slot a n : Nat) (e : Tlb) : Prop :=
  let core := s.homeCore slot
  a + n ≤ Config.spwbase ∧ a % 4096 + n ≤ 4096 ∧ tlbFind (s.crews.at (core / 8) {}).tlb slot a = some e ∧ e.psn = false ∧
    s.poisoned (e.phys a) = false ∧ e.home = 0 ∧ hbmExists (e.phys a) = true ∧ paDie (e.phys a) = coreDie core ∧
    (s.ctxAt (s.rank slot).ctx).bumps.contains e.buf.toNat = false ∧ ∀ q ∈ s.mem.rq, q.dst ≠ coreDie core

/-- The overflow list of the focused stream's rank is empty, and its control block lies in such a page (R303). -/
def State.listEmpty (s : State) : Prop :=
  let r := s.rank s.cur.slot
  ∃ e, s.rankPage s.cur.slot r.ovfhead.toNat 48 e ∧ leNat (s.homeBytes r.ctx e.buf (e.phys r.ovfhead.toNat) 8) = 0

/-- An instruction's descriptor of n bytes at a, aligned to al, reads as the words w, and leaves the state v (R237, R255). -/
def State.readsAt (s : State) (a : Word64) (n al : Nat) (w : List Word64) (v : State) : Prop :=
  a.toNat % al = 0 ∧ s.inHold = false ∧ ∃ ps u, s.pieces s.cur (s.curKey / 2) a.toNat n .load = .ok (ps, u) ∧ u.inHold = false ∧
    ps.any (fun p => p.bad u.mem) = false ∧ ps.any (u.bumping u.cur.ctx) = false ∧ u.bankHeld u.curKey (winKeys ps) = false ∧
    u.dramWait ps = false ∧ w = words64 (u.readNow ps).1 ∧ v = (u.readNow ps).2

/-- A descriptor of n bytes at a that must lie in held granules reads as the words w (R248, R251). -/
def State.heldAt (s : State) (a : Word64) (n al : Nat) (w : List Word64) : Prop :=
  a.toNat % al = 0 ∧ s.inHold = false ∧ ∃ ps, s.cur.winPieces (s.curKey / 2) a.toNat n .load = .ok ps ∧
    ps.any (fun p => p.bad s.mem) = false ∧ s.bankHeld s.curKey (winKeys ps) = false ∧ w = words64 (winBytes s.vspad ps)

/-- Such a descriptor lies in granules the stream holds, under conditions on the state and the address alone. -/
def State.holdsAt (s : State) (a : Word64) (n al : Nat) : Prop :=
  a.toNat % al = 0 ∧ s.inHold = false ∧ s.calm ∧ s.cur.inGrans (s.curKey / 2) a.toNat n

/-- A descriptor can be read at a, under conditions on the state and the address alone. -/
def State.mayRead (s : State) (a : Word64) (n al : Nat) : Prop :=
  a.toNat % al = 0 ∧ s.inHold = false ∧ s.calm ∧ (∀ pa, s.refreshing pa = false) ∧ s.reaches a.toNat n .load

/-- The descriptor of a collective from its eight words (R310). -/
def collOf (s : State) (w : List Word64) : CollD :=
  { src := wbits w 0 55 0, dst := wbits w 1 55 0, cid := (wordAt w 2).extractLsb' 32 32, first := wbits w 3 31 16, last := wbits w 3 47 32,
    root := wbits w 3 63 48, count := wbits w 4 23 0, kind := wbits w 4 31 30, op := wbits w 4 29 28, fmt := wbits w 4 27 26,
    stat := if wbits w 4 25 24 % 2 = 1 then some (wbits w 5 55 0) else none,
    tref := if 2 ≤ wbits w 4 25 24 then some (s.cur.taskRef (wbits w 6 63 32)) else none }

/-- A micro-op of the focused core's running call of the stream x begins: its own copy has been made if it is a MACG, the next word has been decoded, and
its copy made if that is one, so the state is u and the call e (R221). -/
def State.Begins (s : State) (i : Instr) (u : State) (x : Stream) (e : Call) : Prop :=
  ∃ c v, s.runCall = some c ∧ (s.stream c.key).isSome = true ∧ c.cycles < 2048 ∧ s.copies c i = (v, e) ∧ v.stream e.key = some x ∧ u = v.setCall e

/-- The call c of the stream x, of fewer than 2,048 cycles, stands at a micro-op that has no copy to make, and whose next word asks for none at decode, or
has its own: conditions on the state alone under which the micro-op begins. -/
def State.atWord (s : State) (i : Instr) (x : Stream) (c : Call) : Prop :=
  s.core.calls.head? = some c ∧ c.running = true ∧ s.stream c.key = some x ∧ c.cycles < 2048 ∧
    (c.fetched = true ∨ ∀ ra rb k0 kn g q, i ≠ .macg ra rb k0 kn g q) ∧
    (c.ahead = true ∨ x.partSize ≤ c.follow i ∨
      ∀ ra rb k0 kn g q, decodeMicro (s.microWord { c with upc := c.follow i }) ≠ some (.macg ra rb k0 kn g q))

/-- A micro-op begins in the state u, for the stream x and the call e: in any way, or where it stands at such a word. -/
def State.Starts (s : State) (i : Instr) (u : State) (x : Stream) (e : Call) : Prop :=
  s.Begins i u x e ∨ s.atWord i x e ∧ u = s.setCall e

/-- The call goes on after a micro-op that ran: its flags join the call's, its cycles count, and the next word lies at `next`; a next address outside
the stream's part stops it with SUB 0x36, a call of 2,048 cycles runs nothing more (R225, R227, R228). -/
def State.goesOn (u : State) (x : Stream) (e : Call) (fl : Flags) (cycles next : Nat) : State :=
  let c := { e with flags := e.flags ||| fl, cycles := e.cycles + cycles }
  if 2048 ≤ c.cycles then u.setCall c
  else if (if x.tiles4 then 1024 else 2048) ≤ next then u.callStop c 0x36
  else u.setCall { c with upc := next, fetched := c.ahead, ahead := false }

/-- One cell and the flags through n chunks of R products from the k-th on: each chunk's exact sum is added and rounded once to FP32; the first
chunk of a call that overwrites is rounded alone, and a zero product of two NI values has no sign (R133, R134, R221). -/
def chunksOf (ni : Bool) (R : Nat) (A B : List Ex) (i j : Nat) : (n k : Nat) → (ov : Bool) → Word32 × Flags → Word32 × Flags
  | 0, _, _, acc => acc
  | n + 1, k, ov, acc =>
    let ps := (List.range R).map (fun r => mulOf ni (A.getD (64 * (k + r) + i) (.zero false)) (B.getD (64 * (k + r) + j) (.zero false)))
    let r := addChunk ov acc.1 ps
    chunksOf ni R A B i j n (k + R) false (r.1, acc.2 ||| r.2)

/-- The one launch of a queue of weight above 0, in free mode, with one rank, may start its next task there: the rank is ACTIVE and not caught, every
lower task has started, the entry e stands sound in the table and its count is reached, a core of the home die is free and has the granules, and no
other queue has a launch or a saved task (R26, R27, R41, R44, R47-R49). -/
def State.mayStart (s : State) (c q : Nat) (l : Launch) (r : LRank) (task : Nat) (e : Entry) : Prop :=
  let x := s.ctxAt c
  let k := s.rank r.slot
  let a := l.tasktab + 64 * task
  (c, q) ∈ s.queues ∧ x.queues.at q [] = [l] ∧ x.weight q ≠ 0 ∧ x.saved = [] ∧ l.ranks = [r] ∧ l.started = true ∧ l.done = false ∧ l.det = false ∧
    r.discarded = false ∧ r.bad = false ∧ k.caughtExec = false ∧ k.state = .active ∧ k.ctx = c ∧ r.started = List.range task ∧ task < l.taskcnt ∧
    (∃ p, s.rankPage r.slot a 64 p ∧
      let w := words64 (s.homeBytes c p.buf (p.phys a) 64)
      wbits w 2 63 16 = 0 ∧ wbits w 2 15 11 ≤ 20 ∧ e.wid = wordAt w 0 ∧ e.pred = wbits w 1 63 48 ∧ e.heat = wbits w 1 47 32 ∧ e.off = wbits w 1 31 0 ∧
        e.pair = (wordAt w 2).getLsbD 10 ∧ e.grans = wbits w 2 9 5 ∧ e.tiles = wbits w 2 4 0 ∧ e.succ.length = wbits w 2 15 11 ∧
        ∀ i, i < e.succ.length → e.succ.getD i 0 = wbits w (3 + i / 4) (16 * (i % 4) + 15) (16 * (i % 4))) ∧
    (∀ t ∈ e.succ, t < l.taskcnt) ∧ (e.tiles = 4 ∨ e.tiles = 8) ∧ e.tiles ≤ l.tiles ∧ e.grans ≤ l.grans ∧ e.grans ≤ 16 ∧ e.pred ≤ r.decs.at task 0 ∧
    (∃ n, k.homedie * 128 ≤ n ∧ n < k.homedie * 128 + 128 ∧ s.coreFenced n = false ∧ s.stream (2 * n) = none ∧ s.stream (2 * n + 1) = none ∧
      e.grans ≤ (s.freeGrans n).length) ∧
    (∀ d ∈ s.queues, d ≠ (c, q) → (s.ctxAt d.1).queues.at d.2 [] = [] ∧ (s.ctxAt d.1).saved = [])

/-- A privileged command that the module serves: main power is on, the command is signed, no reserved bit of its form is set, and its SEQ exceeds
the last accepted one's (R374). -/
def State.accepts (s : State) (c : Cmd) : Prop :=
  s.mgmt.power = .on ∧ c.signed = true ∧ c.rsv = 0 ∧ (s.mgmt.anySeq = true → s.mgmt.lastSeq.toNat < c.seq.toNat)

/-- The state after a command's SEQ has been accepted (R374). -/
def State.taken (s : State) (c : Cmd) : State := { s with mgmt := { s.mgmt with lastSeq := c.seq, anySeq := true } }

/-- A command ends in the state t and an answer with its SEQ, a status and data (R374). -/
def State.Answers (s : State) (i : Instr) (c : Cmd) (t : State) (status : Nat) (data : List Word64 := []) : Prop :=
  exec i s = .next { t with outs := { t.outs with resp := t.outs.resp ++ [(c.seq, BitVec.ofNat 8 status, data)] } }

/-- The commands of the privileged path (R374, R375). -/
def isCommand : Instr → Bool
  | .writeRankRecord _ _ _ => true
  | .writeSchedulingRecord _ _ _ => true
  | .writeJobRecord _ _ _ => true
  | .writeChannelRow _ _ _ _ => true
  | .writeTulleRegion _ _ _ _ => true
  | .writeStreamRegister _ _ _ _ => true
  | .writeDebugComparator _ _ _ _ => true
  | .readRankRecord _ _ => true
  | .readSchedulingRecord _ _ => true
  | .readJobRecord _ _ => true
  | .readChannelRow _ _ _ => true
  | .readTulleRegion _ _ _ => true
  | .readStreamRegister _ _ _ => true
  | .readDebugComparator _ _ _ => true
  | .shootdown _ _ _ => true
  | .evictRank _ _ => true
  | .recallRank _ _ => true
  | .migrationOrder _ _ _ _ => true
  | .versionBump _ _ _ => true
  | .installContextKeys _ _ _ => true
  | .installRank _ _ => true
  | .removeRank _ _ => true
  | .createContext _ _ _ _ _ => true
  | .destroyContext _ _ => true
  | .readAndClearCounter _ _ => true
  | .readSaveAreaDescriptor _ => true
  | .unknownCommand _ code => !code.bus
  | .queuePairBind _ _ _ => true
  | .poisonFilterRemove _ _ _ => true
  | .fenceUnit _ _ => true
  | .abortLaunch _ _ _ _ => true
  | _ => false

/-- Node(k, i) of R308 over the leaves of one piece: absent beyond the group, the left input alone where the right one is absent, else their Combine. -/
def CollD.tree (d : CollD) (leaf : Nat → List Word32) : Nat → Nat → Option (List Word32)
  | 0, i => if i < d.group then some (leaf i) else none
  | k + 1, i =>
    match d.tree leaf k (2 * i), d.tree leaf k (2 * i + 1) with
    | some l, some r => some (d.combineAll l r).1
    | l, _ => l

/-- A saved stream whose parts have their places in the save area (R207, R333): every register, ring, entry, cell and record lies within its section. -/
def Saved.Fits (w : Saved) : Prop :=
  let x := w.stream
  x.s.wf = true ∧ (∀ e ∈ x.s, e.1 < 32) ∧ x.c.wf = true ∧ (∀ e ∈ x.c, e.1 < 16) ∧ x.q.wf = true ∧ (∀ e ∈ x.q, e.1 < 8) ∧ x.z.wf = true ∧
    (∀ e ∈ x.z, e.1 < 256) ∧ (∀ e ∈ x.rings, e.1 < 16) ∧ (∀ e ∈ x.blks, e.1 < 64) ∧ x.win.length ≤ 480 ∧ (∀ r ∈ x.win, r.cells.length = 64) ∧
    (∀ e ∈ w.store, e.1 < 2048) ∧ w.mrf.wf = true ∧ (∀ e ∈ w.mrf, e.1 < 32768) ∧ w.grans.wf = true ∧ (∀ e ∈ w.grans, e.1 < 2 ^ 20) ∧ w.fe.wf = true ∧
    (∀ e ∈ w.fe, e.1 < 2 ^ 18) ∧ (w.full = false → w.grans = [] ∧ w.fe = [])

/-- Inputs that leave a module without main power as it is: commands, and management but for main power and reset (R374, R377, R379). -/
def leavesUnpowered (i : Instr) : Bool :=
  isCommand i || (isMgmt i && (match i with | .mainPowerOn _ _ _ => false | .moduleReset => false | _ => true))

/-- A module without main power that holds what the state s0 held, and to which only such inputs come. -/
def State.Unpowered (s0 s : State) : Prop :=
  s.mgmt.power ≠ .on ∧ (∀ i ∈ s.inbox, leavesUnpowered i = true) ∧ s.mem = s0.mem ∧ s.front = s0.front ∧ s.cur = s0.cur ∧ s.curKey = s0.curKey ∧
    s.curLive = s0.curLive ∧ s.streams = s0.streams ∧ s.core = s0.core ∧ s.cores = s0.cores ∧ s.crews = s0.crews ∧ s.slices = s0.slices ∧
    s.ops = s0.ops ∧ s.treqs = s0.treqs ∧ s.cycle = s0.cycle ∧ s.mgmt.rollback = s0.mgmt.rollback

end Sys2Proof.Machine
end

