-- ==== Sys2Proof/Certificates/Slice0/Obligations.lean ====
section
/-! DEFINITION. The statements for the provers: the encodings, the step, the instructions family by family with what each changes, and the module's
agents, engines and commands. Each says what the rules of spec/ that its docstring names say; a choice of the model's own is named with its log entry. -/

open Sys2Proof Sys2Proof.Machine

/-- Every slot instruction with well-formed operands, encoded with either stop bit, decodes in its slot kind to itself, with every operand as it was;
and a word that decodes in a slot kind is the encoding of the well-formed instruction it decodes to: no bit is dropped, none is invented, and no two
instructions share a word of one slot kind (R79-R83, R98). -/
def Obligations.SlotWordsAgree : Prop :=
  (∀ (i : Instr) (sk : SlotKind) (F : Fields) (stop : Bool), i.wf = true → encodeFields i = some (sk, F) → decodeSlot sk (F.word stop) = .ok i) ∧
  (∀ (sk : SlotKind) (w : Word32) (i : Instr), decodeSlot sk w = .ok i →
    i.wf = true ∧ ∃ F, encodeFields i = some (sk, F) ∧ F.word (w.getLsbD 31) = w)

/-- Every micro-op with well-formed operands encodes to a word that decodes to it, and a micro-word that decodes is its micro-op's encoding (R219,
R380). -/
def Obligations.MicroWordsAgree : Prop :=
  (∀ (i : Instr) (w : Word64), i.wf = true → encodeMicro i = some w → decodeMicro w = some i) ∧
  (∀ (i : Instr) (w : Word64), decodeMicro w = some i → i.wf = true ∧ encodeMicro i = some w)

/-- Words written out from the encodings of the spec decode to the instructions they stand for, one or more for each slot kind (R79-R83, R219). -/
def Obligations.DecodedWords : Prop :=
  decodeSlot .s 0x02054AA1 = .ok (.add false false 21 (.reg 21) (.imm 1)) ∧
  decodeSlot .s 0xC3E0FFF4 = .ok (.brp true 3 (-12)) ∧
  decodeSlot .s 0xE230C280 = .ok (.evtestTake (.pred 3) (.reg 5)) ∧
  decodeSlot .s 0xE4818080 = .ok (.widf 2 6 (.reg 1)) ∧
  decodeSlot .v 0xC2198680 = .ok (.vredadd .f32 false 6 (.line ⟨.row, 3, 1⟩)) ∧
  decodeSlot .v 0xD8000008 = .ok (.radd .f32 false ⟨.row, 0, 0⟩ (.line ⟨.row, 0, 0⟩) (.line ⟨.row, 2, 0⟩)) ∧
  decodeSlot .c 0x82814224 = .ok (.ld .b4 false 5 4 (.imm 4)) ∧
  decodeSlot .c 0xCA06050C = .ok (.tdep 24 10 (.reg 12)) ∧
  decodeSlot .c 0xDEC04000 = .ok (.fenceRel 3) ∧
  decodeSlot .m 0x82615781 = .ok (.mcall .bf16 .bf16 true 5 (.imm 15)) ∧
  decodeSlot .k 0x8200C220 = .ok (.kld .f32 3 4 (.imm 0)) ∧
  decodeMicro 0x4400000000000000 = some .exit

/-- A step runs the decoded instruction: when the only enabled action is the turn of a core whose one stream is in focus, asked for nothing and with
no bundle standing, and the words at its pc are a header for one slot and a word that decodes there, guarded on and with nothing to wait for, the step
is exec of that instruction at the state that has fetched it, where an access comes after what the EVTESTs before it read and take, and then the
boundary after the bundle; a slot that traps or stalls leaves no effect but its trap or its stall (R39, R84, R89, R110-R112, R320, R322). The model's
choices in it: log 1, 50. -/
def Obligations.StepRunsDecoded : Prop :=
  ∀ (s u v : State) (n : Nat) (sl : Slot) (h w : Word32) (i : Instr),
    let f : State := { s.advance with late := [] }
    let m : State := { f with cur := { f.cur with mark := .none } }
    let pc := f.cur.pc
    s.advance.acts = [.core n] → f.curLive = true → f.curKey = 2 * n → f.stream (2 * n + 1) = none →
    f.cur.ready = true → f.cur.haltReq = false → f.cur.hold = none → f.cur.starved = false → f.cur.async = [] → f.cur.pre = 0 →
    f.cur.bundle = none → f.dbgMatch (2 * n) f.cur = false →
    m.fetchWords pc.toNat 1 = .ok ([h], u) → isHeader h = true → headerFault h = none → present h = [sl] →
    u.fetchWords (pc.toNat + 4) 1 = .ok ([w], v) → isHeader w = false → w.getLsbD 31 = true → decodeSlot sl.kind w = .ok i →
    i.tilesOk v.cur.tiles4 = true → i.lines ≤ allot h sl →
    let b : Bundle := { addr := pc, header := h, slots := [(sl, i)], succ := pc + 8 }
    let g0 : State := { v with cur := { v.cur with bundle := some b, npc := pc + 8, mark := .none } }
    let g := g0.preJoin b true
    let e0 : State := { g with view := some g.viewNow }
    let e : State := { (if accesses sl i then e0.serveTakes (fun _ => true) else e0) with slotRank := sl.rank }
    let rest (d : Did) (t : State) : Host.Outcome State Fault Refusal := t.secondTurn n d none false
    g.cur.hold = none → g0.blocked b false = none → g0.cur.guardOn b = true → g.blocked b true = none →
    (∀ t, exec i e = .next t → t.cur.mark = .none → step s = rest .issued t.endBundle) ∧
    (∀ t x, exec i e = .next t → t.cur.mark = .trapped x → step s = rest .faulted (g.enterTrap x pc)) ∧
    (∀ t l x k z, exec i e = .next t → t.cur.mark = .stalled l x k → g.stallBundle l x [k] = .next z → step s = rest .stalled z) ∧
    (∀ d t, t.stream (2 * n + 1) = none → rest d t = .next t)

/-- A weighed module to which no management input comes stands as it was frozen: a step changes nothing of it. A module without main power, to which
commands and management other than main power and reset come, keeps its memories, its records, its cores, its counters and its fuses through every
step (R339, R341, R374, R377). The model's choices in it: log 1, 3. -/
def Obligations.StandingModule : Prop :=
  (∀ s : State, s.mgmt.weighed = true → (∀ i ∈ s.inbox, isMgmt i = false) → step s = .next { s with tick := s.tick + 1 }) ∧
  (∀ s0 s : State, s0.Unpowered s → ∃ t, step s = .next t) ∧
  (∀ s0 s t : State, s0.Unpowered s → step s = .next t → s0.Unpowered t)

/-- The module right after reset: power off, nothing bound, running or on its way, every memory canonical and reading zero, PLIMIT 4,400 W, the clock
at 800 MHz, every rank slot FREE with zero words; a scheduling record's fields at reset are DPB 4,096, CQLOG 9, DRAINLIM 1,024 and zeros; no address
has a leaf; and it stands as the statement of an unpowered module asks (R36, R53, R326, R341, R372). The model's choices in it: log 2, 4. -/
def Obligations.ResetState : Prop :=
  let s := State.reset
  s.Canon ∧ (∀ a, s.mem.hbm.get a = 0) ∧ (∀ k, s.mem.spad.get k = 0) ∧ (∀ k, s.mem.fe.get k = 0) ∧ s.mgmt.power = .off ∧ s.mgmt.plimit = 4400 ∧
  s.mgmt.clock = 800 ∧ (∀ k, s.stream k = none) ∧ s.ops = [] ∧ s.treqs = [] ∧ s.inbox = [] ∧ s.front.jobs = [] ∧
  (∀ i, (s.rank i).state = .free ∧ (s.rank i).words = [0, 0, 0, 0, 0, 0, 0, 0] ∧ (s.rank i).rows = [] ∧ ∀ h, (s.rank i).calico.get h = 0) ∧
  (∀ c, (s.ctxAt c).qweight = 0 ∧ (s.ctxAt c).dpb = 4096 ∧ (s.ctxAt c).quantum = 0 ∧ (s.ctxAt c).cqbase = 0 ∧ (s.ctxAt c).cqlog = 9 ∧
    (s.ctxAt c).lostdec = 0 ∧ (s.ctxAt c).dbgen = false ∧ (s.ctxAt c).csaslots = 0 ∧ (s.ctxAt c).drainlim = 1024 ∧ (s.ctxAt c).csapool = 0) ∧
  (∀ k slot va e, s.walk slot va k ≠ .ok e) ∧ s.Unpowered s

/-- BUNDLE_FETCH of the focused stream: outside a BKLOCK hold an enabled breakpoint at its pc halts it; otherwise the word at the pc must be a header,
else MISBRANCH with SUB 0x20, a header that breaks a rule raises ILLBUNDLE with its SUB at the pc, the first failing check of the slot words is
raised, and a good bundle stands ready with its successor after its last word; a line under a version bump, in held banks or in a bank in refresh
stalls it (R72, R84, R85, R88, R255, R288, R289, R337). The model's choices in it: log 11. -/
def Obligations.BundleFetch : Prop :=
  ∀ (s u v : State) (h : Word32) (ws : List Word32), s.curLive = true →
    let pc := s.cur.pc
    let n := (present h).length
    let i : Instr := .bundleFetch s.curKey
    let run := s.cur.hold.isSome = true ∨ s.dbgMatch s.curKey s.cur = false ∨ s.cur.skipBp = true
    let stalls : Prop := exec i s = .next { s with cur := { s.cur with mark := .stalled false none .nothing } }
    let at7 (cause : Byte) (sub : Nat) : TrapRec := { cause := cause, addr := pc, info := BitVec.ofNat 64 (h.toNat * 2 ^ 32 + 7 * 2 ^ 8 + sub) }
    (¬run → exec i s = .next s.haltCur) ∧
    (∀ t, run → s.fetchWord pc.toNat = .trap t → s.Traps i t) ∧
    (run → s.fetchWord pc.toNat = .wait → stalls) ∧
    (run → s.fetchWord pc.toNat = .word h u → isHeader h = true → headerFault h = none → u.fetchWords (pc.toNat + 4) n = .error none → stalls) ∧
    (run → s.fetchWord pc.toNat = .word h u → isHeader h = false → s.Traps i (at7 0x03 0x20)) ∧
    (∀ sub, run → s.fetchWord pc.toNat = .word h u → isHeader h = true → headerFault h = some sub → s.Traps i (at7 0x01 sub)) ∧
    (∀ t, run → s.fetchWord pc.toNat = .word h u → isHeader h = true → headerFault h = none → u.fetchWords (pc.toNat + 4) n = .error (some t) →
      s.Traps i t) ∧
    (∀ t, run → s.fetchWord pc.toNat = .word h u → isHeader h = true → headerFault h = none → u.fetchWords (pc.toNat + 4) n = .ok (ws, v) →
      checkSlots v.cur pc h n 0 false ((present h).zip ws) = .error t → s.Traps i t) ∧
    (∀ is, run → s.fetchWord pc.toNat = .word h u → isHeader h = true → headerFault h = none → u.fetchWords (pc.toNat + 4) n = .ok (ws, v) →
      checkSlots v.cur pc h n 0 false ((present h).zip ws) = .ok is →
      let b : Bundle := { addr := pc, header := h, slots := is, succ := pc + BitVec.ofNat 64 (4 * (n + 1)) }
      exec i s = .next { v with cur := { v.cur with bundle := some b, npc := b.succ, mark := .none } })

/-- A result lands at the boundary before bundle position b + L and at no other: at the boundary where no result is due nothing changes but the
position; where one result is due its target is written, its flags join FLAGS in the same update, and it leaves the buffer, while every other result
stays on its way (R108). Of two results that land on one register at one boundary, the one of the later slot in the order K, S, V0, V1, M, C0, C1
stands, and between results of one slot kind the later-issued one; the flags of both are set, and a result in flight keeps its place (R112). At a stop
every result still in the landing buffer lands, and nothing of memory, of another stream, or of the stream's place changes (R110). -/
def Obligations.ResultsLand : Prop :=
  (∀ (s : State) (as bs : List Land) (e : Land) (r : Nat) (v : Word64) (b : Bool),
    let u : State := { s with cur := { s.cur with pos := s.cur.pos + 1 } }
    ((∀ f ∈ s.cur.land, f.due ≠ s.cur.pos + 1) → s.boundary = u) ∧
    (s.cur.land = as ++ e :: bs → e.due = s.cur.pos + 1 → (∀ f ∈ as ++ bs, f.due ≠ s.cur.pos + 1) →
      (e.tgt = .s r v → s.boundary =
        { u with cur := { u.cur with s := if r = 0 then s.cur.s else s.cur.s.set r v, flags := s.cur.flags ||| e.flags, land := as ++ bs } }) ∧
      (e.tgt = .p r b → r ≠ 0 → s.boundary =
        { u with cur := { u.cur with p := if b then s.cur.p ||| BitVec.ofNat 16 (2 ^ r) else s.cur.p &&& ~~~(BitVec.ofNat 16 (2 ^ r)),
                                     flags := s.cur.flags ||| e.flags, land := as ++ bs } }) ∧
      (∀ k, e.tgt = .flagClr k → s.boundary =
        { u with cur := { u.cur with flags := (s.cur.flags &&& ~~~k) ||| e.flags, land := as ++ bs } }) ∧
      (∀ k, e.tgt = .flagSet k → s.boundary =
        { u with cur := { u.cur with flags := (s.cur.flags ||| k) ||| e.flags, land := as ++ bs } }))) ∧
  (∀ (s : State) (a b : Land) (r : Nat) (x y : Word64),
    s.cur.land = [a, b] ∨ s.cur.land = [b, a] → a.due = s.cur.pos + 1 → b.due = s.cur.pos + 1 →
    (a.rank < b.rank ∨ a.rank = b.rank ∧ a.pos < b.pos) → a.tgt = .s r x → b.tgt = .s r y → r ≠ 0 → s.cur.s.wf = true →
    (s.boundary.cur.s.get r = y ∧ s.boundary.cur.flags = s.cur.flags ||| (a.flags ||| b.flags) ∧ s.boundary.cur.land = [])) ∧
  (∀ (s : State), (∀ e ∈ s.cur.land, s.cur.pos ≤ e.due) →
    s.landAll.cur.land = [] ∧ s.landAll.cur.pos = s.cur.pos ∧ s.landAll.cur.pc = s.cur.pc ∧ s.landAll.cur.handler = s.cur.handler ∧
    s.landAll.mem = s.mem ∧ s.landAll.streams = s.streams ∧ s.landAll.cores = s.cores ∧
    ((∀ e ∈ s.cur.land, e.tgt.takes = none) → s.landAll.front = s.front) ∧
    s.landAll.ops = s.ops ∧ s.landAll.mgmt = s.mgmt ∧ s.landAll.outs = s.outs)

/-- ADD, SUB, MUL and MULH: 64-bit forms modulo 2^64, 32-bit forms modulo 2^32 and extended by their signedness; latency 1, or 3 for a product; no
flag, and nothing else changes (R139). DIV and REM truncate toward zero; a zero divisor gives an all-ones quotient and the dividend, the most negative
value by -1 wraps; no flag, no trap, latency 8, and nothing else changes (R139). AND, OR, XOR, SHL, SHR, MIN and MAX at both widths: the shift count
is B[5:0] or B[4:0], SHR fills with the sign in its signed form, MIN and MAX compare by the signedness; latency 1, no flag, and nothing else changes
(R139). -/
def Obligations.IntegerArithmetic : Prop :=
  (∀ (s : State) (u : Bool) (d : SReg) (a b : SOp),
    let x := s.cur.readOp a
    let y := s.cur.readOp b
    s.Writes (.add u false d a b) 1 (.s d.toNat (x + y)) ∧
    s.Writes (.add u true d a b) 1 (.s d.toNat (ext32 u (lo32 x + lo32 y))) ∧
    s.Writes (.sub u false d a b) 1 (.s d.toNat (x - y)) ∧
    s.Writes (.sub u true d a b) 1 (.s d.toNat (ext32 u (lo32 x - lo32 y))) ∧
    s.Writes (.mul u false d a b) 3 (.s d.toNat (x * y)) ∧
    s.Writes (.mul u true d a b) 3 (.s d.toNat (ext32 u (lo32 x * lo32 y))) ∧
    s.Writes (.mulh true false d a b) 3 (.s d.toNat (BitVec.ofNat 64 (x.toNat * y.toNat / 2 ^ 64))) ∧
    s.Writes (.mulh true true d a b) 3 (.s d.toNat (ext32 true (BitVec.ofNat 32 ((lo32 x).toNat * (lo32 y).toNat / 2 ^ 32)))) ∧
    s.Writes (.mulh false false d a b) 3 (.s d.toNat ((x.signExtend 128 * y.signExtend 128).extractLsb' 64 64)) ∧
    s.Writes (.mulh false true d a b) 3
      (.s d.toNat (ext32 false (((lo32 x).signExtend 64 * (lo32 y).signExtend 64).extractLsb' 32 32)))) ∧
  (∀ (s : State) (d : SReg) (a b : SOp),
    let x := s.cur.readOp a
    let y := s.cur.readOp b
    s.Writes (.div false false d a b) 8 (.s d.toNat (if y = 0 then BitVec.allOnes 64 else x.sdiv y)) ∧
    s.Writes (.div true false d a b) 8 (.s d.toNat (if y = 0 then BitVec.allOnes 64 else x / y)) ∧
    s.Writes (.div false true d a b) 8
      (.s d.toNat (ext32 false (if lo32 y = 0 then BitVec.allOnes 32 else (lo32 x).sdiv (lo32 y)))) ∧
    s.Writes (.div true true d a b) 8 (.s d.toNat (ext32 true (if lo32 y = 0 then BitVec.allOnes 32 else lo32 x / lo32 y))) ∧
    s.Writes (.rem false false d a b) 8 (.s d.toNat (if y = 0 then x else x.srem y)) ∧
    s.Writes (.rem true false d a b) 8 (.s d.toNat (if y = 0 then x else x % y)) ∧
    s.Writes (.rem false true d a b) 8 (.s d.toNat (ext32 false (if lo32 y = 0 then lo32 x else (lo32 x).srem (lo32 y)))) ∧
    s.Writes (.rem true true d a b) 8 (.s d.toNat (ext32 true (if lo32 y = 0 then lo32 x else lo32 x % lo32 y)))) ∧
  (∀ (s : State) (u : Bool) (d : SReg) (a b : SOp),
    let x := s.cur.readOp a
    let y := s.cur.readOp b
    let n := y.toNat % 64
    let k := y.toNat % 32
    s.Writes (.and u false d a b) 1 (.s d.toNat (x &&& y)) ∧
    s.Writes (.and u true d a b) 1 (.s d.toNat (ext32 u (lo32 x &&& lo32 y))) ∧
    s.Writes (.or u false d a b) 1 (.s d.toNat (x ||| y)) ∧
    s.Writes (.or u true d a b) 1 (.s d.toNat (ext32 u (lo32 x ||| lo32 y))) ∧
    s.Writes (.xor u false d a b) 1 (.s d.toNat (x ^^^ y)) ∧
    s.Writes (.xor u true d a b) 1 (.s d.toNat (ext32 u (lo32 x ^^^ lo32 y))) ∧
    s.Writes (.shl u false d a b) 1 (.s d.toNat (x <<< n)) ∧
    s.Writes (.shl u true d a b) 1 (.s d.toNat (ext32 u (lo32 x <<< k))) ∧
    s.Writes (.shr u false d a b) 1 (.s d.toNat (if u then x >>> n else x.sshiftRight n)) ∧
    s.Writes (.shr u true d a b) 1 (.s d.toNat (ext32 u (if u then lo32 x >>> k else (lo32 x).sshiftRight k))) ∧
    s.Writes (.min u false d a b) 1 (.s d.toNat (if (if u then x.ule y else x.sle y) then x else y)) ∧
    s.Writes (.min u true d a b) 1
      (.s d.toNat (ext32 u (if (if u then (lo32 x).ule (lo32 y) else (lo32 x).sle (lo32 y)) then lo32 x else lo32 y))) ∧
    s.Writes (.max u false d a b) 1 (.s d.toNat (if (if u then y.ule x else y.sle x) then x else y)) ∧
    s.Writes (.max u true d a b) 1
      (.s d.toNat (ext32 u (if (if u then (lo32 y).ule (lo32 x) else (lo32 y).sle (lo32 x)) then lo32 x else lo32 y))))

/-- CMP writes 0 or 1 to a register, or the truth of its condition to a predicate (also p8 to p15, where R113 moves a write in flight), and compares
A[W-1:0] with B[W-1:0] (R140). -/
def Obligations.Compare : Prop :=
  ∀ (s : State) (c : Cond) (r : SReg) (p : PReg) (a b : SOp),
    let x := s.cur.readOp a
    let y := s.cur.readOp b
    s.Writes (.cmp c false (.reg r) a b) 1 (.s r.toNat (if cmpHolds c x y then 1 else 0)) ∧
    s.Writes (.cmp c true (.reg r) a b) 1 (.s r.toNat (if cmpHolds c (lo32 x) (lo32 y) then 1 else 0)) ∧
    s.Writes (.cmp c false (.pred p) a b) 1 (.p p.toNat (cmpHolds c x y)) ∧
    s.Writes (.cmp c true (.pred p) a b) 1 (.p p.toNat (cmpHolds c (lo32 x) (lo32 y))) ∧
    (∀ v, (Tgt.p p.toNat v).rotate =
      if p.toNat < 8 then .p p.toNat v else if p.toNat = 15 then .flagsOnly else .p (p.toNat + 1) v)

/-- SEL writes all 64 bits of A or of B by its predicate as read at issue; PLOG writes its function of two predicates; PLOG.ANDN p3, p0, p3 inverts p3
and PLOG.XOR p3, p3, p3 clears it (R141). -/
def Obligations.SelectPredicates : Prop :=
  ∀ (s : State) (p q r : PReg) (d : SReg) (a b : SOp),
    s.Writes (.sel p d a b) 1 (.s d.toNat (if s.cur.readP p then s.cur.readOp a else s.cur.readOp b)) ∧
    s.Writes (.plog .and r p q) 1 (.p r.toNat (s.cur.readP p && s.cur.readP q)) ∧
    s.Writes (.plog .or r p q) 1 (.p r.toNat (s.cur.readP p || s.cur.readP q)) ∧
    s.Writes (.plog .xor r p q) 1 (.p r.toNat (s.cur.readP p ^^ s.cur.readP q)) ∧
    s.Writes (.plog .andn r p q) 1 (.p r.toNat (s.cur.readP p && !s.cur.readP q)) ∧
    s.Writes (.plog .orn r p q) 1 (.p r.toNat (s.cur.readP p || !s.cur.readP q)) ∧
    s.Writes (.plog .nand r p q) 1 (.p r.toNat (!(s.cur.readP p && s.cur.readP q))) ∧
    s.Writes (.plog .nor r p q) 1 (.p r.toNat (!(s.cur.readP p || s.cur.readP q))) ∧
    s.Writes (.plog .xnor r p q) 1 (.p r.toNat (!(s.cur.readP p ^^ s.cur.readP q))) ∧
    s.Writes (.plog .andn 3 0 3) 1 (.p 3 (!s.cur.readP 3)) ∧
    s.Writes (.plog .xor 3 3 3) 1 (.p 3 false)

/-- NOP does nothing; MOVI and MOVSH build constants; BFX takes the field lo + len - 1 to lo, cut at bit 63; BITC counts; LEA adds a shifted index
modulo 2^64 and never faults (R142, R143, R160). LIX writes VAL and STEP of one line-index register; LIXSTEP adds STEP to VAL modulo 64 and leaves
STEP; LIXSTEP.ALL does the same for l0 to l3 at once (R102, R144). -/
def Obligations.ConstantsBitsIndexes : Prop :=
  (∀ (s : State) (w : Bool) (k : BitVec 3) (d : SReg) (v : BitVec 18) (a b : SOp),
    let x := s.cur.readOp a
    let y := s.cur.readOp b
    let lo := y.toNat % 64
    let len := min (y.toNat / 64 % 128) (64 - lo)
    let W := if w then 32 else 64
    exec .nop s = .next s ∧
    s.Writes (.movi d v) 1 (.s d.toNat (v.signExtend 64)) ∧
    s.Writes (.movsh d v) 1 (.s d.toNat (s.cur.readS d <<< 18 ||| v.setWidth 64)) ∧
    (∃ z, s.Writes (.bfx false d a b) 1 (.s d.toNat z) ∧ ∀ i, i < 64 → z.getLsbD i = (decide (i < len) && x.getLsbD (lo + i))) ∧
    (∃ z, s.Writes (.bfx true d a b) 1 (.s d.toNat z) ∧
      ∀ i, i < 64 → z.getLsbD i = (decide (0 < len) && x.getLsbD (lo + min i (len - 1)))) ∧
    (∃ n, s.Writes (.bitc .clz w d a) 1 (.s d.toNat (BitVec.ofNat 64 n)) ∧ n ≤ W ∧
      (∀ i, W - n ≤ i → i < W → x.getLsbD i = false) ∧ (n < W → x.getLsbD (W - 1 - n) = true)) ∧
    (∃ n, s.Writes (.bitc .ctz w d a) 1 (.s d.toNat (BitVec.ofNat 64 n)) ∧ n ≤ W ∧
      (∀ i, i < n → x.getLsbD i = false) ∧ (n < W → x.getLsbD n = true)) ∧
    s.Writes (.bitc .popc w d a) 1 (.s d.toNat (BitVec.ofNat 64 ((List.range W).countP (fun i => x.getLsbD i)))) ∧
    s.Writes (.lea k d a b) 1 (.s d.toNat (x + y <<< k.toNat))) ∧
  (∀ (s : State) (l : BitVec 2) (a b : SOp),
    let step (v : BitVec 12) : BitVec 12 := v.extractLsb' 6 6 ++ (v.extractLsb' 0 6 + v.extractLsb' 6 6)
    s.Writes (.lix l a b) 1 (.l l.toNat ((s.cur.readOp b).extractLsb' 0 6 ++ (s.cur.readOp a).extractLsb' 0 6)) ∧
    s.Writes (.lixstep l) 1 (.l l.toNat (step (s.cur.l.get l.toNat))) ∧
    let all : List Land := (List.range 4).map (fun i => ⟨s.cur.pos + 1, s.slotRank, s.cur.pos, .l i (step (s.cur.l.get i)), 0⟩)
    exec .lixstepAll s = .next { s with cur := { s.cur with land := s.cur.land ++ all } })

/-- The sum, product, quotient and fused sum behind every floating-point instruction are exact on finite values, without a flag: rounding is left to
the one Narrow that follows (R127, R129). Narrow returns a finite value that its FP32 destination holds as it is, bit for bit, in every rounding mode,
with or without .SAT, and raises no flag (R127, R129). -/
def Obligations.NarrowingIsExact : Prop :=
  (∀ (m : RMode) (s t r : Bool) (n k j d c i : Nat) (e f g : Int), d ≠ 0 → c ≠ 0 → i ≠ 0 →
    let x : Ex := .fin s n d e
    let y : Ex := .fin t k c f
    let w : Ex := .fin r j i g
    ((exAdd m x y).1.isFin = true ∧ exRat (exAdd m x y).1 = exRat x + exRat y ∧ (exAdd m x y).2 = 0) ∧
    ((exMul x y).1.isFin = true ∧ exRat (exMul x y).1 = exRat x * exRat y ∧ (exMul x y).2 = 0) ∧
    (k ≠ 0 → (exDiv x y).1.isFin = true ∧ exRat (exDiv x y).1 = exRat x / exRat y ∧ (exDiv x y).2 = 0) ∧
    ((exFma m w x y false).1.isFin = true ∧ exRat (exFma m w x y false).1 = exRat w + exRat x * exRat y ∧ (exFma m w x y false).2 = 0) ∧
    ((exFma m w x y true).1.isFin = true ∧ exRat (exFma m w x y true).1 = exRat w - exRat x * exRat y ∧ (exFma m w x y true).2 = 0) ∧
    exRat (exScale x g) = exRat x * (2 : ℚ) ^ g) ∧
  (∀ (b : Word32) (m : RMode) (sat : Bool), (fp32.value b.toNat).isFin = true →
    narrow (.fp fp32) (fp32.value b.toNat) m sat = (b.toNat, 0))

/-- FADD, FMUL and FMA round their exact result once in the mode RMS with sat = b, FMA with sD as addend; FMINMAX selects; FCMP writes 0 or 1 or a
predicate, with NV for a signalling NaN alone; FCVT rounds its exact source value once and places it by its type; latency 4, and nothing else changes
(R145, R146, R147). -/
def Obligations.ScalarFloat : Prop :=
  ∀ (s : State) (sat : Bool) (d a b : SReg) (q : PReg) (c : FCond) (ts td : STy),
    let v (r : SReg) : Ex := fp32.value ((s.cur.readS r).setWidth 32 : Word32).toNat
    let one (z : Ex × Flags) : Nat × Flags := ((narrow (.fp fp32) z.1 s.cur.rms sat).1, z.2 ||| (narrow (.fp fp32) z.1 s.cur.rms sat).2)
    let puts (i : Instr) (z : Nat × Flags) : Prop := s.Writes i 4 (.s d.toNat (BitVec.ofNat 64 z.1)) z.2
    let nan := (v a).isNan || (v b).isNan
    let low (r : SReg) : Nat := ((s.cur.readS r).setWidth 32 : Word32).toNat
    puts (.fadd false sat d a b) (one (exAdd s.cur.rms (v a) (v b))) ∧
    puts (.fadd true sat d a b) (one (exAdd s.cur.rms (v a) (v b).neg)) ∧
    puts (.fmul sat d a b) (one (exMul (v a) (v b))) ∧
    puts (.fma false sat d a b) (one (exFma s.cur.rms (v d) (v a) (v b) false)) ∧
    puts (.fma true sat d a b) (one (exFma s.cur.rms (v d) (v a) (v b) true)) ∧
    (nan = true → puts (.fminmax false d a b) (0x7FC00000, flIf ((v a).isSig || (v b).isSig) flNV ||| flNF) ∧
      puts (.fminmax true d a b) (0x7FC00000, flIf ((v a).isSig || (v b).isSig) flNV ||| flNF)) ∧
    (nan = false →
      (∃ z, (z = a ∨ z = b) ∧ exCmpZ (v z) (v a) ≤ 0 ∧ exCmpZ (v z) (v b) ≤ 0 ∧
        puts (.fminmax false d a b) (low z, flIf (!(v z).isFin) flNF)) ∧
      (∃ z, (z = a ∨ z = b) ∧ 0 ≤ exCmpZ (v z) (v a) ∧ 0 ≤ exCmpZ (v z) (v b) ∧
        puts (.fminmax true d a b) (low z, flIf (!(v z).isFin) flNF))) ∧
    (let holds := match c with
      | .eq => !nan && exCmp (v a) (v b) == 0
      | .ne => nan || exCmp (v a) (v b) != 0
      | .lt => !nan && decide (exCmp (v a) (v b) < 0)
      | .le => !nan && decide (exCmp (v a) (v b) ≤ 0)
      | .un => nan
      | .ord => !nan
     let fl := flIf ((v a).isSig || (v b).isSig) flNV
     s.Writes (.fcmp c (.reg d) a b) 4 (.s d.toNat (if holds then 1 else 0)) fl ∧ s.Writes (.fcmp c (.pred q) a b) 4 (.p q.toNat holds) fl) ∧
    (let x := styValue ts (s.cur.readS a)
     let z := narrow (styNT td) x s.cur.rms sat
     s.Writes (.fcvt td ts sat d a) 4 (.s d.toNat (if td = .i32 then (BitVec.ofNat 32 z.1).signExtend 64 else BitVec.ofNat 64 z.1))
       (z.2 ||| flIf x.isSig flNV))

/-- A branch goes to its header plus four times its offset, or to a register's value; CALL and CALLI also leave the address of the sequential
successor on its way to s31 with latency 1; a register target with a nonzero bit 1 or 0 raises MISBRANCH with SUB 0x21 instead, with the target in
TRAPADDR, and has no other effect (R83, R88, R148). LOOPSET writes LC, EC, p8 true and p9 to p15 false, and leaves RRB; LOOP counts LC down, then EC,
shifts p8 to p15 up by one with its `in`, rotates RRB down by one modulo 4, and branches while a count is left; each is one exposed result of latency
1, and that of LOOP writes no counter that it does not count down (R112, R149, R150). -/
def Obligations.ControlFlow : Prop :=
  (∀ (s : State) (o : BitVec 25) (o17 : BitVec 17) (n : Bool) (p : PReg) (a : SReg),
    let link : State := { s with cur := { s.cur with land := s.cur.land ++ [⟨s.cur.pos + 1, s.slotRank, s.cur.pos, .s 31 s.succAddr, 0⟩] } }
    let bad (t : Word64) : TrapRec := { cause := 0x03, addr := t, info := info85 s.slotWord.2 0 0x21 }
    s.Jumps (.br o) (s.cur.pc + o.signExtend 64 * 4) ∧
    (s.cur.readP p = !n → s.Jumps (.brp n p o17) (s.cur.pc + o17.signExtend 64 * 4)) ∧
    (s.cur.readP p = n → exec (.brp n p o17) s = .next s) ∧
    exec (.call o) s = .next { link with cur := { link.cur with npc := s.cur.pc + o.signExtend 64 * 4 } } ∧
    (s.cur.readS a &&& 3 = 0 → s.Jumps (.bri a) (s.cur.readS a) ∧
      exec (.calli a) s = .next { link with cur := { link.cur with npc := s.cur.readS a } }) ∧
    (s.cur.readS a &&& 3 ≠ 0 → s.Traps (.bri a) (bad (s.cur.readS a)) ∧ s.Traps (.calli a) (bad (s.cur.readS a))) ∧
    (s.cur.readS 31 &&& 3 = 0 → s.Jumps .ret (s.cur.readS 31)) ∧
    (s.cur.readS 31 &&& 3 ≠ 0 → s.Traps .ret (bad (s.cur.readS 31)))) ∧
  (∀ (s : State) (x : Stream) (m : Cells 32) (o : BitVec 25) (a b : SOp),
    (∃ t, s.Writes (.loopset a b) 1 t ∧
      x.apply m t = ({ x with lc := (s.cur.readOp a).setWidth 32, ec := (s.cur.readOp b).setWidth 32,
                              p := 0x0100 ||| (x.p &&& 0x00FF) }, m)) ∧
    (∃ t lc ec inn,
      (if s.cur.lc ≠ 0 then lc = s.cur.lc - 1 ∧ ec = x.ec ∧ inn = 0x0100
       else if s.cur.ec ≠ 0 then lc = x.lc ∧ ec = s.cur.ec - 1 ∧ inn = 0
       else lc = x.lc ∧ ec = x.ec ∧ inn = (0 : BitVec 16)) ∧
      x.apply m t = ({ x with lc := lc, ec := ec, rrb := s.cur.rrb - 1,
                              p := ((s.cur.p &&& 0x7F00) <<< 1) ||| inn ||| (x.p &&& 0x00FF) }, m) ∧
      let u : State := { s with cur := { s.cur with land := s.cur.land ++ [⟨s.cur.pos + 1, s.slotRank, s.cur.pos, t, 0⟩] } }
      exec (.loop o) s = .next (if s.cur.lc.toNat + s.cur.ec.toNat ≤ 1 then u else { u with cur := { u.cur with npc := s.cur.pc + o.signExtend 64 * 4 } })))

/-- SRD, SWR and the four FLAGOPs issue with latency 2: SRD is resolved when it lands, SWR and FLAGOP leave their write on its way, RDCLR and TST take
FLAGS as visible at issue and RDCLR clears only bits it has returned; the mask is A[6:0] (R151, R153). The value a system register reads and what SWR
leaves in it: only its width, bits 1:0 of TVEC and TRAPPC as zero, nothing at all in a register of task access RO; the bits of TRAPINFO that a layout
for the cause reserves read as zero, and a cause without one has none (R5, R104, R151). -/
def Obligations.SystemRegisters : Prop :=
  (∀ (s : State) (d : SReg) (p : PReg) (r : SysReg) (a : SOp),
    let k : Flags := (s.cur.readOp a).setWidth 7
    s.Writes (.srd d r) 2 (.srd d r) ∧
    s.Writes (.swr r a) 2 (.sys r (s.cur.readOp a)) ∧
    s.Writes (.flagopClr a) 2 (.flagClr k) ∧
    s.Writes (.flagopSet a) 2 (.flagSet k) ∧
    s.Writes (.flagopTst p a) 2 (.p p.toNat (s.cur.flags &&& k != 0)) ∧
    exec (.flagopRdclr d a) s = .next { s with cur := { s.cur with land := s.cur.land ++
      [⟨s.cur.pos + 2, s.slotRank, s.cur.pos, .s d.toNat (s.cur.flags.setWidth 64), 0⟩] ++
      [⟨s.cur.pos + 2, s.slotRank, s.cur.pos, .flagClr (k &&& s.cur.flags), 0⟩] } }) ∧
  (∀ (s : State) (x : Stream) (v : Word64) (r r' : SysReg),
    (r ∈ [SysReg.stkptr, .stkbase, .stklim, .dpb, .cycle, .wid, .vrank, .ctxid, .heat, .spwbase, .csasize] → x.writeSys r v = x) ∧
    s.readSys (x.writeSys .fmode v) .fmode = v &&& 0xFF ∧
    s.readSys (x.writeSys .flags v) .flags = v &&& 0x7F ∧
    s.readSys (x.writeSys .lc v) .lc = v &&& 0xFFFFFFFF ∧
    s.readSys (x.writeSys .ec v) .ec = v &&& 0xFFFFFFFF ∧
    s.readSys (x.writeSys .rrb v) .rrb = v &&& 3 ∧
    s.readSys (x.writeSys .efr v) .efr = v &&& 0xFFF ∧
    s.readSys (x.writeSys .fewaitlim v) .fewaitlim = v &&& 0xFFFFFFFF ∧
    s.readSys (x.writeSys .latcnt v) .latcnt = v ∧
    s.readSys (x.writeSys .tvec v) .tvec = v &&& 0x00FFFFFFFFFFFFFC ∧
    s.readSys (x.writeSys .trappc v) .trappc = v &&& 0x00FFFFFFFFFFFFFC ∧
    s.readSys (x.writeSys .trapcause v) .trapcause = v &&& 0xFF ∧
    s.readSys (x.writeSys .trapaddr v) .trapaddr = v ∧
    s.readSys (x.writeSys .trapinfo v) .trapinfo = v &&& infoMask x.trapcause v ∧
    (x.trapcause ∈ [(0x01 : Byte), 0x02, 0x03] → s.readSys x .trapinfo = x.trapinfo &&& 0xFFFFFFFF00000FFF) ∧
    (x.trapcause ∈ [(0x05 : Byte), 0x06, 0x07, 0x08] → s.readSys x .trapinfo = x.trapinfo &&& 0x1FFFF) ∧
    (x.trapcause = 0x09 → s.readSys x .trapinfo = x.trapinfo &&& 0xFF) ∧
    (x.trapcause ∈ [(0x04 : Byte), 0x0D, 0x0E, 0x0F, 0x10, 0x11, 0x12, 0x14] → s.readSys x .trapinfo = x.trapinfo) ∧
    (r ≠ r' → ¬(r = .trapcause ∧ r' = .trapinfo) → s.readSys (x.writeSys r v) r' = s.readSys x r') ∧
    (x.writeSys r v).slot = x.slot ∧ (x.writeSys r v).s = x.s ∧ (x.writeSys r v).p = x.p ∧ (x.writeSys r v).pc = x.pc)

/-- Trap entry, with no result in flight: TRAPPC takes the header address, TRAPCAUSE, TRAPADDR and TRAPINFO are written, handler mode is set, the
stream continues at TVEC, and no other register changes; a hold ends, and nothing outside the stream changes (R320). A fault in handler mode is a
double fault: it writes no trap register and fails the task with the second fault's code (R323). TRAP and BRK let the other slots of their bundle take
effect: the trap waits for the boundary after the bundle, where it is taken with cause 0x12 or 0x11, the bundle's own header in TRAPADDR, the code in
TRAPINFO, and the next bundle's header in TRAPPC. ERET goes to TRAPPC as read at issue and leaves handler mode; outside handler mode it raises ILLOP
with SUB 0x13, and with a misaligned TRAPPC MISBRANCH with SUB 0x21 (R154, R155). The model's choices in it: log 46. -/
def Obligations.Traps : Prop :=
  (∀ (s : State) (t : TrapRec) (pc : Word64), s.cur.handler = false → s.cur.land = [] → t.frame = none → t.flags = 0 →
    s.enterTrap t pc = { s with cur := { s.cur with
      trappc := pc.setWidth 56, trapcause := t.cause, trapaddr := t.addr, trapinfo := t.info, handler := true,
      pc := s.cur.tvec.setWidth 64, npc := s.cur.tvec.setWidth 64,
      mark := .trapped t, hold := none, bundle := none, waitCyc := 0, fixed := 0, skipBp := false, flushing := false } }) ∧
  (∀ (s : State) (t : TrapRec) (pc : Word64), s.cur.handler = true → s.cur.land = [] → t.frame = none → t.flags = 0 →
    s.enterTrap t pc =
      State.taskFail { s with cur := { s.cur with
          mark := .trapped t, hold := none, bundle := none, waitCyc := 0, fixed := 0, skipBp := false, flushing := false } }
        s.curKey t.cause) ∧
  (∀ (s : State) (code : BitVec 14),
    let rec1 (cause : Byte) : TrapRec := { cause := cause, addr := s.cur.pc, info := code.setWidth 64 }
    let t := s.cur.trappc.setWidth 64
    exec (.trap code) s = .next { s with cur := { s.cur with btrap := some (rec1 0x12) } } ∧
    exec (.brk code) s = .next { s with cur := { s.cur with btrap := some (rec1 0x11) } } ∧
    (∀ u : State, u.cur.btrap = none → u.softBoundary = u) ∧
    (∀ (u : State) (r : TrapRec), u.cur.btrap = some r → (r.cause ≠ 0x11 ∨ u.debugged u.cur = false) →
      u.softBoundary = State.enterTrap { u with cur := { u.cur with btrap := none } } r u.cur.pc) ∧
    (s.cur.handler = true → t &&& 3 = 0 → exec .eret s = .next { s with cur := { s.cur with handler := false, npc := t } }) ∧
    (s.cur.handler = true → t &&& 3 ≠ 0 → s.Traps .eret { cause := 0x03, addr := t, info := info85 s.slotWord.2 0 0x21 }) ∧
    (s.cur.handler = false → s.Traps .eret (s.illop 0x13)))

/-- TEND stops the stream's issue and leaves everything else; CATCH does the same and marks its rank as caught in execution, and raises ILLOP with SUB
0x13 in a task that is not its rank's step launch; at the boundary after either, every result on its way lands, and after the first CATCH of the rank
its buckets are disarmed; ISYNC discards the code lines held ahead of issue (R156, R157, R158). WIDF returns field k of a WID under the launch's
widths, zero-extended; WIDF.PFX keeps fields 0 to k and clears the rest; WIDF.W returns WIDTHS; latency 1, no flag, and nothing else changes (R30).
The model's choices in it: log 36. -/
def Obligations.TaskControl : Prop :=
  (∀ (s : State),
    exec .tend s = .next { s with cur := { s.cur with ending := 1 } } ∧
    (s.cur.sl = true → (s.rank s.cur.slot).caughtExec = false →
      let u := s.putRank s.cur.slot { s.rank s.cur.slot with caughtExec := true }
      exec .taskCatch s = .next { u with cur := { u.cur with ending := 2 } } ∧ (u.rank s.cur.slot).caughtExec = true) ∧
    (s.cur.sl = true → (s.rank s.cur.slot).caughtExec = true → exec .taskCatch s = .next { s with cur := { s.cur with ending := 1 } }) ∧
    (s.curLive = true → s.cur.hold = none → s.cur.btrap = none → s.cur.stepOne = false → s.cur.ending ≠ 0 →
      let u := s.boundary
      let e : State := { u with view := none, cur := { u.cur with
        pc := u.cur.npc, bundle := none, waitCyc := 0, fixed := 0, mark := .none, skipBp := false } }
      s.endBundle = if s.cur.ending = 2 then e.landAll.disarm s.cur.slot else e.landAll) ∧
    (s.cur.sl = false → s.Traps .taskCatch (s.illop 0x13)) ∧
    exec .isync s = .next { s with cur := { s.cur with code := [] } } ∧
    exec .yield s = .next (s.decide49 s.curKey)) ∧
  (∀ (s : State) (k : BitVec 3) (d : SReg) (a : SOp), k.toNat ≤ 5 →
    let w (i : Nat) : Nat := (s.cur.widths.extractLsb' (7 * i) 7).toNat
    let lo := 64 - (List.range (k.toNat + 1)).foldl (fun t i => t + w i) 0
    let x := s.cur.readOp a
    s.Writes (.widf k d a) 1 (.s d.toNat (BitVec.ofNat 64 (x.toNat >>> lo % 2 ^ w k.toNat))) ∧
    s.Writes (.widfPfx k d a) 1 (.s d.toNat ((x >>> lo) <<< lo)) ∧
    s.Writes (.widfW d) 1 (.s d.toNat (s.cur.widths.setWidth 64)))

/-- EVTEST returns the bit A[7:0] of the context's event vector, as it stands at some time up to its exposure, with latency 8 and changes nothing
else; EVTEST.TAKE does so too, and clears that bit, and no other, in the update that serves it, at the latest when it lands and before any access that
follows it. EVSET and EVSET.CLR set or clear a bit, and no other, in one update after which the front evaluates the heads of the context's queues; the
release of EVSET leaves the state as it is when no access, write or request is on its way (R37, R39). QLAUNCH of a message that lies in held granules,
with sound words, whose banks no other stream holds: a B above 7 answers BADQ and a queue of 64 launches QFULL, and nothing is enqueued; otherwise the
launch is enqueued as the queue's next serial with ORIGIN = 1, with the issuer's rank in RANKFIRST and RANKLAST, its job and the current step, after a
release at level 3, and the queue and serial return with latency 8; a misaligned address raises MISALIGN, an address in no held granule OWNERSHIP
(R46, R288). The model's choices in it: log 43. -/
def Obligations.EventsAndLaunches : Prop :=
  (∀ (s : State) (r : SReg) (p : PReg) (a : SOp),
    let i := (s.cur.readOp a).toNat % 256
    let v := (s.ctxAt s.cur.ctx).ev.getLsbD i
    let one : BitVec 256 := BitVec.ofNat 256 (2 ^ i)
    let off (u : State) : State := u.modCtx s.cur.ctx (fun x => { x with ev := x.ev &&& ~~~one })
    let on (u : State) : State := u.modCtx s.cur.ctx (fun x => { x with ev := x.ev ||| one })
    let b : Word64 := if v then 1 else 0
    s.Writes (.evtest (.reg r) a) 8 (.ev (.reg r) s.cur.ctx i) ∧
    s.Writes (.evtest (.pred p) a) 8 (.ev (.pred p) s.cur.ctx i) ∧
    s.served (.ev (.reg r) s.cur.ctx i) = .s r.toNat b ∧ s.served (.ev (.pred p) s.cur.ctx i) = .p p.toNat v ∧
    s.Writes (.evtestTake (.reg r) a) 8 (.evTake (.reg r) s.cur.ctx i) ∧
    s.Writes (.evtestTake (.pred p) a) 8 (.evTake (.pred p) s.cur.ctx i) ∧
    (∀ (e : Land) (w : Land → Bool) (as bs : List Land), s.cur.land = as ++ e :: bs → e.tgt = .evTake (.reg r) s.cur.ctx i → w e = true →
      (∀ f ∈ as ++ bs, f ≠ e ∧ (w f = false ∨ f.tgt.tests = false)) →
      let l := as ++ { e with tgt := .s r.toNat b } :: bs
      let t := off s
      s.serveTakes w = { t with cur := { t.cur with land := l } }) ∧
    (∀ e, s.cur.land = [e] → e.due = s.cur.pos + 1 → e.tgt = .evTake (.reg r) s.cur.ctx i → e.flags = 0 → r ≠ 0 →
      s.boundary.ctxAt s.cur.ctx = { s.ctxAt s.cur.ctx with ev := (s.ctxAt s.cur.ctx).ev &&& ~~~one } ∧ s.boundary.cur.land = [] ∧
      s.boundary.cur.s = s.cur.s.set r.toNat b) ∧
    exec (.evset a) s = .next ((on (s.relAll s.curKey 3)).evalHeads s.cur.ctx) ∧
    exec (.evsetClr a) s = .next ((off (s.relAll s.curKey 3)).evalHeads s.cur.ctx) ∧
    (s.mem.wq = [] → s.mem.rq = [] → s.treqs = [] → (∀ q ∈ s.cur.pend, q.rd = none) → s.relAll s.curKey 3 = s)) ∧
  (∀ (s : State) (d a : SReg) (b : SOp) (ps : List Piece),
    let va := (s.cur.readS a).toNat
    let q := (s.cur.readOp b).toNat % 8
    let big := (s.cur.readOp b).toNat / 8 ≠ 0
    let w := words64 (winBytes s.vspad ps)
    let d5 : Word64 := BitVec.ofNat 64 ((s.rank s.cur.slot).job.toNat * 2 ^ 32 + s.cur.vrank.toNat * 2 ^ 16 + s.cur.vrank.toNat)
    let d6 : Word64 := BitVec.ofNat 64 (s.cur.step.toNat * 2 ^ 32 + (wordAt w 6).toNat % 2 ^ 32)
    (va % 64 ≠ 0 → s.Traps (.qlaunch d a b) { cause := 0x04, addr := s.cur.readS a }) ∧
    (va % 64 = 0 → ∀ t, s.cur.winPieces (s.curKey / 2) va 192 .load = .error t → s.Traps (.qlaunch d a b) t) ∧
    (va % 64 = 0 → s.cur.winPieces (s.curKey / 2) va 192 .load = .ok ps → ps.any (fun p => p.bad s.mem) = false →
      s.bankHeld s.curKey (winKeys ps) = false →
      (big → s.Writes (.qlaunch d a b) 8 (.s d.toNat 0x1100000000000000)) ∧
      (¬big → 64 ≤ ((s.ctxAt s.cur.ctx).queues.at q []).length → s.Writes (.qlaunch d a b) 8 (.s d.toNat 0x1000000000000000)) ∧
      (¬big → ((s.ctxAt s.cur.ctx).queues.at q []).length < 64 →
        ∃ ws, ws.length = 24 ∧ wordAt ws 5 = d5 ∧ wordAt ws 6 = d6 ∧ (∀ i, i < 24 → i ≠ 5 → i ≠ 6 → wordAt ws i = wordAt w i) ∧
          let r := (s.relAll s.curKey 3).enqueueLaunch s.cur.ctx q ws true
          let n := (s.ctxAt s.cur.ctx).serials.at q 0
          exec (.qlaunch d a b) s = .next { r with cur := { r.cur with land := r.cur.land ++
            [⟨r.cur.pos + 8, r.slotRank, r.cur.pos, .s d.toNat (BitVec.ofNat 64 (q * 128 + n)), 0⟩] } })))

/-- VADD, VSUB, VMUL, VMAC and VMSB compute each element exactly from the values at issue, VMAC and VMSB with the destination as addend, and round
once; VABS and VNEG write |x| and -x; latency 4 and 2, and nothing else changes (R164, R165). -/
def Obligations.VectorArithmetic : Prop :=
  ∀ (s : State) (f : Fmt) (sat : Bool) (d : Line) (a b : VSrc), s.core.parity = [] →
    let x := s.valAt f a
    let y := s.valAt f b
    let w := s.valAt f (.line d)
    let m := s.cur.rmv
    s.WritesElems (.vadd f sat d a b) 4 f d (fun l k => s.oneRounding f sat (exAdd m (x l k) (y l k))) ∧
    s.WritesElems (.vsub f sat d a b) 4 f d (fun l k => s.oneRounding f sat (exAdd m (x l k) (y l k).neg)) ∧
    s.WritesElems (.vmul f sat d a b) 4 f d (fun l k => s.oneRounding f sat (exMul (x l k) (y l k))) ∧
    s.WritesElems (.vmac f sat d a b) 4 f d (fun l k => s.oneRounding f sat (exFma m (w l k) (x l k) (y l k) false)) ∧
    s.WritesElems (.vmsb f sat d a b) 4 f d (fun l k => s.oneRounding f sat (exFma m (w l k) (x l k) (y l k) true)) ∧
    s.WritesElems (.vabs f sat d a) 2 f d (fun l k => s.oneRounding f sat ((x l k).abs, flIf (x l k).isSig flNV)) ∧
    s.WritesElems (.vneg f sat d a) 2 f d (fun l k => s.oneRounding f sat ((x l k).neg, flIf (x l k).isSig flNV))

/-- VMIN and VMAX write the lesser or greater element with -0 below +0, the canonical NaN of a floating format when either operand is a NaN, and
narrow an integer element; the compares write all ones or zero by an ordered comparison, VCUN where an operand is a NaN, with NV for a signalling
operand; VSEL writes a's element where the destination holds a nonzero bit and b's otherwise; latency 2, and nothing else changes (R165, R166, R167).
VCPY, VAND, VOR and VXOR move or combine whole cells; VSHL and VSHR shift an I32 cell by bits 5:0 of b's cell, VSHL wrapping or clamping with OF, VSHR
with zeros or with the sign; latency 2, and nothing else changes (R166, R168). -/
def Obligations.VectorSelectBits : Prop :=
  (∀ (s : State) (f : Fmt) (d : Line) (a b : VSrc), s.core.parity = [] →
    let x := s.valAt f a
    let y := s.valAt f b
    let ea := s.elemAt f a
    let eb := s.elemAt f b
    let un (l k : Nat) : Bool := (x l k).isNan || (y l k).isNan
    let sig (l k : Nat) : Flags := flIf ((x l k).isSig || (y l k).isSig) flNV
    let ones := 2 ^ Fmt.width f s.cur.efr - 1
    let pick (F : FF) (l k : Nat) (e : Nat) : Nat × Flags := if un l k then (F.nan.getD 0, sig l k ||| flNF) else (e, flIf (!(F.value e).isFin) flNF)
    (∀ F, Fmt.ff f = some F →
      s.WritesElems (.vmin f d a b) 2 f d (fun l k => pick F l k (if 0 < exCmpZ (x l k) (y l k) then eb l k else ea l k)) ∧
      s.WritesElems (.vmax f d a b) 2 f d (fun l k => pick F l k (if exCmpZ (x l k) (y l k) < 0 then eb l k else ea l k))) ∧
    (Fmt.ff f = none →
      s.WritesElems (.vmin f d a b) 2 f d (fun l k =>
        arith f s.cur.efr (if 0 < exCmp (x l k) (y l k) then y l k else x l k) .rne false) ∧
      s.WritesElems (.vmax f d a b) 2 f d (fun l k =>
        arith f s.cur.efr (if exCmp (x l k) (y l k) < 0 then y l k else x l k) .rne false)) ∧
    s.WritesElems (.vceq f d a b) 2 f d (fun l k => (if !un l k && exCmp (x l k) (y l k) == 0 then ones else 0, sig l k)) ∧
    s.WritesElems (.vclt f d a b) 2 f d (fun l k => (if !un l k && decide (exCmp (x l k) (y l k) < 0) then ones else 0, sig l k)) ∧
    s.WritesElems (.vcle f d a b) 2 f d (fun l k => (if !un l k && decide (exCmp (x l k) (y l k) ≤ 0) then ones else 0, sig l k)) ∧
    s.WritesElems (.vcun f d a b) 2 f d (fun l k => (if un l k then ones else 0, sig l k)) ∧
    s.WritesElems (.vsel f d a b) 2 f d (fun l k => (if s.elemAt f (.line d) l k ≠ 0 then ea l k else eb l k, 0))) ∧
  (∀ (s : State) (d : Line) (a b : VSrc), s.core.parity = [] →
    let x := s.laneOf a
    let y := s.laneOf b
    let n (l : Nat) : Nat := (y l).toNat % 64
    let wide (l : Nat) : Int := (x l).toInt * 2 ^ n l
    s.WritesLanes (.vcpy d a) 2 d (fun l => (x l, 0)) ∧
    s.WritesLanes (.vand d a b) 2 d (fun l => (x l &&& y l, 0)) ∧
    s.WritesLanes (.vor d a b) 2 d (fun l => (x l ||| y l, 0)) ∧
    s.WritesLanes (.vxor d a b) 2 d (fun l => (x l ^^^ y l, 0)) ∧
    s.WritesLanes (.vshl false d a b) 2 d (fun l => (x l <<< n l, 0)) ∧
    s.WritesLanes (.vshl true d a b) 2 d (fun l =>
      if (2 ^ 31 - 1 : Int) < wide l then (0x7FFFFFFF, flOF) else if wide l < -(2 ^ 31) then (0x80000000, flOF) else (x l <<< n l, 0)) ∧
    s.WritesLanes (.vshr false d a b) 2 d (fun l => (x l >>> n l, 0)) ∧
    s.WritesLanes (.vshr true d a b) 2 d (fun l => ((x l).sshiftRight (n l), 0)))

/-- The lane of a converting instruction: where the destination has at least as many elements, element p n_s + k takes the conversion of source
element k and every other element keeps its bits; otherwise element k takes the conversion of source element p n_d + k, of +0 beyond the last (R169).
VCVT, VQNT, VQSPT and VDQNT convert each lane by R169, one rounding from the exact value: VCVT narrows the source value, VQNT the exact quotient by
the scale, VDQNT the exact product with it, VQSPT writes the SPT byte of the quotient; VSCALB narrows a.e x 2^n with one n a lane; latency 4, and
nothing else changes (R169-R173). -/
def Obligations.VectorConvert : Prop :=
  (∀ (ws ns wd nd p : Nat) (conv : Option Nat → Nat × Flags) (a d : Word32), ns * ws ≤ 32 → nd * wd ≤ 32 → 0 < ns → 0 < nd →
    (∀ o, (conv o).1 < 2 ^ wd) →
    let r := convCell ws ns wd nd p conv a d
    (ns ≤ nd → ∀ i, i < nd →
      elemW wd r.1 i = if p * ns ≤ i ∧ i < p * ns + ns then (conv (some (elemW ws a (i - p * ns)))).1 else elemW wd d i) ∧
    (nd < ns → ∀ k, k < nd → elemW wd r.1 k = (conv (if p * nd + k < ns then some (elemW ws a (p * nd + k)) else none)).1)) ∧
  (∀ (s : State) (f g : Fmt) (sat : Bool) (part : BitVec 3) (sc : Scale) (d : Line) (a b : VSrc), s.core.parity = [] →
    let e := s.cur.efr
    let m := s.cur.rmv
    let src (h : Fmt) (o : Option Nat) : Ex := match o with | some v => Fmt.val h e v | none => .zero false
    let sigma : Ex := s.scale sc a
    let p := match sc with | .tile p _ => p.toNat | .line p _ => p.toNat
    s.WritesLanes (.vcvt f g sat part d a) 4 d (fun l =>
      convCell (Fmt.width g e) (Fmt.count g e) (Fmt.width f e) (Fmt.count f e) part.toNat
        (fun o => ((toFmt f e (src g o) m sat).1, (toFmt f e (src g o) m sat).2 ||| flIf (src g o).isSig flNV)) (s.laneOf a l) (s.laneOf (.line d) l)) ∧
    s.WritesLanes (.vqnt f sat sc d a) 4 d (fun l =>
      convCell 32 1 (Fmt.width f e) (Fmt.count f e) p
        (fun o => let q := exDiv (src .f32 o) sigma; ((toFmt f e q.1 m sat).1, q.2 ||| (toFmt f e q.1 m sat).2)) (s.laneOf a l) (s.laneOf (.line d) l)) ∧
    s.WritesLanes (.vqspt sat sc d a) 4 d (fun l =>
      convCell 32 1 8 4 p
        (fun o => let q := exDiv (src .f32 o) sigma; ((sptConv m sat q.1).1, q.2 ||| (sptConv m sat q.1).2)) (s.laneOf a l) (s.laneOf (.line d) l)) ∧
    s.WritesLanes (.vdqnt f sat sc d a) 4 d (fun l =>
      convCell (Fmt.width f e) (Fmt.count f e) 32 1 p
        (fun o => let q := exMul (src f o) sigma; ((narrow (.fp fp32) q.1 m sat).1, q.2 ||| (narrow (.fp fp32) q.1 m sat).2))
        (s.laneOf a l) (s.laneOf (.line d) l)) ∧
    s.WritesElems (.vscalb f sat d a b) 4 f d (fun l k =>
      s.oneRounding f sat (exScale (s.valAt f a l k) (s.laneOf b l).toInt, flIf (s.valAt f a l k).isSig flNV)))

/-- The seven functions write Narrow of f(x), with the table's values for infinities, zeros and negative operands, and VGUMB Narrow of -ln(-ln u);
latency 8, and nothing else changes (R174, R180). VROT and VSHUF move whole cells by a count or by the indexes of b, VIOTA numbers the lanes; VRAND
fills a line with Calico bits of a stream register that is allocated and raises ILLOP with SUB 0x13 for any other handle; VDROP keeps an element whose
random bits are below the threshold and writes +0 for every other (R178, R179, R181, R317). The model's choices in it: log 10. -/
def Obligations.VectorFunctions : Prop :=
  (∀ (s : State) (f : Fmt) (sat : Bool) (d : Line) (a : VSrc), s.core.parity = [] →
    let r (g : VFun) (l k : Nat) : Nat × Flags := s.oneRounding f sat (g.apply (s.valAt f a l k))
    let gum (l : Nat) : Nat × Flags := narrow (.fp fp32) (exGumbel ((s.laneOf a l).toNat / 256)) s.cur.rmv sat
    s.WritesElems (.vrcp f sat d a) 8 f d (r .rcp) ∧ s.WritesElems (.vrsq f sat d a) 8 f d (r .rsq) ∧
    s.WritesElems (.vsqrt f sat d a) 8 f d (r .sqrt) ∧ s.WritesElems (.vexp2 f sat d a) 8 f d (r .exp2) ∧
    s.WritesElems (.vlog2 f sat d a) 8 f d (r .log2) ∧ s.WritesElems (.vtanh f sat d a) 8 f d (r .tanh) ∧
    s.WritesElems (.verf f sat d a) 8 f d (r .erf) ∧
    s.WritesLanes (.vgumb sat d a) 8 d (fun l => (BitVec.ofNat 32 (gum l).1, (gum l).2)) ∧
    (∀ (n : Bool) (k c : Nat) (e : Int), k ≠ 0 → c ≠ 0 →
      let one : Ex := .fin false 1 1 0
      let nan : Ex × Flags := (.nan false, flNV)
      VFun.apply .rcp (.inf n) = (.zero n, 0) ∧ VFun.apply .rcp (.zero n) = (.inf n, flDZ) ∧
      VFun.apply .rsq (.inf true) = nan ∧ VFun.apply .rsq (.inf false) = (.zero false, 0) ∧ VFun.apply .rsq (.zero n) = (.inf n, flDZ) ∧
      VFun.apply .sqrt (.inf true) = nan ∧ VFun.apply .sqrt (.inf false) = (.inf false, 0) ∧ VFun.apply .sqrt (.zero n) = (.zero n, 0) ∧
      VFun.apply .exp2 (.inf true) = (.zero false, 0) ∧ VFun.apply .exp2 (.inf false) = (.inf false, 0) ∧ VFun.apply .exp2 (.zero n) = (one, 0) ∧
      VFun.apply .log2 (.inf true) = nan ∧ VFun.apply .log2 (.inf false) = (.inf false, 0) ∧ VFun.apply .log2 (.zero n) = (.inf true, flDZ) ∧
      VFun.apply .tanh (.inf n) = (.fin n 1 1 0, 0) ∧ VFun.apply .tanh (.zero n) = (.zero n, 0) ∧
      VFun.apply .erf (.inf n) = (.fin n 1 1 0, 0) ∧ VFun.apply .erf (.zero n) = (.zero n, 0) ∧
      VFun.apply .rsq (.fin true k c e) = nan ∧ VFun.apply .sqrt (.fin true k c e) = nan ∧ VFun.apply .log2 (.fin true k c e) = nan)) ∧
  (∀ (s : State) (f : Fmt) (d : Line) (a b : VSrc) (q h : SReg) (c : BitVec 4), s.core.parity = [] →
    let x := s.laneOf a
    let n := (s.cur.readS q).toNat % 64
    let hd := (s.cur.readS h).toNat % 65536
    let j (i : Nat) : Word64 := (s.rank s.cur.slot).calico.get (3 * hd + i)
    let t := (s.cur.c.get c.toNat).toNat
    let lim := if f = .f32 ∨ f = .i32 then t else t / 65536
    let z (l : Nat) : Word64 := (j 0) ^^^ (((j 2) &&& 0xFFFFFFFF) * 0xD6E8FEB86659FD93) ^^^ ((j 1 + s.cur.readS q + BitVec.ofNat 64 l) * 0x9E3779B97F4A7C15)
    let mix (v : Word64) : Word64 := (v ^^^ (v >>> 32)) * 0xD6E8FEB86659FD93
    let bits (l : Nat) : Word32 := (mix (mix (z l)) ^^^ (mix (mix (z l)) >>> 32)).setWidth 32
    s.WritesLanes (.vrot d a q) 3 d (fun l => (x ((l + n) % 64), 0)) ∧
    s.WritesLanes (.vshuf d a b) 3 d (fun l => (if (s.laneOf b l).getLsbD 31 then 0 else x ((s.laneOf b l).toNat % 64), 0)) ∧
    s.WritesLanes (.viota d q) 2 d (fun l => ((s.cur.readS q).setWidth 32 + BitVec.ofNat 32 l, 0)) ∧
    (hd < 64 → (j 2).getLsbD 63 = true → s.WritesLanes (.vrand d q h) 6 d (fun l => (bits l, 0))) ∧
    (64 ≤ hd ∨ (j 2).getLsbD 63 = false → s.Traps (.vrand d q h) (s.illop 0x13)) ∧
    s.WritesElems (.vdrop f d a c) 6 f d (fun l k =>
      if s.elemAt f (.line d) l k < lim then dropKeep f s.cur.efr (s.elemAt f a l k) else (0, 0)))

/-- VREDADD of a floating format writes the root of the pairwise tree, each addition rounded once, of I32 the exact total wrapped or clamped and
sign-extended; VREDMAX and VREDMIN the greatest or least element of each position, the canonical NaN if one is a NaN; VARGMAX the lowest lane of the
greatest value beside its bits; VNFCHK the number of infinities and NaNs with NF. The flags are those of every addition of the tree; of a position NV
for a signalling NaN and NF for a NaN, NF for an infinity that is selected, or those of the Narrow of an NI result; of VARGMAX NV for a signalling NaN
in any lane and NF for a winner that is not finite. Latency 6, VNFCHK 4, and nothing else changes (R120, R129, R136, R175, R176, R177, R182). -/
def Obligations.VectorReduce : Prop :=
  ∀ (s : State) (f : Fmt) (sat : Bool) (d : SReg) (a : VSrc), s.core.parity = [] →
    let e := s.cur.efr
    let n := Fmt.count f e
    let x := s.valAt f a
    let flagged (c : Word32) (fl : Flags) : Prop := ∀ b, b < 7 → (fl.getLsbD b = true ↔ ∃ k, k < n ∧
      (if (List.range 64).any (fun l => (x l k).isNan) then nvOf ((List.range 64).map (fun l => x l k)) ||| flNF
       else nfOf (Fmt.val f e (elem f e c k))).getLsbD b = true)
    (f.isFW = true →
      let add (p q : Nat) : Nat × Flags := s.oneRounding f sat (exAdd s.cur.rmv (Fmt.val f e p) (Fmt.val f e q))
      let node (k h i : Nat) : Nat := treeNode add (fun l => s.elemAt f a l k) h i
      ∃ (c : Word32) (fl : Flags), s.Writes (.vredadd f sat d a) 6 (.s d.toNat (c.setWidth 64)) fl ∧ (∀ k, k < n → elem f e c k = node k 6 0) ∧
        ∀ b, b < 7 → (fl.getLsbD b = true ↔
          ∃ k h i, k < n ∧ h < 6 ∧ i < 2 ^ (5 - h) ∧ (add (node k h (2 * i)) (node k h (2 * i + 1))).2.getLsbD b = true)) ∧
    (let total : Int := ((List.range 64).map (fun l => (s.laneOf a l).toInt)).sum
     s.Writes (.vredadd .i32 false d a) 6 (.s d.toNat ((BitVec.ofInt 32 total).signExtend 64)) ∧
     s.Writes (.vredadd .i32 true d a) 6
       (.s d.toNat (if 2 ^ 31 - 1 < total then 0x7FFFFFFF else if total < -(2 ^ 31) then 0xFFFFFFFF80000000 else BitVec.ofInt 64 total))
       (flIf (decide (2 ^ 31 - 1 < total) || decide (total < -(2 ^ 31))) flOF)) ∧
    (∃ (c : Word32) (fl : Flags),
      s.Writes (.vredmax f d a) 6 (.s d.toNat (if f = .i32 then c.signExtend 64 else c.setWidth 64)) fl ∧
      (Fmt.ff f = none → ∃ w : Nat → Nat,
        (∀ k, k < n → w k < 64 ∧ elem f e c k = (arith f e (x (w k) k) .rne false).1 ∧ ∀ m, m < 64 → exCmp (x m k) (x (w k) k) ≤ 0) ∧
        ∀ b, b < 7 → (fl.getLsbD b = true ↔ ∃ k, k < n ∧ (arith f e (x (w k) k) .rne false).2.getLsbD b = true)) ∧
      (Fmt.ff f ≠ none → flagged c fl) ∧
      ∀ F, Fmt.ff f = some F → ∀ k, k < n →
        if (List.range 64).any (fun l => (x l k).isNan) then elem f e c k = F.nan.getD 0
        else (∃ l, l < 64 ∧ elem f e c k = s.elemAt f a l k) ∧ ∀ l, l < 64 → exCmpZ (x l k) (Fmt.val f e (elem f e c k)) ≤ 0) ∧
    (∃ (c : Word32) (fl : Flags),
      s.Writes (.vredmin f d a) 6 (.s d.toNat (if f = .i32 then c.signExtend 64 else c.setWidth 64)) fl ∧
      (Fmt.ff f = none → ∃ w : Nat → Nat,
        (∀ k, k < n → w k < 64 ∧ elem f e c k = (arith f e (x (w k) k) .rne false).1 ∧ ∀ m, m < 64 → 0 ≤ exCmp (x m k) (x (w k) k)) ∧
        ∀ b, b < 7 → (fl.getLsbD b = true ↔ ∃ k, k < n ∧ (arith f e (x (w k) k) .rne false).2.getLsbD b = true)) ∧
      (Fmt.ff f ≠ none → flagged c fl) ∧
      ∀ F, Fmt.ff f = some F → ∀ k, k < n →
        if (List.range 64).any (fun l => (x l k).isNan) then elem f e c k = F.nan.getD 0
        else (∃ l, l < 64 ∧ elem f e c k = s.elemAt f a l k) ∧ ∀ l, l < 64 → 0 ≤ exCmpZ (x l k) (Fmt.val f e (elem f e c k))) ∧
    (f.isArg = true →
      let v (l : Nat) : Ex := Fmt.val f 0 (s.laneOf a l).toNat
      let above (i j : Nat) : Prop := if (v i).isNan then (v j).isNan = false else (v j).isNan = false ∧ 0 < exCmpZ (v i) (v j)
      ∃ (b : Nat), b < 64 ∧ (∀ l, l < 64 → ¬above l b) ∧ (∀ l, l < b → above b l) ∧
        s.Writes (.vargmax f d a) 6 (.s d.toNat ((if (v b).isNan then 0x7FC00000#32 else s.laneOf a b) ++ BitVec.ofNat 32 b))
          (nvOf ((List.range 64).map v) ||| nfOf (v b))) ∧
    (let cnt := ((List.range 64).map (fun l => (List.range n).countP (fun k => !(x l k).isFin))).sum
     s.Writes (.vnfchk f d a) 4 (.s d.toNat (BitVec.ofNat 64 cnt)) (flIf (cnt ≠ 0) flNF))

/-- A forward instruction of a stream that holds the window, with room in window and stack, pushes one record at issue and leaves its line on the way
with latency 4: per lane the result cell, and in the record the residual cell, or the whole input under tag 1; the record names PAIR, FMT and PART and
holds the CRC of the result; RL is set when a lane has tag 1; nothing else changes. A full stack raises RVSTACK with SUB 0x08 instead, and a window
without room stalls it (R190-R192, R199, R200). What stands in a lane is R193's: every element rounds the exact sum, difference, product or scaled
value once; in a lane of tag 0 its residual is exactly what the rounding took away; tag 1 comes with an operand or result that is not finite, an
overflow, a factor of zero, an inexact scaling, a clamped integer, or a residual that its format does not hold; RNARW keeps the other element, and its
residual says whether the magnitude grew and how far the input lies above the truncated one; RSHR saves the bits shifted out (R193, R194). A zero
residual of RSCALB has the input's sign (log 61). -/
def Obligations.ForwardPushes : Prop :=
  (∀ (s : State) (f : Fmt) (sat ar : Bool) (part : BitVec 1) (d : Line) (a b : VSrc),
    s.core.parity = [] → s.cur.winHeld = true →
    let m := s.cur.rmv
    let full := (s.rank s.cur.slot).stklim.toNat < (s.rank s.cur.slot).stkbase.toNat + 272 * (s.depth + 1)
    let room := s.cur.win.length + (if s.cur.winAgent = 2 then (s.rank s.cur.slot).fillCount else 0) < 480
    let pushes (i : Instr) (fm : Fmt) (op p : Nat) (lane : Nat → Word32 × Word32 × Bool × Flags) : Prop :=
      (full → s.Traps i (s.rvstack 0x08)) ∧
      (¬full → ¬room → exec i s = .next { s with cur := { s.cur with
        mark := .stalled true none .hold, flushing := false, winAgent := agentNow s.cur } }) ∧
      (¬full → room →
        ∃ (r : RRec) (ys : List Word32) (fl : Flags), ys.length = 64 ∧ r.cells.length = 64 ∧
          (∀ l, l < 64 → ys.getD l 0 = (lane l).1 ∧ r.cells.getD l 0 = (lane l).2.1 ∧ r.t0.getLsbD l = (lane l).2.2.1) ∧
          r.t1 = tailWord 0 p false fm.bits.toNat op (lineCrc ys) ∧
          (∀ k, k < 7 → (fl.getLsbD k = true ↔ ∃ l, l < 64 ∧ ((lane l).2.2.2.getLsbD k = true ∨ k = 6 ∧ (lane l).2.2.1 = true))) ∧
          let more : List Land := [⟨s.cur.pos + 4, s.slotRank, s.cur.pos, .cells ((s.lineKeys d).zip ys), fl⟩]
          exec i s = .next { s with cur := { s.cur with
            winAgent := agentNow s.cur, win := r :: s.cur.win, flushing := false, land := s.cur.land ++ more } })
    let two (fm : Fmt) (g : Nat → Nat → FwdElem) (l : Nat) : Word32 × Word32 × Bool × Flags :=
      fwdLane fm (s.laneOf a l) ((upto 0 (Fmt.count fm 0)).map (fun k => g (elem fm 0 (s.laneOf a l) k) (elem fm 0 (s.laneOf b l) k)))
    let one (g : Nat → FwdElem) (l : Nat) : Word32 × Word32 × Bool × Flags :=
      fwdLane f (s.laneOf a l) ((upto 0 (Fmt.count f 0)).map (fun k => g (elem f 0 (s.laneOf a l) k)))
    pushes (.radd f sat d a b) f 0x2C 0 (two f (fwdAdd f m sat false)) ∧
    pushes (.rsub f sat d a b) f 0x2D 0 (two f (fwdAdd f m sat true)) ∧
    pushes (.rmul f sat d a b) f 0x2E 0 (two f (fwdMul f m sat)) ∧
    pushes (.rnarw f sat part d a) f 0x2F part.toNat (fun l => fwdNarw f m sat part.toNat (s.laneOf a l) (s.laneOf (.line d) l)) ∧
    pushes (.rrelu f d a) f 0x30 0 (one (fwdRelu f)) ∧
    pushes (.rscalb f sat d a b) f 0x31 0 (fun l => one (fwdScalb f m sat (s.laneOf b l).toInt) l) ∧
    pushes (.rshr ar d a b) .i32 0x32 0 (fun l => fwdLane .i32 (s.laneOf a l) [fwdShr ar (s.laneOf a l) (s.laneOf b l)])) ∧
  (∀ (f : Fmt) (a : Word32) (es : List FwdElem), f.isFWI = true → es.length = Fmt.count f 0 →
    (∀ e ∈ es, e.y < 2 ^ Fmt.width f 0 ∧ e.res < 2 ^ Fmt.width f 0) →
    let r := fwdLane f a es
    r.2.2.1 = es.any (fun e => e.tag) ∧ (r.2.2.1 = true → r.2.1 = a) ∧
    (∀ k e, es[k]? = some e → elem f 0 r.1 k = e.y ∧ (r.2.2.1 = false → elem f 0 r.2.1 k = e.res)) ∧
    ∀ b, b < 7 → (r.2.2.2.getLsbD b = true ↔ ∃ e ∈ es, e.fl.getLsbD b = true)) ∧
  (∀ (f : Fmt) (F : FF) (m : RMode) (sat sub : Bool) (a b : Nat) (k : Int), f.isFW = true → Fmt.ff f = some F → a < 2 ^ F.width → b < 2 ^ F.width →
    let x := F.value a
    let y := F.value b
    let v := if sub then y.neg else y
    let rounds (e : FwdElem) (z : Ex × Flags) (more : Prop) : Prop :=
      let n := narrow (.fp F) z.1 m sat
      let rest := (exAdd .rne z.1 (F.value n.1).neg).1
      e.y = n.1 ∧ e.fl = z.2 ||| n.2 ∧
      (e.tag = true ↔ ¬x.isFin ∨ ¬y.isFin ∨ ¬(F.value n.1).isFin ∨ e.fl &&& flOF ≠ 0 ∨ more ∨ rest.isZero = false ∧ (narrow (.fp F) rest .rne false).2 ≠ 0) ∧
      (e.tag = false → (F.value e.res).isFin = true ∧ exRat (F.value e.res) = exRat z.1 - exRat (F.value e.y) ∧
        (exRat (F.value e.res) = 0 → e.res = a / 2 ^ (F.width - 1) * 2 ^ (F.width - 1)))
    rounds (fwdAdd f m sat sub a b) (exAdd m x v) False ∧
    rounds (fwdMul f m sat a b) (exMul x y) (y.isZero = true) ∧
    (let e := fwdRelu f a
     let neg := a / 2 ^ (F.width - 1) = 1
     (x.isNan = true → e.y = F.nan.getD 0 ∧ e.tag = true) ∧ (x.isNan = false → e.y = (if neg then 0 else a)) ∧ (e.tag = true ↔ x.isFin = false) ∧
     (x.isFin = true → e.res = (if neg then a else 0) ∧ e.fl = 0)) ∧
    (let e := fwdScalb f m sat k a
     let n := narrow (.fp F) (exScale x k) m sat
     e.y = n.1 ∧ e.fl = n.2 ||| flIf x.isSig flNV ∧ e.res = a / 2 ^ (F.width - 1) * 2 ^ (F.width - 1) ∧
     (e.tag = true ↔ x.isFin = false ∨ (F.value n.1).isFin = false ∨ e.fl &&& (flNX ||| flOF) ≠ 0))) ∧
  (∀ (m : RMode) (sub ar : Bool) (a b : Word32),
    let z : Int := if sub then a.toInt - b.toInt else a.toInt + b.toInt
    let out := z < -(2 ^ 31) ∨ 2 ^ 31 - 1 < z
    let w := fwdAdd .i32 m false sub a.toNat b.toNat
    let c := fwdAdd .i32 m true sub a.toNat b.toNat
    let n := b.toNat % 64
    let h := fwdShr ar a b
    w.y = (BitVec.ofInt 32 z).toNat ∧ w.res = 0 ∧ w.tag = false ∧ w.fl = 0 ∧
    c.y = (if z < -(2 ^ 31) then 2 ^ 31 else if 2 ^ 31 - 1 < z then 2 ^ 31 - 1 else (BitVec.ofInt 32 z).toNat) ∧ c.res = 0 ∧ (c.tag = true ↔ out) ∧
    h.y = (if ar then a.sshiftRight n else a >>> n).toNat ∧ h.tag = false ∧ h.fl = 0 ∧
    h.res = (if n = 0 then 0 else if 32 ≤ n then a.toNat else a.toNat % 2 ^ n)) ∧
  (∀ (f : Fmt) (F : FF) (m : RMode) (sat : Bool) (p : Nat) (a d : Word32), f.isHalf = true → Fmt.ff f = some F → p < 2 →
    let x := fp32.value a.toNat
    let y := narrow (.fp F) x m sat
    let mag := y.1 % 2 ^ 15
    let yz := (narrow (.fp F) x .rz false).1 % 2 ^ 15
    let wide := (narrow (.fp fp32) (F.value yz) .rne false).1
    let r := fwdNarw f m sat p a d
    elem f 0 r.1 p = y.1 ∧ elem f 0 r.1 (1 - p) = elem f 0 d (1 - p) ∧ r.2.2.2 = y.2 ||| flIf x.isSig flNV ∧
    (r.2.2.1 = true ↔ x.isFin = false ∨ r.2.2.2 &&& flOF ≠ 0 ∨ mag ≠ 0 ∧ mag < 2 ^ F.mb ∨ mag = 0 ∧ x.isZero = false) ∧
    r.2.1 = (if r.2.2.1 then a else BitVec.ofNat 32 ((if yz < mag then 2 ^ 31 else 0) + (a.toNat % 2 ^ 31 - wide) % 2 ^ 24)))

/-- An undo instruction of a stream that holds the window pops its top record: a check of R195 that fails is raised with the record left in place; a
record that passes gives, with latency 6, the saved cell in a lane of tag 1 and the value computed from y in a lane of tag 0, with the flags of the
tag-0 lanes; an empty stack raises RVSTACK with SUB 0x09; nothing else changes (R195, R197). -/
def Obligations.UndoPops : Prop :=
  ∀ (s : State) (f : Fmt) (part : BitVec 1) (d : Line) (y b : VSrc) (r : RRec) (rest : List RRec),
    s.core.parity = [] → s.cur.winHeld = true →
    let m := s.cur.rmv
    let pops (i : Instr) (fm : Fmt) (want p : Nat) (narw : Bool) (lane : Nat → Word32 → Word32 → Word32 × Flags) : Prop :=
      let crc := lineCrc (s.readSrc y)
      (s.depth = 0 → s.Traps i (s.rvstack 0x09)) ∧
      (s.cur.win = r :: rest → ∀ t, s.undoCheck r want fm.bits.toNat p narw crc = some t → s.Traps i t) ∧
      (s.cur.win = r :: rest → s.undoCheck r want fm.bits.toNat p narw crc = none →
        ∃ (vs : List Word32) (fl : Flags), vs.length = 64 ∧
          (∀ l, l < 64 → vs.getD l 0 = if r.t0.getLsbD l then r.cells.getD l 0 else (lane l (s.laneOf y l) (r.cells.getD l 0)).1) ∧
          (∀ k, k < 7 → (fl.getLsbD k = true ↔
            ∃ l, l < 64 ∧ r.t0.getLsbD l = false ∧ (lane l (s.laneOf y l) (r.cells.getD l 0)).2.getLsbD k = true)) ∧
          let more : List Land := [⟨s.cur.pos + 6, s.slotRank, s.cur.pos, .cells ((s.lineKeys d).zip vs), fl⟩]
          exec i s = .next { s with cur := { s.cur with
            winAgent := agentNow s.cur, win := rest, flushing := false, land := s.cur.land ++ more } })
    pops (.uadd f d y b) f 0x2C 0 false (fun l v c => undoLane f (undoAdd f m false) v c (s.laneOf b l)) ∧
    pops (.usub f d y b) f 0x2D 0 false (fun l v c => undoLane f (undoAdd f m true) v c (s.laneOf b l)) ∧
    pops (.umul f d y b) f 0x2E 0 false (fun l v c => undoLane f (undoMul f m) v c (s.laneOf b l)) ∧
    pops (.unarw f part d y) f 0x2F part.toNat true (fun _ v c => undoNarw f m part.toNat v c) ∧
    pops (.urelu f d y) f 0x30 0 false (fun _ v c => undoLane f (fun e q _ => undoRelu f m e q) v c 0) ∧
    pops (.uscalb f d y b) f 0x31 0 false (fun l v c => undoLane f (fun e q _ => undoScalb f m (s.laneOf b l).toInt e q) v c 0) ∧
    pops (.ushr d y b) .i32 0x32 0 false (fun l v c => (undoShr v c (s.laneOf b l), 0))

/-- The reversible class is reversible: in every lane of tag 0 the undo, given the result cell and the operand of the forward instruction, returns the
whole forward input cell bit for bit and raises no flag, in whatever rounding modes the two ran; in a lane of tag 1 the record's cell is that input
(R189, R193, R194, R197). -/
def Obligations.UndoRestoresInput : Prop :=
  ∀ (f : Fmt) (m n : RMode) (sat ar : Bool) (a b p : Nat) (k : Int) (x y d : Word32),
    a < 2 ^ Fmt.width f 0 → b < 2 ^ Fmt.width f 0 → p < 2 →
    (f.isFWI = true → ∀ e, e = fwdAdd f m sat false a b → e.tag = false → undoAdd f n false e.y e.res b = (a, 0)) ∧
    (f.isFWI = true → ∀ e, e = fwdAdd f m sat true a b → e.tag = false → undoAdd f n true e.y e.res b = (a, 0)) ∧
    (f.isFW = true → ∀ e, e = fwdMul f m sat a b → e.tag = false → undoMul f n e.y e.res b = (a, 0)) ∧
    (f.isFW = true → ∀ e, e = fwdRelu f a → e.tag = false → undoRelu f n e.y e.res = (a, 0)) ∧
    (f.isFW = true → ∀ e, e = fwdScalb f m sat k a → e.tag = false → undoScalb f n k e.y e.res = (a, 0)) ∧
    (f.isHalf = true → ∀ e, e = fwdNarw f m sat p x d → e.2.2.1 = false → undoNarw f n p e.1 e.2.1 = (x, 0)) ∧
    undoShr (BitVec.ofNat 32 (fwdShr ar x y).y) (BitVec.ofNat 32 (fwdShr ar x y).res) y = x ∧
    let es (g : Nat → Nat → FwdElem) : List FwdElem := (upto 0 (Fmt.count f 0)).map (fun k => g (elem f 0 x k) (elem f 0 y k))
    let back (g : Nat → Nat → FwdElem) (u : Nat → Nat → Nat → Nat × Flags) : Prop :=
      let r := fwdLane f x (es g)
      (r.2.2.1 = false → undoLane f u r.1 r.2.1 y = (x, 0)) ∧ (r.2.2.1 = true → r.2.1 = x)
    (f.isFWI = true → back (fwdAdd f m sat false) (undoAdd f n false) ∧ back (fwdAdd f m sat true) (undoAdd f n true)) ∧
    (f.isFW = true → back (fwdMul f m sat) (undoMul f n) ∧ back (fun v _ => fwdRelu f v) (fun e q _ => undoRelu f n e q) ∧
      back (fun v _ => fwdScalb f m sat k v) (fun e q _ => undoScalb f n k e q)) ∧
    (f.isHalf = true → (fwdNarw f m sat p x d).2.2.1 = true → (fwdNarw f m sat p x d).2.1 = x)

/-- RSMARK pushes a marker of A's low 32 bits; RSDROP removes n records, from the window first and then from memory by STKPTR, and raises RVSTACK with
SUB 0x09 when the stack holds fewer; RSDROP.MARK of a window whose records down to the first marker are n returns that count, the marker and its tag
through the scoreboard; RSSYNC stalls while a spill or fill is in progress and then joins them; RSSYNC.FLUSH stalls while its window held records
before its bundle, which a spill then moves out, and gives up the hold of an empty one; for a stream that holds the window, outside a BKLOCK hold
(R189, R202, R204, R205, R206). SPILL starts when the window holds more than 448 records, or one during a flush, and FILL when it holds fewer than 32
and memory holds some, outside a flush, each behind the stream's earlier loads; SPILL_FILL_COMPLETE moves up to 16 records between the window's bottom
and memory at STKPTR, 272 bytes each, and STKPTR with them, and waits for a version bump, held banks or a refresh; a fault stops the agent and is
raised to the stream. What a spill wrote reads back as the records it took (R72, R199, R200, R201, R203, R255). -/
def Obligations.RemainderStack : Prop :=
  (∀ (s : State) (d : SReg) (a : SOp) (ms : List RRec) (k : RRec) (rest : List RRec), s.inHold = false → s.cur.winHeld = true →
    let r := s.rank s.cur.slot
    let n := (s.cur.readOp a).toNat % 2 ^ 16
    let full := r.stklim.toNat < r.stkbase.toNat + 272 * (s.depth + 1)
    let marker : RRec := { cells := List.replicate 64 0, t0 := 0, t1 := ((s.cur.readOp a).setWidth 32 : Word32) ++ (0x08000000 : Word32) }
    let w := agentNow s.cur
    (full → s.Traps (.rsmark a) (s.rvstack 0x08)) ∧
    (¬full → s.cur.win.length + (if w = 2 then r.fillCount else 0) < 480 →
      exec (.rsmark a) s = .next { s with cur := { s.cur with winAgent := w, win := marker :: s.cur.win, flushing := false } }) ∧
    (s.depth < n → s.Traps (.rsdrop a) (s.rvstack 0x09)) ∧
    (n ≤ s.cur.win.length →
      exec (.rsdrop a) s = .next { s with cur := { s.cur with winAgent := w, win := s.cur.win.drop n, flushing := false } }) ∧
    (s.cur.win.length < n → n ≤ s.depth → ∃ t, exec (.rsdrop a) s = .next t ∧ t.cur.win = [] ∧
      (t.rank s.cur.slot) = { r with stkptr := r.stkptr - BitVec.ofNat 64 (272 * (n - s.cur.win.length)) }) ∧
    ((∀ m ∈ ms, m.mark = false) → k.mark = true → s.cur.win = ms ++ k :: rest → ∃ t, exec (.rsdropMark d) s = .next t ∧ t.cur.win = rest ∧
      t.cur.pend = s.cur.pend ++ [⟨s.nextId, s.cur.pos,
        [.s d.toNat (BitVec.ofNat 64 (2 ^ 63 + (ms.length + 1) % 2 ^ 31 * 2 ^ 32 + k.mtag))], 0, [], none⟩]) ∧
    (s.cur.winAgent ≠ 1 → s.cur.winAgent ≠ 2 → exec .rssync s = .next s.joinWindow) ∧
    (s.mem.wq = [] → s.mem.rq = [] → (∀ q ∈ s.cur.pend, q.rd = none) → s.joinWindow = s) ∧
    (s.cur.winAgent = 1 ∨ s.cur.winAgent = 2 → exec .rssync s = .next { s with cur := { s.cur with mark := .stalled true none .hold, flushing := false } }) ∧
    (s.cur.winAgent ≠ 1 → s.cur.winAgent ≠ 2 → s.before.cur.win = [] → s.cur.win = [] →
      ∃ t, exec .rssyncFlush s = .next t ∧ t.cur.winHeld = false ∧ t.cur.winAgent = 0 ∧ (t.rank s.cur.slot).stkHold = none) ∧
    (s.cur.winAgent = 1 ∨ s.cur.winAgent = 2 ∨ s.before.cur.win ≠ [] → exec .rssyncFlush s = .next { s with cur := { s.cur with
      mark := .stalled true none .flush, flushing := true, winAgent := if s.cur.winAgent = 3 then 0 else s.cur.winAgent } })) ∧
  (∀ (s : State) (win : List RRec) (n : Nat), s.curLive = true →
    let x := s.cur
    let r := s.rank x.slot
    let free := x.winHeld = true ∧ x.stopped = false ∧ x.winAgent = 0
    let spills := free ∧ (448 < x.win.length ∨ x.flushing = true ∧ x.win ≠ [])
    let fills := free ∧ x.flushing = false ∧ x.ending = 0 ∧ x.win.length < 32 ∧ r.stkbase.toNat < r.stkptr.toNat
    let agent (k : Nat) : State := { s.resolveAll with cur := { s.resolveAll.cur with winAgent := k } }
    let i : Instr := .spillFillComplete s.curKey
    let m := min 16 x.win.length
    let k := min 16 ((r.stkptr.toNat - r.stkbase.toNat) / 272)
    let lo := r.stkptr.toNat - 272 * k
    let broken (t : TrapRec) : State := { s with cur := { x with winAgent := 3, async := x.async ++ [t] } }
    let still := s.calm ∧ ∀ pa, s.refreshing pa = false
    let sound := ∀ o ∈ s.ops, o.isTrap s.curKey = false
    ((∀ q ∈ x.pend, q.rd = none) → s.resolveAll = s) ∧
    (spills → exec (.spill s.curKey) s = .next (agent 1)) ∧ (¬spills → exec (.spill s.curKey) s = .next s) ∧
    (fills → exec (.fill s.curKey) s = .next (agent 2)) ∧ (¬fills → exec (.fill s.curKey) s = .next s) ∧
    (x.winAgent ≠ 1 → x.winAgent ≠ 2 → exec i s = .next s) ∧
    (∀ t, x.winAgent = 1 → sound → s.pieces { x with det := false } (s.curKey / 2) r.stkptr.toNat (272 * m) .ewrite = .error t →
      exec i s = .next (broken t)) ∧
    (∀ ps u, x.winAgent = 1 → s.pieces { x with det := false } (s.curKey / 2) r.stkptr.toNat (272 * m) .ewrite = .ok (ps, u) →
      (u.piecesWait x.ctx s.curKey ps = true → exec i s = .next s) ∧
      (u.piecesWait x.ctx s.curKey ps = false → ∃ t, exec i s = .next t ∧
        t.cur.win = x.win.take (x.win.length - m) ∧ t.cur.winAgent = 0 ∧ (t.rank x.slot).stkptr = r.stkptr + BitVec.ofNat 64 (272 * m) ∧
        t.mem = ((u.latDone (u.streamLines ps)).enginePuts { x with det := false } s.curKey false ps (spillBytes x.win m)).mem)) ∧
    (x.winAgent = 1 → still → s.reaches r.stkptr.toNat (272 * m) .ewrite → ∃ t, exec i s = .next t ∧
      t.cur.win = x.win.take (x.win.length - m) ∧ t.cur.winAgent = 0 ∧ (t.rank x.slot).stkptr = r.stkptr + BitVec.ofNat 64 (272 * m)) ∧
    (x.winAgent = 2 → still → s.reaches lo (272 * k) .eread → ∃ t l, exec i s = .next t ∧
      t.cur.win = x.win ++ (fillRecs l k).reverse ∧ t.cur.winAgent = 0 ∧ (t.rank x.slot).stkptr = r.stkptr - BitVec.ofNat 64 (272 * k)) ∧
    (∀ t, x.winAgent = 2 → sound → s.pieces x (s.curKey / 2) lo (272 * k) .eread = .error t → exec i s = .next (broken t)) ∧
    (∀ ps u, x.winAgent = 2 → s.pieces x (s.curKey / 2) lo (272 * k) .eread = .ok (ps, u) →
      let rd := (u.latDone (u.streamLines ps)).readPieces u.mem.spad s.curKey x.slot x.ctx ps
      (u.piecesWait x.ctx s.curKey ps = true → exec i s = .next s) ∧
      (u.piecesWait x.ctx s.curKey ps = false →
        exec i s = .next (State.modStream (rd.2.putRank x.slot { r with stkptr := r.stkptr - BitVec.ofNat 64 (272 * k) }) s.curKey
          (fun x => { x with win := x.win ++ (fillRecs rd.1 k).reverse, winAgent := 0 })))) ∧
    (n ≤ win.length → (∀ e ∈ win, e.cells.length = 64) → (fillRecs (spillBytes win n) n).reverse = win.drop (win.length - n) ∧
      (spillBytes win n).length = 272 * n))

/-- KLD and KLDZ narrow each loaded element to FP32 in the mode RMK, with NV for a signalling NaN, latency 4; KST and KST.Z write a register's bytes
into the window at issue; KMOV moves 32-bit values with latency 1 and no flag; KSETEF writes EFR with latency 4, KGETEF reads it. The address is sA +
B times the size, the faults are those of R184 in their order, and nothing else changes (R184, R185, R186, R187). The model's choices in it: log 27.
-/
def Obligations.KSlot : Prop :=
  ∀ (s : State) (f : KFmt) (bf : Bool) (c c2 : BitVec 4) (z : BitVec 2) (d a : SReg) (b : SOp),
    let adr (n : Nat) : Word64 := s.cur.readS a + s.cur.readOp b * BitVec.ofNat 64 n
    let conv (f : KFmt) (bytes : List Byte) : Word32 × Flags :=
      let r := narrow (.fp fp32) (loadedVal f (leNat bytes)) s.cur.rmk false
      (BitVec.ofNat 32 r.1, r.2 ||| nvOf [loadedVal f (leNat bytes)])
    let zf : KFmt := if bf then .bf16 else .f32
    let u := kSize zf
    let lane (ps : List Piece) (k : Nat) : Word32 × Flags := conv zf (((winBytes s.vspad ps).drop (u * k)).take u)
    s.Windowed (.kld f c a b) (adr (kSize f)) (kSize f) (kSize f) .load (fun ps =>
      s.out 4 (.c c.toNat (conv f (winBytes s.vspad ps)).1) (conv f (winBytes s.vspad ps)).2) ∧
    s.Windowed (.kldz bf z a b) (adr (64 * u)) u (64 * u) .load (fun ps =>
      s.out 4 (.z z.toNat ((List.range 64).map (fun k => (lane ps k).1))) ((List.range 64).foldl (fun t k => t ||| (lane ps k).2) 0)) ∧
    s.Windowed (.kst c a b) (adr 4) 4 4 .store (fun ps => s.winStore ps (leBytes (s.cur.c.get c.toNat).toNat 4)) ∧
    s.Windowed (.kstZ z a b) (adr 256) 4 256 .store (fun ps =>
      s.winStore ps ((List.range 64).map (fun i => leBytes (s.cur.z.get (z.toNat * 64 + i)).toNat 4)).flatten) ∧
    s.Writes (.kmovCFromOp c b) 1 (.c c.toNat (lo32 (s.cur.readOp b))) ∧
    s.Writes (.kmovSFromC d c) 1 (.s d.toNat ((s.cur.c.get c.toNat).setWidth 64)) ∧
    s.Writes (.kmovCFromC c c2) 1 (.c c.toNat (s.cur.c.get c2.toNat)) ∧
    s.Writes (.kmovCFromZ c z b) 1 (.c c.toNat (s.cur.z.get (z.toNat * 64 + (s.cur.readOp b).toNat % 64))) ∧
    s.Writes (.kmovZFromC z c b) 1 (.ze z.toNat ((s.cur.readOp b).toNat % 64) (s.cur.c.get c.toNat)) ∧
    s.Writes (.ksetef b) 4 (.sys .efr (s.cur.readOp b)) ∧
    s.Writes (.kgetef d) 1 (.s d.toNat (s.cur.efr.setWidth 64))

/-- The scalar and line loads and stores and the acquire and release forms: a load returns, through the scoreboard, the bytes at sA + B′, extended or
as 64 cells: of granules, the bytes before its bundle; of global memory, those it reads at some time up to its landing (R259). A store puts the
register's low bytes, or a line's cells, at that address, after the stream's earlier loads of those bytes have read. LDA and STREL do the same outside
a hold; LDA reads at once, unless a bank is in refresh, and then what the releases it has read ordered within its scope is performed; the write of
STREL carries what a release at its scope orders (R255, R261, R264). PREF changes no byte and has no result; its faults are dropped, and a frame that
no stack holds is contained (R237-R240). The model's choices in it: log 12, 27, 43. -/
def Obligations.LoadsAndStores : Prop :=
  ∀ (s : State) (sz : Sz) (sx w rep : Bool) (sc : BitVec 3) (d a : SReg) (b : SOp) (l : Line), s.core.parity = [] →
    let n := szLen sz
    let m := if w then 4 else 8
    let adr (u : Nat) : Word64 := s.cur.readS a + s.cur.readOff u b
    let late (f : RForm) (ps : List Piece) (u : State) : State :=
      if ps.all (fun p => (p.part u.vspad).win.isSome) then u.pends (f.tgts (winBytes u.vspad ps))
      else u.pends f.holds (u.dramLines ps) 0 (some ⟨ps.map (fun p => p.part u.vspad), f⟩)
    let now (f : RForm) (ps : List Piece) (u : State) : State :=
      let v := State.resolveOver { u with cur := { u.cur with heard := [] } } ps
      let r := v.readPieces v.vspad v.curKey v.cur.slot v.cur.ctx ps
      let z := r.2.acqOf (r.2.curKey / 2) sc.toNat r.2.cur.heard
      State.pends { z with cur := { z.cur with heard := u.cur.heard ++ z.cur.heard } } (f.tgts r.1) (z.dramLines ps)
    let marked (ps : List Piece) (u : State) : State :=
      let v := u.relMark u.curKey sc.toNat
      let x := { v.cur with fences := { level := sc.toNat, ids := v.relSet v.curKey } :: v.cur.fences }
      (v.resolveOver ps).storePieces x v.curKey ps (leBytes (u.cur.readS d).toNat m)
    let store (ps : List Piece) (n : Nat) (u : State) : State :=
      (u.resolveOver ps).storePieces u.cur u.curKey ps (leBytes (u.cur.readS d).toNat n)
    let pf := (adr 128).toNat
    let line := fun (e : Tlb) => e.phys pf / 128 * 128
    s.Accesses (.ld sz sx d a b) (adr n) n n .load (late (.scalar d.toNat n sx)) ∧
    (∀ v : List Byte, (RForm.scalar d.toNat n sx).tgts v = [.s d.toNat (extend sx n v)] ∧
      (RForm.line (s.lineKeys l)).tgts v = [.cells ((s.lineKeys l).zip (words32 v))] ∧
      (v.length = 256 → ((RForm.line (s.lineKeys l)).tgts v).map Tgt.keys = ((RForm.line (s.lineKeys l)).holds).map Tgt.keys)) ∧
    (∀ (p : Pend) (f : RForm) (ps : List Piece), p.rd = some ⟨ps.map (fun q => q.part []), f⟩ → (∀ q ∈ ps, ∃ pa e, q.pl = .glob pa e) →
      let r := s.readPieces [] s.curKey s.cur.slot s.cur.ctx ps
      s.resolve p = { r.2 with cur := { r.2.cur with
        pend := mapIf (fun q => q.id == p.id) (fun q => { q with tgts := f.tgts r.1, rd := none }) r.2.cur.pend } }) ∧
    (∀ v : List Byte, v.length = n → extend sx n v =
      if sx then (BitVec.ofNat (8 * n) (leNat v)).signExtend 64 else (BitVec.ofNat (8 * n) (leNat v)).setWidth 64) ∧
    s.Accesses (.st sz d a b) (adr n) n n .store (fun ps u => store ps n u) ∧
    s.Accesses (.ldln l a b) (adr 64) 256 64 .load (fun ps u => late (.line (u.lineKeys l)) ps u) ∧
    s.Accesses (.stln l a b) (adr 64) 256 64 .store (fun ps u =>
      (u.resolveOver ps).storePieces u.cur u.curKey ps (((u.readLine l).map (fun c => leBytes c.toNat 4)).flatten)) ∧
    ((∀ q ∈ s.cur.pend, q.rd = none) → ∀ ps, s.resolveOver ps = s) ∧
    (s.inHold = true → (∀ i ∈ [Instr.lda sc w d a b, .strel sc w d a b], s.Traps i (bkTrap 0x60 (adr m))) ∧
      s.Traps (.pref rep a b) (bkTrap 0x60 (adr 128))) ∧
    (s.inHold = false →
      s.Accesses (.lda sc w d a b) (adr m) m m .load (now (.scalar d.toNat m false)) (fun ps u => u.dramWait ps) ∧
      s.Accesses (.strel sc w d a b) (adr m) m m .store (fun ps u => marked ps u) ∧
      (inWindow pf = true → exec (.pref rep a b) s = .next s) ∧
      (∀ t, inWindow pf = false → s.xlat (s.curKey / 2) s.cur.slot pf .load = .error t → t.frame = none → exec (.pref rep a b) s = .next s) ∧
      (∀ t f va, inWindow pf = false → s.xlat (s.curKey / 2) s.cur.slot pf .load = .error t → t.frame = some (f, va) →
        exec (.pref rep a b) s = .next (s.contain s.cur.slot va f)) ∧
      (∀ e u, inWindow pf = false → s.xlat (s.curKey / 2) s.cur.slot pf .load = .ok (e, u) →
        e.home = 1 ∨ e.home = 3 ∨ e.home = 0 ∧ (rep = false ∨ paDie (line e) = coreDie (s.curKey / 2)) →
        exec (.pref rep a b) s = .next u) ∧
      (∀ e u, inWindow pf = false → s.xlat (s.curKey / 2) s.cur.slot pf .load = .ok (e, u) → e.home = 2 →
        exec (.pref rep a b) s = .next (u.pinHome u.cur.slot (pf / 128 * 128) (line e) 128)) ∧
      (∀ e u, inWindow pf = false → s.xlat (s.curKey / 2) s.cur.slot pf .load = .ok (e, u) → e.home = 0 → rep = true →
        paDie (line e) ≠ coreDie (s.curKey / 2) → ∃ t, exec (.pref rep a b) s = .next t ∧
          t.mem.reps.has (e.phys pf / 128 * 4 + coreDie (s.curKey / 2)) = true))

/-- A store changes its own bytes and no others: after bytes l at a scratchpad key, every byte of them reads back, every other scratchpad byte and
every HBM byte reads as before, every word that the bytes touch is full and every other word's full/empty bit stands; nothing outside the memories
changes. A store to a page not pinned by the core joins the stream's pending writes and changes no byte of HBM until it is performed (R237, R238,
R257, R276). -/
def Obligations.StoreChangesItsBytes : Prop :=
  ∀ (s : State) (k : Nat) (l : List Byte) (j w : Nat), s.Canon →
    let t := s.winPut k l
    (k ≤ j → j < k + l.length → t.mem.spad.get j = l.getD (j - k) 0) ∧
    (j < k ∨ k + l.length ≤ j → t.mem.spad.get j = s.mem.spad.get j) ∧
    (∀ i, k ≤ i → i < k + l.length → i / 4 = w → t.mem.fe.get w = 1) ∧
    ((∀ i, k ≤ i → i < k + l.length → i / 4 ≠ w) → t.mem.fe.get w = s.mem.fe.get w) ∧
    t.mem.hbm = s.mem.hbm ∧ t.mem.clocks = s.mem.clocks ∧ t.mem.wq = s.mem.wq ∧ t.Canon ∧
    t.cur = s.cur ∧ t.core = s.core ∧ t.streams = s.streams ∧ t.cores = s.cores ∧ t.front = s.front ∧ t.ops = s.ops ∧ t.mgmt = s.mgmt ∧
    (∀ (va pa : Nat) (e : Tlb), e.home ≠ 3 →
      let w : PWrite :=
        { id := s.nextId, grp := s.nextId, addr := va, cnt := true, rls := s.cur.fences, lat := e.lat, key := s.curKey, va := va, pa := pa, bytes := l, home := e.home, ctx := s.cur.ctx,
          slot := s.cur.slot, buf := e.buf, tag := s.cur.heatKey, wid := s.cur.wid }
      s.storePiece s.cur s.curKey ⟨va, l.length, .glob pa e⟩ l =
        { s with nextId := s.nextId + 1, mem := { s.mem with wq := s.mem.wq ++ [w] } })

/-- LDW waits until its words are full, returns their bytes and under .E leaves them empty; STW waits until they are empty, writes them and leaves
them full; FECLR and FESET set B[16:0] words empty or full, stalling so that they take one cycle per 512 words, and fault with SUB 0x14 for a count of
0 or above 65,536; FEPOLL returns whether the word is full. The words are those before the bundle; STW and FESET release at level 3. A wait that
reaches FEWAITLIM takes its trap (R277, R278, R280). BKLOCK outside a hold begins a hold of its groups for the n bundles after it, and within one
raises SUB 0x61; the hold ends when its count is used up and not before; a bundle stalled for the ninth cycle raises SUB 0x63 (R288, R289). The
model's choices in it: log 12, 27. -/
def Obligations.FullEmptyAndHolds : Prop :=
  (∀ (s : State) (dbl take : Bool) (d a : SReg) (p : PReg) (b : SOp), s.Canon →
    let n := if dbl then 8 else 4
    let c := (s.cur.readOp b).toNat % 2 ^ 17
    let adr (u : Nat) : Word64 := s.cur.readS a + s.cur.readOff u b
    let full (ps : List Piece) (v : BitVec 1) : Prop := ∀ w ∈ feWords ps, s.vfe.get w.1 = v
    let waits (i : Instr) (ps : List Piece) (v : BitVec 1) (sub : Nat) : Prop :=
      ∀ pre w post, feWords ps = pre ++ w :: post → (∀ x ∈ pre, s.vfe.get x.1 = v) → s.vfe.get w.1 ≠ v →
        let t : TrapRec := { cause := 0x09, addr := BitVec.ofNat 64 w.2, info := BitVec.ofNat 64 sub }
        exec i s = .next { s with cur := { s.cur with mark := .stalled true (some t) .nothing } }
    let takes := (c + 511) / 512 - 1
    let busy : State := { s with cur := { s.cur with mark := .stalled true none .cycle, fixed := s.cur.fixed + 1 } }
    let count (i : Instr) (x : List Piece → State) : Prop :=
      s.feActs i (s.cur.readS a) (4 * c) 4 .store (fun ps =>
        if c = 0 ∨ 65536 < c then .trap (s.illop 0x14) else s.stallFor takes (.ok (x ps))) ∧
      ((s.cur.readS a).toNat % 4 = 0 → c ≠ 0 → c ≤ 65536 → (s.cur.readS a).toNat + 4 * c ≤ 2 ^ 56 → s.inHold = false →
        s.cur.inGrans (s.curKey / 2) (s.cur.readS a).toNat (4 * c) → s.calm →
        ∃ ps, s.cur.winPieces (s.curKey / 2) (s.cur.readS a).toNat (4 * c) .store = .ok ps ∧
          exec i s = .next (if s.cur.fixed < takes then busy else x ps))
    let pieces (k : AKind) (u : Nat) (ps : List Piece) : Prop :=
      (adr u).toNat % u = 0 ∧ inWindow (adr u).toNat = true ∧ (adr u).toNat + u ≤ 2 ^ 56 ∧ s.inHold = false ∧
      s.cur.winPieces (s.curKey / 2) (adr u).toNat u k = .ok ps ∧ s.bankHeld s.curKey (winKeys ps) = false
    (∀ ps, pieces .load n ps → waits (.ldw dbl take d a b) ps 1 0x50) ∧
    (∀ ps, pieces .load n ps → full ps 1 → ps.any (fun x => x.bad s.mem) = false →
      let u := s.pends [.s d.toNat (BitVec.ofNat 64 (leNat (winBytes s.vspad ps)))]
      exec (.ldw dbl take d a b) s = .next (if take then u.feSet ps false else u)) ∧
    (∀ ps, pieces .store n ps → waits (.stw dbl d a b) ps 0 0x51) ∧
    (∀ ps, pieces .store n ps → full ps 0 →
      exec (.stw dbl d a b) s = .next ((s.relAll s.curKey 3).winStore ps (leBytes (s.cur.readS d).toNat n))) ∧
    (∀ k u, (adr u).toNat % u = 0 → 0 < u → (adr u).toNat + u ≤ 2 ^ 56 → s.inHold = false → s.cur.inGrans (s.curKey / 2) (adr u).toNat u → s.calm →
      ∃ ps, pieces k u ps ∧ ps.any (fun x => x.bad s.mem) = false) ∧
    count (.feclr a b) (fun ps => s.feSet ps false) ∧
    count (.feset a b) (fun ps => (s.relAll s.curKey 3).feSet ps true) ∧
    s.feActs (.fepoll p a b) (adr 4) 4 4 .load (fun ps =>
      .ok (s.pends [.p p.toNat ((feWords ps).all (fun w => s.vfe.get w.1 == 1))])) ∧
    (∀ (ps : List Piece) (v : Bool) (w : Nat), (s.feSet ps v).mem.fe.get w =
      if (feWords ps).any (fun e => e.1 == w) then (if v then 1 else 0) else s.mem.fe.get w) ∧
    (∀ (lat : Bool) (t : TrapRec) (k : Keep), s.curLive = true → s.cur.mark = .stalled lat (some t) k →
      exec (.fewait s.curKey) s = .next
        (if s.cur.fewaitlim ≠ 0 ∧ s.cur.fewaitlim.toNat ≤ s.cur.waitCyc then s.enterTrap t s.cur.pc else s))) ∧
  (∀ (s : State) (mask : BitVec 16) (n : BitVec 4) (h : Hold), s.curLive = true →
    (s.cur.hold = none → exec (.bklock mask n) s =
      .next { s with cur := { s.cur with hold := some { mask := mask, left := n.toNat + 1, stalls := 0 } } }) ∧
    (s.cur.hold = some h → s.Traps (.bklock mask n) { cause := 0x0E, addr := s.cur.pc, info := 0x61 }) ∧
    (s.cur.hold = some h → exec (.bklockHoldEnd s.curKey) s =
      .next (if h.left = 0 then { s with cur := { s.cur with hold := none } } else s)) ∧
    (s.cur.hold = none → exec (.bklockHoldEnd s.curKey) s = .next s ∧ exec (.bklockStallLimit s.curKey) s = .next s) ∧
    (s.cur.hold = some h → 8 ≤ h.stalls → s.Traps (.bklockStallLimit s.curKey) { cause := 0x0E, addr := s.cur.pc, info := 0x63 }) ∧
    (s.cur.hold = some h → h.stalls < 8 → exec (.bklockStallLimit s.curKey) s = .next s))

/-- The integer, bitwise, swap, compare-and-swap and floating atomics: the new value of each from the old value and the operand; ACAS writes only when
the old value is the comparand; AMIN and AMAX compare and return by their signedness; in a hold they raise BKLOCK with SUB 0x60 (R281, R282, R283,
R289). The model's choices in it: log 12. -/
def Obligations.Atomics : Prop :=
  ∀ (s : State) (sz : Sz) (az : ASz) (ord sx f32 : Bool) (d a : SReg) (b : SOp),
    let n := szLen sz
    let m := aszLen az
    let v (n : Nat) : Nat := s.atomArg b n
    let val (x : Nat) : Int := if sx then (BitVec.ofNat (8 * n) x).toInt else x
    let F := if f32 then fp32 else bf16
    let all : List Instr := [.aadd sz ord d a b, .amin sx sz ord d a b, .amax sx sz ord d a b, .aand az ord d a b, .aor az ord d a b,
      .axor az ord d a b, .aswap az ord d a b, .acas az ord d a b, .afadd f32 ord d a b]
    (s.inHold = true → ∀ i ∈ all, s.Traps i (bkTrap 0x60 (s.cur.readS a))) ∧
    (s.inHold = false →
      s.Atomic (.aadd sz ord d a b) n ord false d a (fun old => (some ((old + v n) % 2 ^ (8 * n)), 0)) ∧
      s.Atomic (.amin sx sz ord d a b) n ord sx d a (fun old => (some (if val (v n) < val old then v n else old), 0)) ∧
      s.Atomic (.amax sx sz ord d a b) n ord sx d a (fun old => (some (if val old < val (v n) then v n else old), 0)) ∧
      s.Atomic (.aand az ord d a b) m ord false d a (fun old => (some (old &&& v m), 0)) ∧
      s.Atomic (.aor az ord d a b) m ord false d a (fun old => (some (old ||| v m), 0)) ∧
      s.Atomic (.axor az ord d a b) m ord false d a (fun old => (some (old ^^^ v m), 0)) ∧
      s.Atomic (.aswap az ord d a b) m ord false d a (fun _ => (some (v m), 0)) ∧
      s.Atomic (.acas az ord d a b) m ord false d a (fun old => (if old = s.cur.pairVal d m then some (v m) else none, 0)) ∧
      s.Atomic (.afadd f32 ord d a b) (if f32 then 4 else 2) ord false d a (fun old =>
        let y := exAdd .rne (F.value old) (F.value (v (if f32 then 4 else 2)))
        let r := narrow (.fp F) y.1 .rne false
        (some r.1, y.2 ||| r.2))) ∧
    (∀ (e : Tlb) (va pa k : Nat), (∀ q ∈ s.cur.pend, q.rd = none) → s.pendingOn s.curKey pa k = [] → paDie pa = coreDie (s.curKey / 2) →
      e.home = 0 ∨ e.home = 1 → s.atomHome false e va pa k = s)

/-- Deques: DQPUSH stores at the bottom and binds an empty deque to the issuer, DQPOP takes the last element pushed, DQSTEAL the first; a full or
foreign deque refuses a push, an empty or foreign one a pop and a steal, and then nothing of it changes; a deque that becomes empty loses its binding;
results come through the scoreboard; a successful push stores with its element what its release at level 1 orders, and a successful pop or steal
synchronises with the push whose element it takes (R284, R285, R286). OWNGIVE of a held granule against which the stream has no work ends the hold on
it and sends it to the referenced task after a release at level 3; a misaligned address raises MISALIGN, a granule not held OWNERSHIP with SUB 0x40 or
0x41. OWNQRY answers for a received slot its giver under bit 63, and for an address whether the granule is held (R241, R242). The model's choices in
it: log 27. -/
def Obligations.DequesAndGranules : Prop :=
  (∀ (s : State) (d a : SReg) (p : PReg) (b : SOp), s.inHold = false →
    let i := (s.cur.readOp b).toNat % 64
    let crew := s.curKey / 16
    let q := ((s.crews.at crew {}).deques.at i {})
    let mine := q.ctx = s.cur.ctx ∧ q.rank = s.cur.vrank.toNat
    let put (u : State) (q : Deque) : State :=
      let c := u.crews.at crew {}
      { u with crews := u.crews.put crew { c with deques := c.deques.put i q } }
    let bound (q : Deque) : Deque := if q.n = 0 then { q with ctx := 0, rank := 0 } else q
    let fails : List Tgt := [.s d.toNat 0, .p p.toNat false]
    (q.n = 256 ∨ q.n ≠ 0 ∧ ¬mine → exec (.dqpush p a b) s = .next (s.pends [.p p.toNat false])) ∧
    (¬(q.n = 256 ∨ q.n ≠ 0 ∧ ¬mine) →
      let u := s.relMark s.curKey 1
      exec (.dqpush p a b) s = .next ((put u
        { q with elems := q.elems.set q.bottom (s.cur.readS a), bottom := (q.bottom + 1) % 256, n := q.n + 1, ctx := s.cur.ctx,
                 rank := s.cur.vrank.toNat, rls := q.rls.put (((q.bottom + 1) % 256 + 255) % 256) (u.relSet s.curKey) }).pends [.p p.toNat true])) ∧
    (q.n = 0 ∨ ¬mine → exec (.dqpop d p b) s = .next (s.pends fails) ∧ exec (.dqsteal d p b) s = .next (s.pends fails)) ∧
    (q.n ≠ 0 → mine →
      let k := (q.bottom + 255) % 256
      exec (.dqpop d p b) s = .next ((put (s.acqPush (q.rls.at k [])) (bound { q with bottom := k, n := q.n - 1, rls := q.rls.del k })).pends
        [.s d.toNat (q.elems.get k), .p p.toNat true]) ∧
      exec (.dqsteal d p b) s = .next ((put (s.acqPush (q.rls.at q.top []))
          (bound { q with top := (q.top + 1) % 256, n := q.n - 1, rls := q.rls.del q.top })).pends
        [.s d.toNat (q.elems.get q.top), .p p.toNat true]))) ∧
  (∀ (s : State) (d a : SReg) (b : SOp) (byAddr : Bool), s.inHold = false →
    let va := (s.cur.readS a).toNat
    let i := (va - Config.spwbase) / 65536
    let v := s.cur.readOp b
    let key := s.cur.winKey (s.curKey / 2) va
    let dest := s.cur.taskRef ((s.cur.readOp b).toNat % 2 ^ 32)
    let q : Word64 :=
      if byAddr then (if inWindow v.toNat = true ∧ (s.cur.winKey (s.curKey / 2) v.toNat).toOption.isSome = true then 1 else 0)
      else match s.cur.recv.find (v.toNat % 16) with
        | some g => BitVec.ofNat 64 (2 ^ 63 + g.giver)
        | none => 0
    exec (.ownqry byAddr d b) s = .next (s.pends [.s d.toNat q]) ∧
    (va % 65536 ≠ 0 → s.Traps (.owngive a b) { cause := 0x04, addr := s.cur.readS a }) ∧
    (va % 65536 = 0 → inWindow va = false → s.Traps (.owngive a b) { cause := 0x07, addr := s.cur.readS a, info := 0xF240 }) ∧
    (∀ sub, va % 65536 = 0 → inWindow va = true → key = .error sub →
      s.Traps (.owngive a b) { cause := 0x07, addr := s.cur.readS a, info := BitVec.ofNat 64 (0xF200 + sub) }) ∧
    (∀ k, va % 65536 = 0 → inWindow va = true → key = .ok k → s.granBusy va = false →
      let u := s.relAll s.curKey 3
      let x := if i < 16 then { u.cur with lgran := u.cur.lgran.del i } else { u.cur with recv := u.cur.recv.del (i - 16) }
      let o : Op :=
        { id := u.nextId, key := s.curKey, ctx := x.ctx, slot := x.slot, core := s.curKey / 2, task := x.task,
          kind := .gran (k / 2 ^ 20) (k % 2 ^ 20 / 65536) x.task dest }
      exec (.owngive a b) s = .next { u with cur := x, nextId := u.nextId + 1, ops := u.ops ++ [o] })) ∧
  (∀ (s : State) (a : SReg) (b : SOp), s.inHold = true → s.Traps (.owngive a b) (bkTrap 0x60 (s.cur.readS a)))

/-- RGDEF defines a ring from its 16-byte descriptor with head, tail and filled 0, after the checks of R243 in their order. RGADVT and RGADVH move the
tail and the head by n slots modulo COUNT and change filled by n, as releases at scope 0; RGWAITF and RGWAITE pass, with a join of what advanced, when
enough slots are filled or free and wait, with SUB 0x52 and the slot's address for FEWAIT, otherwise; a count of 0, above COUNT, above the free or
filled slots, or an undefined ring raises ILLOP with SUB 0x14 (R243, R244). -/
def Obligations.Rings : Prop :=
  ∀ (s : State) (r : BitVec 4) (a : SReg) (b : SOp), s.inHold = false →
    let n := (s.cur.readOp b).toNat % 512
    let out := s.cur.tiles4 = true ∧ 8 ≤ r.toNat
    let va := s.cur.readS a
    let all : List Instr := [.rgadvt r b, .rgadvh r b]
    let waits : List Instr := [.rgwaitf r b, .rgwaite r b]
    let put (u : State) (g : Ring) : State := { u with cur := { u.cur with rings := u.cur.rings.put r.toNat g } }
    let stalls (i : Instr) (addr : Nat) : Prop :=
      let t : TrapRec := { cause := 0x09, addr := BitVec.ofNat 64 addr, info := 0x52 }
      exec i s = .next { s with cur := { s.cur with mark := .stalled true (some t) .nothing } }
    (out → ∀ i ∈ .rgdef r a :: all ++ waits, s.Traps i (s.illop 0x14)) ∧
    (s.cur.rings.find r.toNat = none → ∀ i ∈ all, s.Traps i (s.illop 0x14)) ∧
    (s.vrings.find r.toNat = none → ∀ i ∈ waits, s.Traps i (s.illop 0x14)) ∧
    (∀ g, ¬out → s.cur.rings.find r.toNat = some g →
      (n = 0 ∨ g.count < n → ∀ i ∈ all, s.Traps i (s.illop 0x14)) ∧
      (n ≠ 0 → n ≤ g.count → g.count - g.filled < n → s.Traps (.rgadvt r b) (s.illop 0x14)) ∧
      (n ≠ 0 → n ≤ g.count → g.filled < n → s.Traps (.rgadvh r b) (s.illop 0x14)) ∧
      (n ≠ 0 → n ≤ g.count → n ≤ g.count - g.filled → exec (.rgadvt r b) s =
        .next (put (s.relMark s.curKey 0) { g with tail := (g.tail + n) % g.count, filled := g.filled + n })) ∧
      (n ≠ 0 → n ≤ g.filled → g.filled ≤ g.count → exec (.rgadvh r b) s =
        .next (put (s.relMark s.curKey 0) { g with head := (g.head + n) % g.count, filled := g.filled - n }))) ∧
    (∀ g, ¬out → s.vrings.find r.toNat = some g →
      (n = 0 ∨ g.count < n → ∀ i ∈ waits, s.Traps i (s.illop 0x14)) ∧
      (n ≠ 0 → n ≤ g.count → g.filled < n → stalls (.rgwaitf r b) (g.base + g.slot * g.tail)) ∧
      (n ≠ 0 → n ≤ g.count → n ≤ g.filled → exec (.rgwaitf r b) s = .next (s.joinMem s.curKey)) ∧
      (n ≠ 0 → n ≤ g.count → g.count - g.filled < n → stalls (.rgwaite r b) (g.base + g.slot * g.head)) ∧
      (n ≠ 0 → n ≤ g.count → n ≤ g.count - g.filled → exec (.rgwaite r b) s = .next (s.joinMem s.curKey))) ∧
    (¬out → s.ownCalls s.curKey ≠ [] → exec (.rgdef r a) s = .next { s with cur := { s.cur with mark := .stalled true none .nothing } }) ∧
    (s.mayRead va 16 8 → ∃ w v, s.readsAt va 16 8 w v ∧ v.cur.rings = s.cur.rings) ∧
    (∀ w v, ¬out → s.ownCalls s.curKey = [] → s.readsAt va 16 8 w v →
      let g0 := (wordAt w 0).toNat
      let g1 := (wordAt w 1).toNat
      let count := g1 / 2 ^ 32 % 512
      let slot := g1 % 2 ^ 32
      let base := g0 % 2 ^ 56
      let good := g1 / 2 ^ 41 = 0 ∧ g0 / 2 ^ 56 = 0 ∧ 1 ≤ count ∧ count ≤ 256 ∧ slot % 128 = 0 ∧ 128 ≤ slot ∧ slot ≤ 1048576
      (¬good → s.Traps (.rgdef r a) (v.illop 0x14)) ∧
      (good → base % 128 ≠ 0 → s.Traps (.rgdef r a) { cause := 0x04, addr := BitVec.ofNat 64 base }) ∧
      (good → base % 128 = 0 → exec (.rgdef r a) s = .next (put v ⟨base, slot, count, 0, 0, 0⟩)))

/-- FENCE.ACQ passes when the stream's loads have returned, and then acts as an acquire; FENCE.REL and FENCE.FULL when its writes are also performed,
at home and at every replica within the level, and then act as a release, which the stream's later stores carry as far as it is not yet performed
everywhere, FENCE.FULL also as an acquire; FENCE.JOIN when its engine operations have completed, and then joins them and its calls and acts as an
acquire; each looks at the state before its bundle, and stalls, counting in LATCNT, until then. ICINV of no byte does nothing, of 2^24 bytes or more
or of the window raises SUB 0x14, and otherwise takes 32 cycles and one for every 16 lines and removes the replicas, on the dies within its level, of
exactly the lines it overlaps, and nothing else (R266, R267). -/
def Obligations.Fences : Prop :=
  ∀ (s : State) (n : BitVec 3) (a : SReg) (b : SOp), s.inHold = false →
    let stalls (i : Instr) : Prop := exec i s = .next { s with cur := { s.cur with mark := .stalled true none .nothing } }
    let core := s.curKey / 2
    let near (die : Nat) : Prop := die = coreDie core ∨ 3 ≤ s.hops core n.toNat
    let v := s.before
    let quiet := v.cur.pend = [] ∧ (∀ w ∈ v.mem.wq, w.key ≠ s.curKey) ∧ (∀ w ∈ v.mem.rq, w.key = some s.curKey → ¬near w.dst)
    let u := s.relMem s.curKey n.toNat
    let ids := u.relSet u.curKey
    let old := u.cur.fences.filter (fun e => e.ids.any u.mem.isOpen)
    let rel : State := { u with cur := { u.cur with fences := if ids.isEmpty then old else { level := n.toNat, ids := ids } :: old } }
    let va := (s.cur.readS a).toNat
    let len := (s.cur.readOp b).toNat % 2 ^ 32
    let i : Instr := .icinv n a b
    (s.view = none → v = s) ∧
    (v.cur.pend = [] → exec (.fenceAcq n) s = .next (s.resolveAll.acq s.curKey n.toNat)) ∧ (v.cur.pend ≠ [] → stalls (.fenceAcq n)) ∧
    (quiet → exec (.fenceRel n) s = .next rel ∧ exec (.fenceFull n) s = .next (rel.acq s.curKey n.toNat)) ∧
    (¬quiet → stalls (.fenceRel n) ∧ stalls (.fenceFull n)) ∧
    (v.joined s.curKey = true → exec (.fenceJoin n) s = .next ((s.joinMem s.curKey).joinCalls.resolveAll.acq s.curKey n.toNat)) ∧
    (v.joined s.curKey = false → stalls (.fenceJoin n)) ∧
    (2 ^ 24 ≤ len ∨ len ≠ 0 ∧ va < 2 ^ 56 ∧ Config.spwbase < va + len → s.Traps i (s.illop 0x14)) ∧
    (len = 0 → exec i s = .next s) ∧
    (len ≠ 0 → len < 2 ^ 24 → va + len ≤ Config.spwbase ∨ 2 ^ 56 ≤ va →
      (∀ t, s.icinvPages (s.curKey / 2) s.cur.slot (cut 4096 va len) = .error t → s.Traps i t) ∧
      (∀ l u, s.icinvPages (s.curKey / 2) s.cur.slot (cut 4096 va len) = .ok (l, u) →
        let lines := ((l.map (fun p => (p.1 + p.2 + 127) / 128 - p.1 / 128))).sum
        (s.cur.fixed < 32 + lines / 16 →
          exec i s = .next { s with cur := { s.cur with mark := .stalled true none .cycle, fixed := s.cur.fixed + 1 } }) ∧
        (32 + lines / 16 ≤ s.cur.fixed → ∃ t, exec i s = .next t ∧
          t = { u with mem := { u.mem with reps := t.mem.reps } } ∧
          ∀ line die, die < 4 → t.mem.reps.find (line * 4 + die) =
            if near die ∧ ∃ p ∈ l, p.1 / 128 ≤ line ∧ line * 128 < p.1 + p.2 then none else u.mem.reps.find (line * 4 + die))))

/-- LBLK records its descriptor in an entry and forks the fill, behind the write-back of a valid block; PROBE of an address in the recorded block
returns where it lies and whether it is still filling, and of another address, or once an EVICT that makes the entry invalid is under way, records
that block and forks its fill; EVICT forks the write-back or drop, and marks the entry as on its way to being invalid but under write-keep, and of an
invalid entry writes status 0. The completion word is set empty. Entries outside the stream's range, reserved bits, a line count that is no power of
two on a miss raise ILLOP with SUB 0x14, misaligned fields MISALIGN; a completion word in held banks stalls it (R245, R246, R247, R288). The model's
choices in it: log 28. -/
def Obligations.LoadBlocks : Prop :=
  ∀ (s : State) (k : BitVec 3) (mode : EvMode) (d a : SReg) (b : SOp), s.inHold = false →
    let e := (s.cur.readOp b).toNat % 64
    let va := (s.cur.readS a).toNat
    let out := s.cur.tiles4 = true ∧ 32 ≤ e
    let rec0 (v : State) (q : LBlk) : State :=
      { v with cur := { v.cur with blks := v.cur.blks.put e { q with valid := true, filling := true, evicting := false } } }
    let pred (v : Bool) : List Tgt := if k = 0 then [] else [.p k.toNat v]
    let old (q : Option LBlk) : Option LBlk := match q with | some q => (if q.valid = true ∧ q.evicting = false then some q else none) | none => none
    let blk (w : List Word64) : LBlk := { tag := wbits w 0 55 0, slot := wbits w 1 55 0, few := wbits w 2 55 0, lines := wbits w 0 63 58 + 1,
                                          wb := (wordAt w 1).getLsbD 63 }
    let rsv (w : List Word64) := wbits w 2 63 56 ≠ 0 ∨ wbits w 1 62 56 ≠ 0 ∨ wbits w 0 57 56 ≠ 0
    let records (w : List Word64) (v : State) : Prop :=
      exec (.lblk a b) s = .next ((rec0 (v.forked (.fill e (blk w) (old (v.cur.blks.find e)))) (blk w)).fewEmpty (blk w).few)
    (out → ∀ i ∈ [Instr.lblk a b, .probe k d a b, .evict mode b], s.Traps i (s.illop 0x14)) ∧
    (s.cur.blks.find e = none → ∀ i ∈ [Instr.probe k d a b, .evict mode b], s.Traps i (s.illop 0x14)) ∧
    (∀ w v, ¬out → s.readsAt (s.cur.readS a) 24 8 w v →
      let q := blk w
      let rsv := rsv w
      (rsv → s.Traps (.lblk a b) (v.illop 0x14)) ∧
      (¬rsv → q.slot % 128 ≠ 0 → s.Traps (.lblk a b) { cause := 0x04, addr := BitVec.ofNat 64 q.slot }) ∧
      (¬rsv → q.slot % 128 = 0 → q.tag % 128 ≠ 0 → s.Traps (.lblk a b) { cause := 0x04, addr := BitVec.ofNat 64 q.tag }) ∧
      (¬rsv → q.slot % 128 = 0 → q.tag % 128 = 0 → q.few % 4 ≠ 0 → s.Traps (.lblk a b) { cause := 0x04, addr := BitVec.ofNat 64 q.few }) ∧
      (¬rsv → q.slot % 128 = 0 → q.tag % 128 = 0 → q.few % 4 = 0 → v.keeps q.slot (128 * q.lines) → v.keeps q.few 4 → v.fewHeld q.few 4 = false → v.roomToFork →
        records w v)) ∧
    (¬out → s.mayRead (s.cur.readS a) 24 8 → ∃ w v, s.readsAt (s.cur.readS a) 24 8 w v ∧
      (¬rsv w → (blk w).slot % 128 = 0 → (blk w).tag % 128 = 0 → (blk w).few % 4 = 0 →
        s.cur.inGrans (s.curKey / 2) (blk w).slot (128 * (blk w).lines) → s.cur.inGrans (s.curKey / 2) (blk w).few 4 → s.roomToFork →
        records w v)) ∧
    (∀ q, ¬out → s.cur.blks.find e = some q →
      let hit := q.valid = true ∧ q.evicting = false ∧ q.tag ≤ va ∧ va < q.tag + 128 * q.lines
      let held := s.fewHeld q.few 4
      let stalls (i : Instr) : Prop := exec i s = .next { s with cur := { s.cur with mark := .stalled true none .nothing } }
      let tag := va / (128 * q.lines) * (128 * q.lines)
      (hit → exec (.probe k d a b) s =
        .next (s.pends (.s d.toNat (BitVec.ofNat 64 (q.slot + (va - q.tag))) :: pred q.filling))) ∧
      (¬hit → (∀ m, m ≤ 6 → q.lines ≠ 2 ^ m) → s.Traps (.probe k d a b) (s.illop 0x14)) ∧
      (¬hit → (∃ m, m ≤ 6 ∧ q.lines = 2 ^ m) → held = true → stalls (.probe k d a b)) ∧
      (¬hit → (∃ m, m ≤ 6 ∧ q.lines = 2 ^ m) → held = false → s.roomToFork → exec (.probe k d a b) s =
        .next (((rec0 (s.forked (.fill e { q with tag := tag } (old (some q)))) { q with tag := tag }).fewEmpty q.few).pends
          (.s d.toNat (BitVec.ofNat 64 (q.slot + (va - tag))) :: pred true))) ∧
      (q.valid = false → held = false → exec (.evict mode b) s = .next (s.complete s.curKey q.few (leBytes 0 4))) ∧
      (held = true → stalls (.evict mode b)) ∧
      (s.calm → held = false) ∧
      (q.valid = true → held = false → s.roomToFork →
        let v := s.forked (.evict e mode (if q.evicting then { q with wb := false } else q))
        let ends := q.evicting || mode != .writeKeep
        exec (.evict mode b) s = .next (State.fewEmpty { v with cur := { v.cur with blks := v.cur.blks.put e { q with evicting := ends } } } q.few)))

/-- CPY, CPYT and NMOP fork one operation with the fields of their descriptor or registers, and change nothing else but, for NMOP, the status words,
which become empty; a reserved bit or a field out of range raises ILLOP with SUB 0x14, a misaligned descriptor, completion word or base MISALIGN
(R248, R250, R251). The model's choices in it: log 27, 29. -/
def Obligations.CopiesAndNearMemory : Prop :=
  ∀ (s : State) (f : Fmt) (tr : Bool) (d a b : SReg) (w : List Word64), s.inHold = false →
    let sa := s.cur.readS a
    let dst := (s.cur.readS d).toNat
    let src := sa.toNat
    let fe := (s.cur.readS b).toNat
    let rb := 8 * Fmt.width f 0
    let i : Instr := .cpyt f tr d a b
    let rows := wbits w 3 63 48
    let bytes := wbits w 3 47 24
    let lay := wbits w 3 23 22
    let e := wbits w 3 21 20
    let cfe := Config.spwbase + wbits w 4 52 32
    let tell := (wordAt w 4).getLsbD 62 = true
    let copyBad := wbits w 4 61 53 ≠ 0 ∨ wbits w 3 19 0 ≠ 0 ∨ wbits w 1 63 56 ≠ 0 ∨ wbits w 0 63 56 ≠ 0 ∨ rows = 0 ∨ bytes = 0 ∨ lay = 3 ∨
      lay ≠ 0 ∧ (e = 3 ∨ rows ≠ 64 ∨ bytes ≠ 64 * 2 ^ e ∨ inWindow (wbits w 0 55 0) = true)
    let c : Copy :=
      { src := wbits w 0 55 0, dst := wbits w 1 55 0, rows := rows, rowbytes := bytes, sstride := wbits w 2 63 32, dstride := wbits w 2 31 0,
        layout := lay, esz := 2 ^ e, fe := if (wordAt w 4).getLsbD 62 then some cfe else none,
        tref := if (wordAt w 4).getLsbD 63 then some (s.cur.taskRef (wbits w 4 31 0)) else none }
    let op := wbits w 0 63 60
    let stat := wbits w 4 55 0
    let nmBad := (∃ k, 5 ≤ k ∧ k < w.length ∧ wordAt w k ≠ 0) ∨ wbits w 4 63 56 ≠ 0 ∨ wbits w 2 31 0 ≠ 0 ∨ wbits w 1 63 56 ≠ 0 ∨ wbits w 0 58 56 ≠ 0 ∨
      op = 0 ∨ 4 < op ∨ wbits w 2 63 32 = 0 ∨ 3 ≤ op ∧ wbits w 1 55 0 ≠ 0
    let n : Nm :=
      { op := op, bf16 := (wordAt w 0).getLsbD 59, w := wbits w 0 55 0, x := wbits w 1 55 0, count := wbits w 2 63 32,
        a := (wordAt w 3).extractLsb' 32 32, b := (wordAt w 3).extractLsb' 0 32, stat := stat }
    (src % 128 ≠ 0 → s.Traps i { cause := 0x04, addr := sa }) ∧
    (src % 128 = 0 → dst % 128 ≠ 0 → s.Traps i { cause := 0x04, addr := s.cur.readS d }) ∧
    (src % 128 = 0 → dst % 128 = 0 → fe % 4 ≠ 0 → s.Traps i { cause := 0x04, addr := s.cur.readS b }) ∧
    (src % 128 = 0 → dst % 128 = 0 → fe % 4 = 0 → tr = true → inWindow src = true → s.Traps i (s.illop 0x14)) ∧
    (src % 128 = 0 → dst % 128 = 0 → fe % 4 = 0 → (tr = true → inWindow src = false) → s.keeps fe 4 → s.roomToFork →
      let q : Copy :=
        { src := src, dst := dst, rows := 64, rowbytes := rb, sstride := rb, dstride := rb, layout := if tr then 1 else 0,
          esz := rb / 64, nib := f == .e2m1 && tr, fe := some fe }
      exec i s = .next (s.forked (.copy q))) ∧
    (sa.toNat % 8 ≠ 0 → s.Traps (.cpy a) { cause := 0x04, addr := sa }) ∧
    (s.heldAt sa 40 8 w → copyBad → s.Traps (.cpy a) (s.illop 0x14)) ∧
    (s.heldAt sa 40 8 w → ¬copyBad → tell → cfe % 4 ≠ 0 → s.Traps (.cpy a) { cause := 0x04, addr := BitVec.ofNat 64 cfe }) ∧
    (s.heldAt sa 40 8 w → ¬copyBad → (tell → cfe % 4 = 0 ∧ s.keeps cfe 4) → s.roomToFork → exec (.cpy a) s = .next (s.forked (.copy c))) ∧
    (∀ va n al, s.holdsAt va n al → ∃ w, s.heldAt va n al w) ∧ (∀ va n, s.cur.inGrans (s.curKey / 2) va n → s.keeps va n) ∧
    (s.calm → ∀ va n, s.fewHeld va n = false) ∧
    (sa.toNat % 64 ≠ 0 → s.Traps (.nmop a) { cause := 0x04, addr := sa }) ∧
    (s.heldAt sa 64 64 w → nmBad → s.Traps (.nmop a) (s.illop 0x14)) ∧
    (s.heldAt sa 64 64 w → ¬nmBad → n.w % 128 ≠ 0 → s.Traps (.nmop a) { cause := 0x04, addr := BitVec.ofNat 64 n.w }) ∧
    (s.heldAt sa 64 64 w → ¬nmBad → n.w % 128 = 0 → stat % 8 ≠ 0 → s.Traps (.nmop a) { cause := 0x04, addr := BitVec.ofNat 64 stat }) ∧
    (s.heldAt sa 64 64 w → ¬nmBad → n.w % 128 = 0 → stat % 8 = 0 → s.keeps stat 8 → s.fewHeld stat 8 = false → s.roomToFork →
      exec (.nmop a) s = .next (((s.forked (.nm n)).fewEmpty stat).fewEmpty (stat + 4)))

/-- TDEP, TCPY and TTAK read their block and set out for their home with the result area emptied, TDEP after a release at level 3; the faults come in
the order of R296: a misaligned area or block, a granule not held, a handle of no region (SUB 0x70), a pattern or tuple that its region or format
forbids (0x71 to 0x73), an area still in use (0x74). TCAN marks the request whose area it names, if it is no deposit, a second one of it changes no
mark, and it changes nothing otherwise (R295, R296, R299). The model's choices in it: log 27. -/
def Obligations.TulleRequests : Prop :=
  ∀ (s : State) (nowait : Bool) (r a : SReg) (b : SOp) (w : List Word64), s.inHold = false →
    let sr := s.cur.readS r
    let sa := s.cur.readS a
    let h := (s.cur.readOp b).toNat
    let core := s.curKey / 2
    let u := ((s.ctxAt s.cur.ctx).tulle.get (h % 1024)).toNat
    let keyed := u / 2 ^ 62 % 2 = 1
    let noRegion := 1024 ≤ h ∨ u / 2 ^ 63 = 0
    let busy (n : Nat) := ∃ t ∈ s.treqs, t.key = s.curKey ∧ t.res < sr.toNat + n ∧ sr.toNat < t.res + t.kind.size
    let trap (sub : Nat) (x : Word64) : TrapRec := { cause := 0x0F, addr := x, info := BitVec.ofNat 64 sub }
    let reads (n m : Nat) (rp : List Piece) := sr.toNat % 8 = 0 ∧ s.heldAt sa n 64 w ∧ s.cur.winPieces core sr.toNat m .ewrite = .ok rp ∧
      s.bankHeld s.curKey (winKeys rp) = false
    let patBad := wbits w 0 44 0 ≠ 0 ∨ wbits w 1 31 15 ≠ 0 ∨ ∃ i, i < 7 ∧ wbits w 1 (2 * i + 1) (2 * i) = 3
    let tupBad := wbits w 0 44 32 ≠ 0 ∨ ∃ i, 1 ≤ i ∧ i ≤ 7 ∧ wbits w 0 47 45 < i ∧ wordAt w i ≠ 0
    let req (v : State) (k : TKind) (nw : Bool) (rp : List Piece) : TReq :=
      { id := v.nextId, key := v.curKey, ctx := s.cur.ctx, slot := s.cur.slot, task := s.cur.task,
        job := if u / 2 ^ 61 % 2 = 1 then some (v.rank s.cur.slot).job else none, handle := h % 1024, cap := u % 2 ^ 32, kind := k, nowait := nw,
        keyed := decide keyed, words := w, pat := sa.toNat, res := sr.toNat, place := winKeys rp, home := 0,
        tref := if k = .dep then {} else s.cur.taskRef (wbits w 1 63 32), detach := k != .dep && (wordAt w 1).getLsbD 14 }
    let go (v : State) (k : TKind) (nw : Bool) (rp : List Piece) : State :=
      let v := v.feSet rp false
      State.setOut { v with nextId := v.nextId + 1 } (req v k nw rp)
    let few := (s.treqs.filter (fun t => t.key == s.curKey)).length < 16
    let all : List Instr := [.tdep r a b, .tcpy nowait r a b, .ttak nowait r a b]
    (∀ n m, sr.toNat % 8 = 0 → s.holdsAt sa n 64 → s.cur.inGrans core sr.toNat m → ∃ w' rp, s.heldAt sa n 64 w' ∧
      s.cur.winPieces core sr.toNat m .ewrite = .ok rp ∧ s.bankHeld s.curKey (winKeys rp) = false) ∧
    (sr.toNat % 8 ≠ 0 → ∀ i ∈ all, s.Traps i { cause := 0x04, addr := sr }) ∧
    (sr.toNat % 8 = 0 → sa.toNat % 64 ≠ 0 → ∀ i ∈ all, s.Traps i { cause := 0x04, addr := sa }) ∧
    (∀ rp, reads 64 8 rp → (noRegion → s.Traps (.tdep r a b) (trap 0x70 sa)) ∧ (¬noRegion → tupBad → s.Traps (.tdep r a b) (trap 0x73 sa)) ∧
      (¬noRegion → ¬tupBad → busy 8 → s.Traps (.tdep r a b) (trap 0x74 sr)) ∧
      (¬noRegion → ¬tupBad → ¬busy 8 → few → exec (.tdep r a b) s = .next (go (s.relAll s.curKey 3) .dep false rp))) ∧
    (∀ rp, reads 128 72 rp → ∀ k i, (k = .copy ∧ i = .tcpy nowait r a b ∨ k = .take ∧ i = .ttak nowait r a b) →
      (noRegion → s.Traps i (trap 0x70 sa)) ∧ (¬noRegion → keyed → wbits w 1 1 0 ≠ 1 → s.Traps i (trap 0x71 sa)) ∧
      (¬noRegion → (keyed → wbits w 1 1 0 = 1) → patBad → s.Traps i (trap 0x72 sa)) ∧
      (¬noRegion → (keyed → wbits w 1 1 0 = 1) → ¬patBad → busy 72 → s.Traps i (trap 0x74 sr)) ∧
      (¬noRegion → (keyed → wbits w 1 1 0 = 1) → ¬patBad → ¬busy 72 → few → exec i s = .next (go s k nowait rp))) ∧
    ((∀ t ∈ s.treqs, t.key = s.curKey → t.res = sr.toNat → t.kind = .dep) → exec (.tcan r) s = .next s) ∧
    (∀ pre t post, s.treqs = pre ++ t :: post → (∀ x ∈ pre, ¬(x.key = s.curKey ∧ x.res = sr.toNat ∧ x.kind ≠ .dep)) →
      t.key = s.curKey → t.res = sr.toNat → t.kind ≠ .dep →
      exec (.tcan r) s = .next { s with nextId := s.nextId + 1, treqs := s.treqs.map (fun x => if x.id = t.id then { x with cancel := some (x.cancel.getD s.nextId) } else x) })

/-- CHSEND takes the row's next sequence number and forks the send, after a release at level 7, while fewer than DEPTH sends are unaccepted, and waits
with SUB 0x53 otherwise; CHRECV takes a listed message of its sequence number at once, and otherwise posts the receive; both empty a window status
word and advance their counter, and stall while its banks are held or the rank's channel handling is stopped; the faults come in the order of R304, a
channel without a row raises CHAN with SUB 0x80 (R288, R303-R307). TKDEC sends B[15:0] to the referenced task's count after a release at level 3, and
with an amount of 0 sends nothing (R41, R43). The model's choices in it: log 32. -/
def Obligations.ChannelInstructions : Prop :=
  (∀ (s : State) (r a : SReg) (b : SOp), s.inHold = false →
    let sr := (s.cur.readS r).toNat
    let sa := (s.cur.readS a).toNat
    let h := (s.cur.readOp b).toNat
    let ch := h % 256
    let core := s.curKey / 2
    let slot := s.cur.slot
    let stat : Option Nat := if r = 0 then none else some sr
    let sendBad := h / 2 ^ 8 ≠ 0
    let recvBad := h / 2 ^ 8 % 2 ^ 8 ≠ 0 ∨ h / 2 ^ 48 % 2 ^ 15 ≠ 0
    let aligned := (r ≠ 0 → sr % 8 = 0) ∧ sa % 4 = 0
    let granted (n : Nat) (k : AKind) := (r ≠ 0 → inWindow sr = true → s.keeps sr 8) ∧
      (inWindow sa = true → ∃ ps, s.cur.winPieces core sa n k = .ok ps)
    let both : List Instr := [.chsend r a b, .chrecv r a b]
    let window := inWindow sa = true ∨ r ≠ 0 ∧ inWindow sr = true
    (r ≠ 0 → sr % 8 ≠ 0 → ∀ i ∈ both, s.Traps i { cause := 0x04, addr := s.cur.readS r }) ∧
    ((r ≠ 0 → sr % 8 = 0) → sa % 4 ≠ 0 → ∀ i ∈ both, s.Traps i { cause := 0x04, addr := s.cur.readS a }) ∧
    (aligned → sendBad → s.Traps (.chsend r a b) (s.illop 0x14)) ∧ (aligned → recvBad → s.Traps (.chrecv r a b) (s.illop 0x14)) ∧
    ((s.rank slot).row ch = none → aligned → granted 1 .eread → ¬sendBad →
      s.Traps (.chsend r a b) { cause := 0x10, addr := BitVec.ofNat 64 ch, info := 0x80 }) ∧
    ((s.rank slot).row ch = none → aligned → granted 1 .ewrite → ¬recvBad →
      s.Traps (.chrecv r a b) { cause := 0x10, addr := BitVec.ofNat 64 ch, info := 0x80 }) ∧
    (∀ c, (s.rank slot).row c = match (s.rank slot).rows.find c with | some w => (if w.valid then some w else none) | none => none) ∧
    (∀ w, (s.rank slot).row ch = some w → aligned → (s.rank slot).chanStop = true ∨ s.statHeld stat = true →
      let stall : State := { s with cur := { s.cur with mark := .stalled true none .nothing } }
      (granted w.bytes .eread → ¬sendBad → exec (.chsend r a b) s = .next stall) ∧
      (granted w.bytes .ewrite → ¬recvBad → exec (.chrecv r a b) s = .next stall)) ∧
    (s.calm → s.statHeld stat = false) ∧
    (∀ w, (s.rank slot).row ch = some w → aligned → (s.rank slot).chanStop = false → s.statHeld stat = false →
      (granted w.bytes .eread → ¬sendBad → w.depth ≤ (w.sseq - w.ackseq).toNat →
        let t : TrapRec := { cause := 0x09, addr := BitVec.ofNat 64 ch, info := 0x53 }
        exec (.chsend r a b) s = .next { s with cur := { s.cur with mark := .stalled true (some t) .nothing } }) ∧
      (granted w.bytes .eread → ¬sendBad → (w.sseq - w.ackseq).toNat < w.depth → exec (.chsend r a b) s =
        .next ((((s.relAll s.curKey 7).statEmpty stat).modRow slot ch (fun w => { w with sseq := w.sseq + 1 })).forked (.send ch w.sseq sa stat))) ∧
      (granted w.bytes .ewrite → ¬recvBad →
        let post (u : State) : Post :=
          { seq := w.rseq, buf := sa, stat := stat, tref := if h / 2 ^ 63 = 1 then some (u.cur.taskRef (h / 2 ^ 16 % 2 ^ 32)) else none,
            key := u.curKey, window := decide window, core := u.curKey / 2, tag := u.cur.heatKey, wid := u.cur.wid }
        let opened (u : State) : State := (u.statEmpty stat).modRow slot ch (fun w => { w with rseq := w.rseq + 1 })
        (∀ l u t, s.listTake slot ch w.rseq = .ok (some l, u) → (opened u).receive slot (post u) l = some t → exec (.chrecv r a b) s = .next t) ∧
        (∀ u, s.listTake slot ch w.rseq = .ok (none, u) → w.posted.length < 16 → (window → (opened u).windowPosts (opened u).curKey slot < 16) →
          exec (.chrecv r a b) s = .next ((opened u).modRow slot ch (fun w => { w with posted := w.posted ++ [post u] }))) ∧
        (s.listEmpty → w.posted.length < 16 → (window → s.windowPosts s.curKey slot < 16) →
          exec (.chrecv r a b) s = .next ((opened s).modRow slot ch (fun w => { w with posted := w.posted ++ [post s] })))))) ∧
  (∀ (s : State) (a b : SOp), s.inHold = false →
    let core := s.curKey / 2
    let n := (s.cur.readOp b).toNat % 2 ^ 16
    let t := s.cur.taskRef ((s.cur.readOp a).toNat % 2 ^ 32)
    let room := (s.ops.filter (fun o => match o.kind with | .dec _ _ (some c) => c == core | _ => false)).length < 16
    let u := s.relAll s.curKey 3
    let o : Op := { id := u.nextId, key := u.curKey, ctx := t.ctx, slot := t.slot, kind := .dec t n (some core) }
    (room → n = 0 → exec (.tkdec a b) s = .next u) ∧
    (room → n ≠ 0 → exec (.tkdec a b) s = .next { u with nextId := u.nextId + 1, ops := u.ops ++ [o] }) ∧
    (¬room → exec (.tkdec a b) s = .next { s with cur := { s.cur with mark := .stalled true none .nothing } }))

/-- COLL and BKARM read the 64-byte descriptor, raise the faults of R311 in their order, use up the CID for the rank's step and empty the status word;
COLL then forks the collective after a release at level 7, BKARM arms the lowest free bucket with the total in B and the scale in c15, both while no
other stream holds the banks of the status area (R288). Reserved fields, codes and ranks out of range, or a window buffer raise ILLOP with SUB 0x14, a
rank outside the group CHAN with SUB 0x81, a CID used in this step CHAN with SUB 0x82, at an address the spec leaves open (R310, R311, R313). The
model's choices in it: log 12, 42, 46. -/
def Obligations.CollectiveInstructions : Prop :=
  ∀ (s : State) (a : SReg) (b : SOp), let tells (w : List Word64) (v : State) : Prop :=
    let d := collOf v w
    let total := (s.cur.readOp b).toNat % 2 ^ 32
    let area := d.stat.getD 0
    let job := match v.jobOf v.cur.ctx (v.rank v.cur.slot).job with | some (_, j) => j.v | none => 0
    let laid := area % 8 = 0 ∧ d.src % d.size = 0 ∧ d.dst % d.size = 0
    let rsv := wordAt w 7 ≠ 0 ∨ wbits w 6 31 0 ≠ 0 ∨ wbits w 5 63 56 ≠ 0 ∨ wbits w 4 63 32 ≠ 0 ∨ wbits w 3 15 0 ≠ 0 ∨ wbits w 2 31 0 ≠ 0 ∨
      wbits w 1 63 56 ≠ 0 ∨ wbits w 0 63 56 ≠ 0
    let bad := rsv ∨ d.kind = 3 ∨ d.fmt = 3 ∨ wbits w 4 25 24 = 0 ∨ d.count = 0 ∨ d.op = 3 ∧ d.kind ≠ 2 ∨ d.last < d.first ∨ job ≤ d.last ∨
      d.kind ≠ 0 ∧ (d.root < d.first ∨ d.last < d.root) ∨ inWindow d.src = true ∨ inWindow d.dst = true
    let me := v.cur.vrank.toNat
    let mine := d.first ≤ me ∧ me ≤ d.last
    let fresh := (v.rank v.cur.slot).cids.contains d.cid = false
    let granted (n : Nat) := ∀ q, d.stat = some q → v.keeps q n
    let chan (sub : Nat) : TrapRec := { cause := 0x10, addr := Config.freeWord v.tick, info := BitVec.ofNat 64 sub }
    let noTotal := total = 0 ∨ d.count * d.size < total
    let both : List Instr := [.coll a, .bkarm a b]
    (area % 8 ≠ 0 → ∀ i ∈ both, s.Traps i { cause := 0x04, addr := BitVec.ofNat 64 area }) ∧
    (area % 8 = 0 → d.src % d.size ≠ 0 → ∀ i ∈ both, s.Traps i { cause := 0x04, addr := BitVec.ofNat 64 d.src }) ∧
    (area % 8 = 0 → d.src % d.size = 0 → d.dst % d.size ≠ 0 → ∀ i ∈ both, s.Traps i { cause := 0x04, addr := BitVec.ofNat 64 d.dst }) ∧
    (laid → bad → ∀ i ∈ both, s.Traps i (v.illop 0x14)) ∧ (laid → noTotal → s.Traps (.bkarm a b) (v.illop 0x14)) ∧
    (laid → ¬bad → granted 8 → (¬mine → s.Traps (.coll a) (chan 0x81)) ∧ (mine → ¬fresh → s.Traps (.coll a) (chan 0x82))) ∧
    (laid → ¬bad → granted 16 → ¬noTotal → (¬mine → s.Traps (.bkarm a b) (chan 0x81)) ∧ (mine → ¬fresh → s.Traps (.bkarm a b) (chan 0x82))) ∧
    (laid → ¬bad → granted 8 → mine → fresh →
      (v.ops.filter (fun o => o.key == v.curKey && (match o.kind with | .coll _ => true | _ => false))).length < 8 → v.statHeld d.stat = false →
      exec (.coll a) s = .next (((v.relAll v.curKey 7).useCid d).forked (.coll d))) ∧
    (laid → ¬bad → granted 16 → mine → fresh → ¬noTotal → (v.rank v.cur.slot).buckets.length < 16 → v.statHeld d.stat 16 = false →
      let u := (v.useCid d).statEmpty (d.stat.map (fun q => q + 8))
      let k : Bucket := { d := d, bytes := d.count * d.size, scale := v.cur.c.get 15, total := total, key := v.curKey, task := v.cur.task,
                          tag := v.cur.heatKey, wid := v.cur.wid }
      let r := u.rank u.cur.slot
      exec (.bkarm a b) s = .next (u.putRank u.cur.slot { r with buckets := r.buckets.put (freeBucket r.buckets) k }))
  (∀ w v, s.readsAt (s.cur.readS a) 64 64 w v → tells w v) ∧
  (s.mayRead (s.cur.readS a) 64 64 → ∃ w v, s.readsAt (s.cur.readS a) 64 64 w v ∧ v.ops = s.ops ∧ (∀ q n, v.statHeld q n = false) ∧ tells w v)

/-- The M slot: MPSET and MPGET move 64 bits with latencies 1 and 2; MCALL, MZERO and MTRAN enter the queue of two with the snapshot of R211, after
the checks of the routine index, the granted tiles and the results in flight, all ILLOP with SUB 0x13, and stall while the queue is full or a line
load is pending; MWAIT with no own call outstanding joins the flags of the completed ones, and stalls, outside LATCNT, otherwise; MLOAD writes n words
of the stream's part after a stall of a cycle per 256 of them. The head of the queue starts 4 cycles after its issue, unless its stream is halted and
not being pre-empted (R230, R338); MZERO and MTRAN complete with the tile zeroed or transposed and every other cell as it was (R209-R218). The model's
choices in it: log 30, 52. -/
def Obligations.MatrixCalls : Prop :=
  ∀ (s : State) (fa fb : MFmt) (ovw : Bool) (n : BitVec 7) (t : BitVec 3) (d a : SReg) (o : SOp) (q : BitVec 3),
    let maskOf : Nat → List Nat := fun m => (List.range 8).filter (fun k => m.testBit k)
    let m := maskOf ((s.cur.readOp o).toNat % 256)
    let phys (m : List Nat) : List Nat := m.map (fun k => s.tileMap.getD k 255)
    let stalls (i : Instr) (lat : Bool) : Prop := exec i s = .next { s with cur := { s.cur with mark := .stalled lat none .nothing } }
    let call (k : CallKind) (fa fb : MFmt) (ovw : Bool) (m : List Nat) : Call :=
      { key := s.curKey, kind := k, fa := fa, fb := fb, ovw := ovw, mask := phys m, tiles := s.tileMap, q := s.cur.q, c := s.cur.c, z := s.cur.z,
        rmm := s.cur.fmode.extractLsb' 4 2, efr := s.cur.efr, issued := s.cycle.toNat }
    let enters (i : Instr) (c : Call) : Prop :=
      let lost := 255 ∈ c.mask ∨ s.cur.shadows c.mask = true ∨ s.loadsLine c.mask = true
      (lost → s.Traps i (s.illop 0x13)) ∧ (¬lost → s.cur.loading c.mask = true → stalls i true) ∧
      (¬lost → s.cur.loading c.mask = false → 2 ≤ s.core.calls.length → stalls i false) ∧
      (¬lost → s.cur.loading c.mask = false → s.core.calls.length < 2 →
        exec i s = .next { s with core := { s.core with calls := s.core.calls ++ [c] } })
    let idle := s.ownCalls s.curKey = []
    let va := s.cur.readS a
    let w := (s.cur.readOp o).toNat
    let cnt := w % 2 ^ 12
    let first := w / 2 ^ 12 % 2 ^ 11
    let part := if s.cur.tiles4 then 1024 else 2048
    let takes := (8 * cnt + 2047) / 2048
    let loads (ps : List Piece) : Prop :=
      (s.cur.fixed < takes → exec (.mload a o) s = .next { s with cur := { s.cur with mark := .stalled false none .cycle, fixed := s.cur.fixed + 1 } }) ∧
      (takes ≤ s.cur.fixed → s.core.store.wf = true → ∃ st, exec (.mload a o) s = .next { s with core := { s.core with store := st } } ∧
        ∀ k, st.get k =
          let k0 := (if s.cur.tiles4 && s.curKey % 2 == 1 then 1024 else 0) + first
          if k0 ≤ k ∧ k < k0 + cnt then wordAt (words64 (winBytes s.vspad ps)) (k - k0) else s.core.store.get k)
    s.Writes (.mpset q o) 1 (.q q.toNat (s.cur.readOp o)) ∧ s.Writes (.mpget d q) 2 (.s d.toNat (s.cur.q.get q.toNat)) ∧
    (s.cur.tiles4 = true → 64 ≤ n.toNat → s.Traps (.mcall fa fb ovw n o) (s.illop 0x13)) ∧
    ((s.cur.tiles4 = true → n.toNat < 64) → enters (.mcall fa fb ovw n o) (call (.routine n.toNat) fa fb ovw m)) ∧
    enters (.mzero t) (call .mzero .f32 .f32 false [t.toNat]) ∧ enters (.mtran t) (call .mtran .f32 .f32 false [t.toNat]) ∧
    (idle → exec .mwait s = .next { s with cur := { s.cur with flags := s.cur.flags ||| s.core.done.get s.curKey },
                                           core := { s.core with done := s.core.done.set s.curKey 0 } }) ∧
    (¬idle → stalls .mwait false ∧ stalls (.mload a o) false) ∧
    (idle → va.toNat % 8 ≠ 0 → s.Traps (.mload a o) { cause := 0x04, addr := va }) ∧
    (idle → va.toNat % 8 = 0 → cnt = 0 ∨ part < first + cnt → s.Traps (.mload a o) (s.illop 0x14)) ∧
    (∀ x, idle → va.toNat % 8 = 0 → 1 ≤ cnt → first + cnt ≤ part → s.cur.winPieces (s.curKey / 2) va.toNat (8 * cnt) .load = .error x →
      s.Traps (.mload a o) x) ∧
    (∀ ps, idle → va.toNat % 8 = 0 → 1 ≤ cnt → first + cnt ≤ part → s.cur.winPieces (s.curKey / 2) va.toNat (8 * cnt) .load = .ok ps →
      ps.any (fun p => p.bad s.mem) = false → s.bankHeld s.curKey (winKeys ps) = false → loads ps) ∧
    (idle → va.toNat % 8 = 0 → 1 ≤ cnt → first + cnt ≤ part → s.cur.inGrans (s.curKey / 2) va.toNat (8 * cnt) → s.calm →
      ∃ ps, s.cur.winPieces (s.curKey / 2) va.toNat (8 * cnt) .load = .ok ps ∧ loads ps) ∧
    (∀ c rest, s.curLive = true → s.core.calls = c :: rest → c.running = false →
      let due := c.issued + 4 ≤ s.cycle.toNat ∧ ∀ x, s.stream c.key = some x → x.halted = true → x.stopped = true
      let entry := match c.kind with | .routine k => 16 * k | _ => 0
      let c' := { c with running := true, upc := entry, first := c.mask, acc := (c.q.get 0).toNat % 8 }
      exec (.matrixCallStart (s.curKey / 2)) s = .next (if due then { s with core := { s.core with calls := c' :: rest } } else s)) ∧
    (∀ c rest, s.curLive = true → s.curKey % 2 = 0 → s.core.calls = c :: rest → c.running = true → s.core.mrf.wf = true →
      let tile := c.mask.headD 0
      let done (v : State) : Prop := v.core.calls = rest ∧ v.core.done = s.core.done.set c.key (s.core.done.get c.key ||| c.flags) ∧ v.cur = s.cur
      (c.kind = .mzero → ∃ v, exec (.matrixCallComplete (s.curKey / 2)) s = .next v ∧ done v ∧
        ∀ k, v.core.mrf.get k = if k / 4096 = tile then 0 else s.core.mrf.get k) ∧
      (c.kind = .mtran → s.core.parity = [] → ∃ v, exec (.matrixCallComplete (s.curKey / 2)) s = .next v ∧ done v ∧
        (∀ i j, i < 64 → j < 64 → v.core.mrf.get (cellKey tile i j) = s.core.mrf.get (cellKey tile j i)) ∧
        (∀ k, k / 4096 ≠ tile → v.core.mrf.get k = s.core.mrf.get k)) ∧
      (∀ k, c.kind = .routine k → decodeMicro (s.microWord c) = some .exit → c.cycles < 2048 →
        exec (.matrixCallComplete (s.curKey / 2)) s = .next (s.callDone c)) ∧
      (2048 ≤ c.cycles → exec (.callCycleLimit (s.curKey / 2)) s = .next (s.callStop c 0x37)) ∧
      (c.cycles < 2048 → exec (.callCycleLimit (s.curKey / 2)) s = .next s))

/-- The multiplies: with the rings defined, the formats right, the accumulator held, K0 and KN within both panels and a slot filled, every cell (i, j)
of the accumulator takes A(i, k) × B(k, j) for k from K0 to K0 + KN - 1 in chunks of R, every other cell stands, the head slots stay, and the call
goes on after KN / R cycles, for MACS KN / (2R) or KN / (4R); an undefined ring stops it with SUB 0x38, wrong formats with 0x33, an accumulator not
held with 0x31, an extent outside a panel with 0x32; banks that the other stream holds make it wait. A MACG's own copy is made before it begins and
before the copy of the word after it; one that faults stops the call, and one that cannot be made yet makes it wait, after its checks (R221, R222,
R288, R380). The model's choices in it: log 30, 44, 62. -/
def Obligations.MatrixMultiplies : Prop :=
  ∀ (s : State) (ra rb rm : BitVec 4) (k0 kn : BitVec 10) (tile : BitVec 3) (dir g : Bool) (ns : BitVec 2) (q : BitVec 3),
    let lo := 64 * k0.toNat
    let len := 64 * kn.toNat
    let held (e : Call) := e.mask.contains e.accTile = true
    let fits (R depth : Nat) := kn.toNat ≠ 0 ∧ kn.toNat % R = 0 ∧ k0.toNat + kn.toNat ≤ depth
    let adds (u : State) (x : Stream) (e : Call) (i : Instr) (A B : List Ex) (n cycles : Nat) : Prop := ∃ (v : State) (fl : Flags),
      exec i s = .next (v.goesOn x { e with first := e.first.filter (fun t => t != e.accTile) } fl cycles (e.upc + 1)) ∧
      v = { u with core := { u.core with mrf := v.core.mrf } } ∧ (∀ k, k / 4096 ≠ e.accTile → v.core.mrf.get k = u.core.mrf.get k) ∧
      let cell (i j : Nat) : Word32 × Flags :=
        chunksOf (e.fa == .ni) e.rate A B i j n 0 (e.ovw && e.first.contains e.accTile) (u.core.mrf.get (cellKey e.accTile i j), 0)
      (∀ i j, i < 64 → j < 64 → v.core.mrf.get (cellKey e.accTile i j) = (cell i j).1) ∧
      (∀ b, b < 7 → (fl.getLsbD b = true ↔ ∃ i j, i < 64 ∧ j < 64 ∧ (cell i j).2.getLsbD b = true))
    let stops (u : State) (e : Call) (i : Instr) (sub : Nat) : Prop := exec i s = .next (u.callStop e sub)
    let waits (u : State) (e : Call) (i : Instr) : Prop := exec i s = .next (u.setCall { e with cycles := e.cycles + 1 })
    let sound (u : State) := u.core.parity = [] ∧ u.core.mrf.wf = true
    let granted (x : Stream) (e : Call) (r : Ring) (f : MFmt) (lo len : Nat) :=
      x.inGrans (e.key / 2) (headRange r f e.efr lo len).1 (headRange r f e.efr lo len).2
    let checks (u : State) (x : Stream) (e : Call) (i : Instr) (fmtOk : Prop) : Prop :=
      (x.rings.find ra.toNat = none ∨ x.rings.find rb.toNat = none → stops u e i 0x38) ∧
      ∀ a b, x.rings.find ra.toNat = some a → x.rings.find rb.toNat = some b →
        let fit := fits e.rate (min (slotDepth a.slot e.fa e.efr) (slotDepth b.slot e.fb e.efr))
        (¬fmtOk → stops u e i 0x33) ∧ (fmtOk → ¬held e → stops u e i 0x31) ∧ (fmtOk → held e → ¬fit → stops u e i 0x32)
    let two (i : Instr) (u : State) (x : Stream) (e : Call) (fmtOk : Prop) : Prop :=
      checks u x e i fmtOk ∧
      ∀ a b, x.rings.find ra.toNat = some a → x.rings.find rb.toNat = some b →
        let fit := fits e.rate (min (slotDepth a.slot e.fa e.efr) (slotDepth b.slot e.fb e.efr))
        (fmtOk → held e → fit → a.filled = 0 ∨ b.filled = 0 → waits u e i) ∧
        (fmtOk → held e → fit → a.filled ≠ 0 → b.filled ≠ 0 →
          u.ringHeld x e.key [headRange b e.fb e.efr lo len, headRange a e.fa e.efr lo len] = true → waits u e i) ∧
        (∀ A B, sound u → fmtOk → held e → fit → a.filled ≠ 0 → b.filled ≠ 0 →
          u.ringHeld x e.key [headRange b e.fb e.efr lo len, headRange a e.fa e.efr lo len] = false →
          u.headPanel x (e.key / 2) a e.fa e.efr lo len = .ok A →
          u.headPanel x (e.key / 2) b e.fb e.efr lo len = .ok B → adds u x e i A B (kn.toNat / e.rate) (kn.toNat / e.rate)) ∧
        (sound u → fmtOk → held e → fit → a.filled ≠ 0 → b.filled ≠ 0 → granted x e a e.fa lo len → granted x e b e.fb lo len → u.calm →
          ∃ A B, u.headPanel x (e.key / 2) a e.fa e.efr lo len = .ok A ∧ u.headPanel x (e.key / 2) b e.fb e.efr lo len = .ok B ∧
            adds u x e i A B (kn.toNat / e.rate) (kn.toNat / e.rate))
    (∀ u x e, s.Starts (.mac ra rb k0 kn) u x e → two (.mac ra rb k0 kn) u x e (e.fb ≠ .spt)) ∧
    (∀ u x e, s.Starts (.macw ra rb k0 kn) u x e → two (.macw ra rb k0 kn) u x e (e.fa = .e4m3 ∧ e.fb = .spt)) ∧
    (∀ u x e, s.Starts (.macg ra rb k0 kn g q) u x e → e.fetched = true → two (.macg ra rb k0 kn g q) u x e (e.fb ≠ .spt)) ∧
    (let i : Instr := .macg ra rb k0 kn g q
     let copy (v : State) (e : Call) := v.macgCopy e ra rb k0.toNat kn.toNat g q
     (∀ c v, c.fetched = false → copy s c = .ok v → s.ownCopy c i = (v, { c with fetched := true })) ∧
     (∀ c, c.fetched = true ∨ (∀ v, copy s c ≠ .ok v) → s.ownCopy c i = (s, c)) ∧
     (∀ c, s.copies c i = if (s.ownCopy c i).2.fetched then (s.ownCopy c i).1.decodeAhead (s.ownCopy c i).2 i else s.ownCopy c i) ∧
     (∀ u x e t, s.Starts i u x e → e.fetched = false → copy u e = .error (some t) → exec i s = .next (u.callFault e t true)) ∧
     (∀ u x e, s.Starts i u x e → e.fetched = false → copy u e = .error none → checks u x e i (e.fb ≠ .spt) ∧
       ∀ a b, x.rings.find ra.toNat = some a → x.rings.find rb.toNat = some b → e.fb ≠ .spt → held e →
         fits e.rate (min (slotDepth a.slot e.fa e.efr) (slotDepth b.slot e.fb e.efr)) → waits u e i) ∧
     (∀ x c r, s.runCall = some c → s.stream c.key = some x → c.fetched = false → x.rings.find (if g then rb else ra).toNat = some r →
       r.filled < r.count →
       let m := panelBytes (if g then c.fb else c.fa) c.efr k0.toNat kn.toNat
       x.inGrans (c.key / 2) ((c.q.get q.toNat).toNat % 2 ^ 56 + m.1) m.2 → x.inGrans (c.key / 2) (r.base + r.slot * r.tail + m.1) m.2 → s.calm →
       ∃ v, copy s c = .ok v ∧ (c.cycles < 2048 → ∃ u y e, s.Begins i u y e ∧ e.fetched = true ∧ e.upc = c.upc))) ∧
    (∀ u x e b, s.Starts (.mact rb k0 kn tile dir) u x e → x.rings.find rb.toNat = some b → e.fb ≠ .spt →
      let t := e.tiles.getD tile.toNat 255
      let m := perCell e.fa e.efr
      let cell (k i : Nat) : Nat := if dir then cellKey t (k / m) i else cellKey t i (k / m)
      let A := (List.range len).map (fun n =>
        mfmtVal e.fa e.efr (cellElem e.fa e.efr (u.core.mrf.get (cell (k0.toNat + n / 64) (n % 64))) ((k0.toNat + n / 64) % m)))
      let both := held e ∧ e.mask.contains t = true
      let fit := fits e.rate (min (64 * m) (slotDepth b.slot e.fb e.efr))
      (¬both → stops u e (.mact rb k0 kn tile dir) 0x31) ∧ (both → ¬fit → stops u e (.mact rb k0 kn tile dir) 0x32) ∧
      (∀ B, sound u → both → fit → b.filled ≠ 0 → u.ringHeld x e.key [headRange b e.fb e.efr lo len] = false →
        u.headPanel x (e.key / 2) b e.fb e.efr lo len = .ok B → adds u x e (.mact rb k0 kn tile dir) A B (kn.toNat / e.rate) (kn.toNat / e.rate)) ∧
      (sound u → both → fit → b.filled ≠ 0 → granted x e b e.fb lo len → u.calm → ∃ B, u.headPanel x (e.key / 2) b e.fb e.efr lo len = .ok B ∧
        adds u x e (.mact rb k0 kn tile dir) A B (kn.toNat / e.rate) (kn.toNat / e.rate))) ∧
    (∀ u x e a b p, s.Starts (.macs ra rb k0 kn rm ns) u x e → x.rings.find ra.toNat = some a → x.rings.find rb.toNat = some b →
      x.rings.find rm.toNat = some p → ns ≠ 3 → sparseFmt e.fa = true → sparseFmt e.fb = true → held e →
      let N := if ns = 0 then 6 else if ns = 1 then 12 else 24
      let depth := min (slotDepth a.slot e.fa e.efr) (48 * (b.slot / 4 * perCell e.fb e.efr / (64 * N)))
      let start := 64 * N * (k0.toNat / 48)
      let size := 64 * N * (kn.toNat / 48)
      let fit := k0.toNat % 48 = 0 ∧ fits 48 depth
      (¬fit → stops u e (.macs ra rb k0 kn rm ns) 0x32) ∧
      let ranges := [headRange a e.fa e.efr lo len, headRange b e.fb e.efr start size, (p.base + p.slot * p.head + start, size)]
      let read (A V : List Ex) (bytes : List Byte) : Prop := u.headPanel x (e.key / 2) a e.fa e.efr lo len = .ok A ∧
        u.headPanel x (e.key / 2) b e.fb e.efr start size = .ok V ∧ u.ringBytes x (e.key / 2) (p.base + p.slot * p.head + start) size = .ok bytes
      let runs (A V : List Ex) (bytes : List Byte) : Prop :=
        let at0 (g n j : Nat) : Nat := 64 * (N * g + n) + j
        let pos (g n j : Nat) : Nat := (bytes.getD (at0 g n j) 255).toNat
        let legal := ∀ g n j, g < kn.toNat / 48 → n < N → j < 64 → pos g n j < 48 ∧ (n + 1 < N → pos g n j < pos g (n + 1) j)
        let B := (List.range len).map (fun z =>
          match (List.range N).find? (fun n => pos (z / 64 / 48) n (z % 64) == z / 64 % 48) with
          | some n => V.getD (at0 (z / 64 / 48) n (z % 64)) (.zero false)
          | none => .zero false)
        legal → adds u x e (.macs ra rb k0 kn rm ns) A B (kn.toNat / e.rate) (if ns = 2 then kn.toNat / (2 * e.rate) else kn.toNat / (4 * e.rate))
      let ready := sound u ∧ fit ∧ a.filled ≠ 0 ∧ b.filled ≠ 0 ∧ p.filled ≠ 0
      (∀ A V bytes, ready → u.ringHeld x e.key ranges = false → read A V bytes → runs A V bytes) ∧
      (ready → granted x e a e.fa lo len → granted x e b e.fb start size → x.inGrans (e.key / 2) (p.base + p.slot * p.head + start) size → u.calm →
        ∃ A V bytes, read A V bytes ∧ runs A V bytes))

/-- The other micro-ops: UNOP, SETC, WAITRING and RINGADV take one cycle, RINGADV retires slots at the head, both stop with SUB 0x38 on an undefined
ring or too many slots, WAITRING waits; LOOP runs its body q[15:0] times; EXIT completes the call; ACCSCL narrows every cell of the accumulator times
its scale in RMM and takes 4 cycles; CVTOUT writes the 4,096 narrowed elements into the tail slot, advances the tail and takes 16 cycles (R223, R224,
R225). -/
def Obligations.MicroOps : Prop :=
  ∀ (s u : State) (x : Stream) (e : Call) (q : BitVec 3) (r reg count : BitVec 4) (n8 : Byte) (ctr : BitVec 2) (target : BitVec 11) (z dir sat tr : Bool)
    (fmt : BitVec 3), u.core.parity = [] → u.core.mrf.wf = true →
    let next := e.upc + 1
    let goes (i : Instr) (v : State) (e : Call) (fl : Flags) (cycles next : Nat) : Prop := exec i s = .next (v.goesOn x e fl cycles next)
    let waits (i : Instr) : Prop := exec i s = .next (u.setCall { e with cycles := e.cycles + 1 })
    let stops (i : Instr) (sub : Nat) : Prop := exec i s = .next (u.callStop e sub)
    let held := e.mask.contains e.accTile = true
    let left := if e.loops.get ctr.toNat = 0 then (e.q.get q.toNat).toNat % 2 ^ 16 else (e.loops.get ctr.toNat).toNat
    let f := Fmt.of fmt
    (s.Starts .unop u x e → goes .unop u e 0 1 next) ∧
    (s.Starts (.setc q) u x e → goes (.setc q) u { e with acc := (e.q.get q.toNat).toNat % 8 } 0 1 next) ∧
    (s.Starts .exit u x e → exec .exit s = .next (u.callDone e)) ∧
    (s.Starts (.microLoop ctr q target) u x e →
      goes (.microLoop ctr q target) u { e with loops := e.loops.set ctr.toNat (BitVec.ofNat 16 (left - 1)) } 0 1
        (if left ≤ 1 then next else target.toNat)) ∧
    (s.Starts (.waitring r n8) u x e →
      (x.rings.find r.toNat = none → stops (.waitring r n8) 0x38) ∧
      (∀ g, x.rings.find r.toNat = some g → g.filled < n8.toNat → waits (.waitring r n8)) ∧
      (∀ g, x.rings.find r.toNat = some g → n8.toNat ≤ g.filled → goes (.waitring r n8) u e 0 1 next)) ∧
    (s.Starts (.ringadv r count) u x e →
      (x.rings.find r.toNat = none → stops (.ringadv r count) 0x38) ∧
      (∀ g, x.rings.find r.toNat = some g → g.filled < count.toNat → stops (.ringadv r count) 0x38) ∧
      (∀ g, x.rings.find r.toNat = some g → count.toNat ≤ g.filled → goes (.ringadv r count) (u.modRing e.key r.toNat (fun g =>
        { g with head := (g.head + count.toNat) % g.count, filled := g.filled - count.toNat })) e 0 1 next)) ∧
    (s.Starts (.accscl z reg dir) u x e →
      let bad := z = true ∧ 4 ≤ reg.toNat ∨ z = false ∧ dir = true
      (bad → stops (.accscl z reg dir) 0x30) ∧ (¬bad → ¬held → stops (.accscl z reg dir) 0x31) ∧
      (¬bad → held → ∃ (v : State) (fl : Flags), goes (.accscl z reg dir) v e fl 4 next ∧
        v = { u with core := { u.core with mrf := v.core.mrf } } ∧ (∀ k, k / 4096 ≠ e.accTile → v.core.mrf.get k = u.core.mrf.get k) ∧
        let cell (i j : Nat) : Nat × Flags :=
          let scale := if z then e.z.get (64 * reg.toNat + if dir then j else i) else e.c.get reg.toNat
          let y := exMul (fp32.value (u.core.mrf.get (cellKey e.accTile i j)).toNat) (fp32.value scale.toNat)
          let r := narrow (.fp fp32) y.1 (RMode.of e.rmm) false
          (r.1, y.2 ||| r.2)
        (∀ i j, i < 64 → j < 64 → v.core.mrf.get (cellKey e.accTile i j) = BitVec.ofNat 32 (cell i j).1) ∧
        (∀ b, b < 7 → (fl.getLsbD b = true ↔ ∃ i j, i < 64 ∧ j < 64 ∧ (cell i j).2.getLsbD b = true)))) ∧
    (s.Starts (.cvtout r fmt sat tr) u x e →
      (fmt = 6 → stops (.cvtout r fmt sat tr) 0x30) ∧ (fmt ≠ 6 → x.rings.find r.toNat = none → stops (.cvtout r fmt sat tr) 0x38) ∧
      ∀ g, fmt ≠ 6 → x.rings.find r.toNat = some g →
        (¬held → stops (.cvtout r fmt sat tr) 0x31) ∧
        (held → g.slot / 4 * Fmt.count f e.efr < 4096 → stops (.cvtout r fmt sat tr) 0x35) ∧
        (held → 4096 ≤ g.slot / 4 * Fmt.count f e.efr → g.count ≤ g.filled → waits (.cvtout r fmt sat tr)) ∧
        let size := 4 * ((4095 + Fmt.count f e.efr) / Fmt.count f e.efr)
        let writes (ps : List Piece) : Prop :=
          ∃ (ws : List Word32) (fl : Flags),
            goes (.cvtout r fmt sat tr) ((u.winStore ps ((ws.map (fun (w : Word32) => leBytes w.toNat 4)).flatten)).modRing e.key r.toNat
              (fun g => { g with tail := (g.tail + 1) % g.count, filled := g.filled + 1 })) e fl 16 next ∧
            ws.length = (4095 + Fmt.count f e.efr) / Fmt.count f e.efr ∧
            let cell (k : Nat) : Nat × Flags :=
              let v := fp32.value (u.core.mrf.get (if tr then cellKey e.accTile (k % 64) (k / 64) else cellKey e.accTile (k / 64) (k % 64))).toNat
              let r := narrow (Fmt.nt f e.efr) v (RMode.of e.rmm) sat
              (r.1, r.2 ||| nvOf [v])
            (∀ k, k < 4096 → elem f e.efr (ws.getD (k / Fmt.count f e.efr) 0) (k % Fmt.count f e.efr) = (cell k).1) ∧
            (∀ b, b < 7 → (fl.getLsbD b = true ↔ ∃ k, k < 4096 ∧ (cell k).2.getLsbD b = true))
        let room := held ∧ 4096 ≤ g.slot / 4 * Fmt.count f e.efr ∧ g.filled < g.count
        (∀ ps, room → x.winPieces (e.key / 2) (g.base + g.slot * g.tail) size .ewrite = .ok ps →
          (u.bankHeld e.key (winKeys ps) = true → waits (.cvtout r fmt sat tr)) ∧ (u.bankHeld e.key (winKeys ps) = false → writes ps)) ∧
        (room → x.inGrans (e.key / 2) (g.base + g.slot * g.tail) size → u.calm →
          ∃ ps, x.winPieces (e.key / 2) (g.base + g.slot * g.tail) size .ewrite = .ok ps ∧ writes ps))

/-- A completed copy, load-block operation or near-memory command: after a release at level 3 of what came before it, it writes its status word, a
copy that ended well also sends its decrement, a filled entry becomes ready, an evicted one invalid, its fault is raised to its stream, and it is
gone; one still moving data, or whose status word lies in held banks, changes nothing (R245, R247, R249, R253, R269, R288, R321).
SCOREBOARD_RESULT_LANDS writes the result's targets and flags and removes it, a load that has not read reading then, unless an earlier result to the
same destination or a refresh of a bank it reads holds it back; a late or unknown result changes nothing (R111, R255, R258). The model's choices in
it: log 28. -/
def Obligations.Completions : Prop :=
  (∀ (s : State) (o : Op) (pre post : List Op), s.ops = pre ++ o :: post → (∀ p ∈ pre, p.id ≠ o.id) →
    let u := s.relAll o.key 3 (some o.id)
    let free (a n : Nat) := s.fillHeld o.key a n = false
    let all : List Instr := [.copyComplete o.id, .loadBlockFillComplete o.id, .loadBlockEvictComplete o.id, .nmopComplete o.id]
    (o.status = none → ∀ i ∈ all, exec i s = .next s) ∧
    ((∀ e ∈ s.allStreams, e.2.hold = none) → ∀ a n, free a n) ∧
    (∀ c code a, o.kind = .copy c → o.status = some code → c.fe = some a → ¬free a 4 → exec (.copyComplete o.id) s = .next s) ∧
    (∀ e b old code, o.kind = .fill e b old → o.status = some code → ¬free b.few 4 → exec (.loadBlockFillComplete o.id) s = .next s) ∧
    (∀ e m b code, o.kind = .evict e m b → o.status = some code → ¬free b.few 4 → exec (.loadBlockEvictComplete o.id) s = .next s) ∧
    (∀ n code, o.kind = .nm n → o.status = some code → ¬free n.stat 8 → exec (.nmopComplete o.id) s = .next s) ∧
    (∀ c code, o.kind = .copy c → o.status = some code → (∀ a, c.fe = some a → free a 4) →
      let v := (match c.fe with | some a => u.complete o.key a (leBytes code 4) | none => u).dropOp o.id
      let w := match c.tref with
        | some t => if code = 0 then v.sendDec o.key t 1 else v
        | none => v
      exec (.copyComplete o.id) s = .next (w.opTrap o)) ∧
    (∀ e b old code, o.kind = .fill e b old → o.status = some code → free b.few 4 →
      let d := s.dropOp o.id
      let later := ∃ p ∈ d.ops, p.key = o.key ∧ ∃ b old, p.kind = .fill e b old
      let ready (x : Stream) : Stream := match x.blks.find e with
        | some q => { x with blks := x.blks.put e { q with filling := false, valid := q.valid && code == 0 } }
        | none => x
      (later → exec (.loadBlockFillComplete o.id) s = .next (((d.modStream o.key id).opStatus o (some b.few) code).opTrap o)) ∧
      (¬later → exec (.loadBlockFillComplete o.id) s = .next (((d.modStream o.key ready).opStatus o (some b.few) code).opTrap o))) ∧
    (∀ e m b code, o.kind = .evict e m b → o.status = some code → free b.few 4 →
      let d := s.dropOp o.id
      let later := ∃ p ∈ d.ops, p.key = o.key ∧ ∃ b old, p.kind = .fill e b old
      let gone (x : Stream) : Stream := match x.blks.find e with
        | some q => (if m = .writeKeep ∨ q.evicting = false then x
                     else { x with blks := x.blks.put e { q with valid := q.valid && code != 0, evicting := false } })
        | none => x
      (later → exec (.loadBlockEvictComplete o.id) s = .next (((d.modStream o.key id).opStatus o (some b.few) code).opTrap o)) ∧
      (¬later → exec (.loadBlockEvictComplete o.id) s = .next (((d.modStream o.key gone).opStatus o (some b.few) code).opTrap o))) ∧
    (∀ n code, o.kind = .nm n → o.status = some code → free n.stat 8 →
      exec (.nmopComplete o.id) s = .next
        ((((u.complete o.key (n.stat + 4) (leBytes o.moved 4)).complete o.key n.stat (leBytes (code * 2 ^ 24 + o.flags.toNat * 2 ^ 16) 4)).dropOp
          o.id).opTrap o)) ∧
    (∀ (t : State) (fe code : Nat), t.opStatus o (some fe) code = (t.relAll o.key 3 (some o.id)).complete o.key fe (leBytes code 4))) ∧
  (∀ (s : State) (p : Pend) (pre post : List Pend), s.curLive = true → s.cur.pend = pre ++ p :: post → (∀ q ∈ pre, q.id ≠ p.id) →
    let i : Instr := .scoreboardResultLands s.curKey p.id
    (s.landable s.cur p = false → exec i s = .next s) ∧
    (s.landable s.cur p = true →
      let u := s.resolveFor p
      exec i s = .next (u.landPend ((u.cur.pend.find? (fun q => q.id == p.id)).getD p))) ∧
    (s.landable s.cur p = true → (∀ r ∈ p.dram, r.stage = 3) ∧ s.loadWaits s.cur p = false) ∧
    (pre = [] → s.cur.land = [] → p.rd = none → p.dram = [] → s.landable s.cur p = true) ∧
    (∀ r v, s.landable s.cur p = true → p.rd = none → p.tgts = [.s r v] → p.dram = [] → r ≠ 0 → s.core.parity = [] → exec i s =
      .next { s with cur := { s.cur with s := s.cur.s.set r v, pend := (pre ++ p :: post).filter (fun q => q.id != p.id), flags := s.cur.flags ||| p.flags } }) ∧
    (∀ cs, s.landable s.cur p = true → p.rd = none → p.tgts = [.cells cs] → p.dram = [] → s.core.parity = [] → exec i s =
      .next { s with core := { s.core with mrf := s.core.mrf.puts cs },
                     cur := { s.cur with pend := (pre ++ p :: post).filter (fun q => q.id != p.id), flags := s.cur.flags ||| p.flags } })) ∧
  (∀ (s : State) (o : Op) (key id n : Nat) (x : Stream) (p : Pend) (r : DReq),
    (o.trap = none → s.opTrap o = s) ∧
    (∀ t, o.trap = some t → s.savedOf o.key = none → s.opTrap o = { s with ops := s.ops.filter (fun p => p.id != o.id) ++ [{ o with kind := .trap }] }) ∧
    (∀ pre post, s.ops = pre ++ o :: post → (∀ v ∈ pre, ¬(v.key = key ∧ v.kind = .trap)) → o.key = key → o.kind = .trap →
      s.trapArrives key = State.modStream { s with ops := s.ops.filter (fun v => v.id != o.id) } key
        (fun x => { x with async := x.async ++ o.trap.toList })) ∧
    (s.stream key = some x → x.pend.find? (fun p => p.id == id) = some p → p.dram[n]? = some r →
      let ch := dramChan r.pa
      let bank := dramBank r.pa
      let moved := s.modStream key (fun x => { x with pend := x.pend.map (fun v =>
        if v.id = id then { v with dram := v.dram.set n { r with stage := min 3 (r.stage + 1) } } else v) })
      (r.stage = 1 → s.refreshing r.pa = true ∨ s.bankBusy ch bank = true → s.dramStep key id n = s) ∧
      (r.stage = 0 → s.dramStep key id n = moved) ∧
      (r.stage = 1 → s.refreshing r.pa = false → s.bankBusy ch bank = false → s.dramStep key id n = moved) ∧
      (r.stage = 2 → ∃ q : PChan, s.dramStep key id n =
          { moved with mem := { moved.mem with chans := moved.mem.chans.put ch q } } ∧
        q.rows = ((moved.mem.chans.at ch {}).rows).set bank (BitVec.ofNat 16 ((dramPlace r.pa).row + 1)) ∧
        q.lastLat = if r.lat then s.cycle.toNat else (moved.mem.chans.at ch {}).lastLat)))

/-- WRITE_PERFORMED performs a stream's pending write at its own die's home, sends one for another die out with the die's clock, and leaves one that
an earlier write of the stream to the same bytes precedes, that goes to a bank in refresh, or whose die has 2^30 writes unapplied;
INCOMING_WRITE_APPLY applies an incoming write exactly when the die's clock admits it and, where the write is performed there, the die may send its
updates (R257, R258, R260). REFRESH_DUE of a bank with no latency-critical request in its group makes the refresh due; with one it is owed, up to 8,
and the ninth makes one of all 16 banks due and clears the debt; a refresh that is due begins when the accesses in service at its banks have ended,
and closes their rows; OWED_REFRESH_PAYMENT pays the oldest once the channel is idle of such requests for 400 cycles and no refresh is there or due;
REFRESH_END ends a bank's refresh; a channel's refresh changes nothing but that channel; the address's bits give its stack, row, bank, channel and
line (R254, R255, R362, R363). The model's choices in it: log 3. -/
def Obligations.WritesAndRefresh : Prop :=
  (∀ (s : State) (w : PWrite) (pre post : List PWrite) (q : RWrite) (p0 p1 : List RWrite),
    s.mem.wq = pre ++ w :: post → (∀ v ∈ pre, v.id ≠ w.id) → s.mem.rq = p0 ++ q :: p1 → (∀ v ∈ p0, v.id ≠ q.id) →
    let behind := w.sent = true ∨ ∃ v ∈ pre, v.key = w.key ∧ v.pa < w.pa + w.bytes.length ∧ w.pa < v.pa + v.bytes.length
    let i : Instr := .writePerformed w.id
    let lines := s.writeLines w
    let stopped := s.mem.maySend (coreDie (w.key / 2)) = false ∨ ∃ a ∈ lines, s.refreshing a = true
    (behind ∨ stopped → exec i s = .next s) ∧
    (¬behind → ¬stopped → coreDie (w.key / 2) = paDie w.pa →
      exec i s = .next (((s.latDone (lines.map (fun a => (a, w.lat)))).dropWrite w.id).perform w)) ∧
    (s.mem.rq.length < 2 ^ 30 → s.mem.chans = [] → ¬stopped) ∧
    (¬behind → ¬stopped → coreDie (w.key / 2) ≠ paDie w.pa → exec i s = .next (s.sendWrite w)) ∧
    (∀ id, (∀ v ∈ s.mem.wq, v.id ≠ id) → exec (.writePerformed id) s = .next s) ∧
    (s.mem.mayApply q = true → exec (.incomingWriteApply q.id) s = .next (s.applyR q)) ∧
    (s.mem.mayApply q = false → exec (.incomingWriteApply q.id) s = .next s) ∧
    (s.mem.mayApply q = true ↔ ((s.mem.clock q.dst).getD q.src 0 + 1) % 2 ^ 32 = q.clock.getD q.src 0 ∧
      (∀ e, e < 4 → e ≠ q.src → ((s.mem.clock q.dst).getD e 0 + 2 ^ 32 - q.clock.getD e 0) % 2 ^ 32 < 2 ^ 31) ∧
      (q.wr = none ∨ s.mem.maySend q.dst = true)) ∧
    (∀ e, s.mem.maySend e = true ↔ ∀ d, d < 4 → (s.mem.rq.filter (fun v => v.src == e && v.dst == d)).length < 2 ^ 30)) ∧
  (∀ (s : State) (stack pc bank : Nat),
    let ch := stack * 64 + pc
    let p := s.mem.chans.at ch {}
    let put (p : PChan) : State := { s with mem := { s.mem with chans := s.mem.chans.put ch p } }
    let critical (grp : Option Nat) := s.latReq ch grp = true
    let starts (p : PChan) : PChan :=
      let go := p.due.filter (fun b => !s.bankBusy ch b)
      if p.allDue then
        (if (List.range 16).any (s.bankBusy ch) then p else { p with allDue := false, due := [], busy := List.range 16, rows := [] })
      else { p with due := p.due.filter (fun b => !go.contains b), busy := p.busy ++ go, rows := p.rows.filter (fun r => !go.contains r.1) }
    let idle := p.busy = [] ∧ p.due = [] ∧ p.allDue = false
    (¬critical (some (bank % 4)) → exec (.refreshDue stack pc bank) s = .next (put (starts { p with due := p.due ++ [bank] }))) ∧
    (critical (some (bank % 4)) → p.owed.length < 8 → exec (.refreshDue stack pc bank) s = .next (put { p with owed := p.owed ++ [bank] })) ∧
    (critical (some (bank % 4)) → 8 ≤ p.owed.length → exec (.refreshDue stack pc bank) s = .next (put (starts { p with owed := [], allDue := true }))) ∧
    (∀ b rest, p.owed = b :: rest → ¬critical none → p.lastLat + 400 ≤ s.cycle.toNat → idle →
      exec (.owedRefreshPayment stack pc) s = .next (put (starts { p with owed := rest, due := [b] }))) ∧
    (p.owed = [] ∨ critical none ∨ s.cycle.toNat < p.lastLat + 400 ∨ ¬idle → exec (.owedRefreshPayment stack pc) s = .next s) ∧
    (∀ b, p.closed b = true ↔ b ∈ p.busy ∨ b ∈ p.due ∨ p.allDue = true) ∧
    (∀ pa, s.refreshing pa = (s.mem.chans.at (dramChan pa) {}).closed (dramBank pa)) ∧
    (∀ pa, pa < 2 ^ 41 → let d := dramPlace pa
      d.stack < 16 ∧ d.row < 2 ^ 14 ∧ d.bank < 16 ∧ d.chan < 64 ∧ d.line < 64 ∧ d.byte < 128 ∧
      pa = d.stack * 2 ^ 37 + d.row * 2 ^ 23 + d.bank * 2 ^ 19 + d.chan * 2 ^ 13 + d.line * 2 ^ 7 + d.byte ∧
      dramChan pa = d.stack * 64 + d.chan ∧ dramBank pa = d.bank) ∧
    (bank ∈ p.busy → exec (.refreshEnd stack pc bank) s = .next (put { p with busy := p.busy.filter (fun b => b != bank) })) ∧
    (bank ∉ p.busy → exec (.refreshEnd stack pc bank) s = .next s))

/-- Messages on a bound queue pair: a launch message of 192 bytes is enqueued with the queue's next serial, or answered QFULL (status 0x07) by a full
queue of 64 or BADMSG (status 0x06) when it is malformed or the steps of R379 have not ended for the context: no port has trained, the module is not
attested, no rank of the context was installed or no job record names it; event commands OR their mask into the vector, or clear it, as one update; a
completion head moves the consumed counter; any other SEND is BADMSG. On an unbound queue pair, or one in the error state, nothing changes (R33, R34,
R35, R37, R373, R379, R381). A completion record is written into the ring at CQBASE + 32 × (n mod size) with the phase bit 1 on the first pass and
each odd one, and counted; COMPLETION_RECORD_WRITE writes the oldest held record once the ring has space, and only then does its launch leave its
queue, except BADMSG, QFULL and COMMIT records, which no launch owns; it changes nothing while the ring is full or nothing is held (R34, R35). The
model's choices in it: log 35. -/
def Obligations.HostQueues : Prop :=
  (∀ (s : State) (c q : Nat) (w : List Word64) (len qp : Nat),
    let x := s.ctxAt c
    let b0 := (wordAt w 0).toNat / 2 ^ 56
    let all : List Instr := [.launchMessage c q w, .eventSetMessage c q w, .eventClearMessage c q w, .completionHeadMessage c q w, .unrecognisedMessage c q len w]
    let msg (status : Nat) (step : Word32) (last first : Nat) : List Word64 :=
      [BitVec.ofNat 64 (status * 2 ^ 56 + q * 2 ^ 53 + step.toNat), s.cycle, BitVec.ofNat 64 (last * 2 ^ 16 + first)]
    let bad (i : Instr) : Prop := exec i s = .next (s.cqPut c (msg 6 0 0 0))
    let event (kind : Nat) := w.length = 8 ∧ wordAt w 0 = BitVec.ofNat 64 (kind * 2 ^ 56) ∧ wordAt w 5 = 0 ∧ wordAt w 6 = 0 ∧ wordAt w 7 = 0
    let mask : BitVec 256 := wordAt w 4 ++ wordAt w 3 ++ wordAt w 2 ++ wordAt w 1
    let jobs := s.mgmt.links ≠ [] ∧ s.mgmt.eth ≠ [] ∧ s.mgmt.attested = true ∧ x.up = true ∧ ∃ e ∈ s.front.jobs, e.2.ctx = c ∧ e.2.v ≠ 0
    let launch := w.length = 24 ∧ b0 = 1
    let head := w.length = 8 ∧ wordAt w 0 = 0x0400000000000000 ∧ (wordAt w 1).toNat < 2 ^ 32 ∧ ∀ i, 2 ≤ i → i < 8 → wordAt w i = 0
    let used := (x.cqWritten + 2 ^ 32 - (wordAt w 1).toNat % 2 ^ 32) % 2 ^ 32
    (s.bound c q = true ↔ s.front.ctxs.has c = true ∧ q ∈ x.qps ∧ q ∉ x.qpErr) ∧
    exec (.unboundQpRequest qp) s = .next s ∧ (s.bound c q = false → ∀ i ∈ all, exec i s = .next s) ∧
    (s.bound c q = true →
      (¬(launch ∧ jobs) → bad (.launchMessage c q w)) ∧
      (launch → jobs → 64 ≤ (x.queues.at q []).length → exec (.launchMessage c q w) s =
        .next (s.cqPut c (msg 7 ((wordAt w 6).extractLsb' 32 32) ((wordAt w 5).toNat / 2 ^ 16 % 2 ^ 16) ((wordAt w 5).toNat % 2 ^ 16)))) ∧
      (launch → jobs → (x.queues.at q []).length < 64 →
        let n := x.serials.at q 0
        let l : Launch := { d := w, serial := n, lid := s.nextId + 1, origin := false }
        let y := { x with serials := x.serials.put q ((n + 1) % 128), queues := x.queues.put q (x.queues.at q [] ++ [l]) }
        exec (.launchMessage c q w) s = .next { s with nextId := s.nextId + 1, front := { s.front with ctxs := s.front.ctxs.put c y } }) ∧
      (¬event 2 → bad (.eventSetMessage c q w)) ∧ (¬event 3 → bad (.eventClearMessage c q w)) ∧
      (event 2 → exec (.eventSetMessage c q w) s = .next ((s.modCtx c (fun x => { x with ev := x.ev ||| mask })).evalHeads c)) ∧
      (event 3 → exec (.eventClearMessage c q w) s = .next ((s.modCtx c (fun x => { x with ev := x.ev &&& ~~~mask })).evalHeads c)) ∧
      (¬(head ∧ used ≤ 2 ^ x.cqlog.toNat) → bad (.completionHeadMessage c q w)) ∧
      (head → used ≤ 2 ^ x.cqlog.toNat → exec (.completionHeadMessage c q w) s =
        .next { s with front := { s.front with ctxs := s.front.ctxs.put c { x with cqConsumed := (wordAt w 1).setWidth 32 } } }) ∧
      (len = 192 ∧ b0 = 1 ∨ len = 64 ∧ (b0 = 2 ∨ b0 = 3 ∨ b0 = 4) → exec (.unrecognisedMessage c q len w) s = .next s) ∧
      (¬(len = 192 ∧ b0 = 1 ∨ len = 64 ∧ (b0 = 2 ∨ b0 = 3 ∨ b0 = 4)) → bad (.unrecognisedMessage c q len w)))) ∧
  (∀ (s : State) (c : Nat) (k : List Word64) (rest : List (List Word64)),
    let x := s.ctxAt c
    let size := 2 ^ x.cqlog.toNat
    let used (x : Ctx) := (x.cqWritten + 2 ^ 32 - x.cqConsumed.toNat) % 2 ^ 32
    let write (s : State) (x : Ctx) (k : List Word64) : State :=
      let out := (c, x.cqbase.toNat + 32 * (x.cqWritten % size), k ++ [(if x.cqWritten / size % 2 = 0 then 1 else 0 : Word64)])
      { s with front := { s.front with ctxs := s.front.ctxs.put c { x with cqWritten := x.cqWritten + 1 } },
               outs := { s.outs with host := s.outs.host ++ [out] } }
    let status := (wordAt k 0).toNat / 2 ^ 56
    let q := (wordAt k 0).toNat / 2 ^ 53 % 8
    let n := (wordAt k 0).toNat / 2 ^ 45 % 128
    let owned := status ≠ 6 ∧ status ≠ 7 ∧ status ≠ 11 ∧ ∃ l, (x.queues.at q []).find? (fun l => l.serial == n) = some l ∧ l.done = true
    (x.cqHeld = [] → used x < size → s.cqPut c k = write s x k) ∧
    (x.cqHeld = [] → exec (.completionRecordWrite c) s = .next s) ∧
    (x.cqHeld = k :: rest → size ≤ used x → exec (.completionRecordWrite c) s = .next s) ∧
    (x.cqHeld = k :: rest → used x < size → ¬owned → exec (.completionRecordWrite c) s = .next (write s { x with cqHeld := rest } k)) ∧
    (x.cqHeld = k :: rest → used x < size → owned →
      exec (.completionRecordWrite c) s = .next ((write s { x with cqHeld := rest } k).dropLaunch c q n)))

/-- A head is checked once: a failed check ends it with its status, a step already committed with STALE (10), else it is evaluated; a start clears its
CLRMASK and starts it on the held ranks of its set. TASK_START binds the next startable task of a rank to the core of R48, when no contender comes
before, and a faulty entry stops the rank's further tasks with BADTASK (5). A decrement adds to its task's count or, when R42 drops it, to LOSTDEC.
TASK_RETIRE waits for the work of R156, spills the window, settles the parked requests, then retires. LAUNCH_RETIRE waits for the heats of a
deterministic launch, sets SETMASK for OK and writes the record (R25, R27, R31, R38, R41, R42, R47, R156, R345, R346). Among the queues the one of the
least virtual time wins, then the lower context, then the lower queue (R49); a ready task takes the first class of R48 with a core that fits: crews by
kinship, their dies, the home die, the die with the most free cores, then a place beside a primary; it starts in the state of R31, its tiles and
granules cleared. The model's choices in it: log 36, 38, 45, 56, 65. -/
def Obligations.LaunchesAndTasks : Prop :=
  ∀ (s : State) (c q n slot task id : Nat) (l : Launch) (r : LRank) (e : Entry),
    let ls := (s.ctxAt c).queues.at q []
    let st := s.checkLaunch c l
    (headOf ls = none → exec (.launchHead c q) s = .next s) ∧
    (headOf ls = some l → l.checked = true → exec (.launchHead c q) s = .next (s.evalHead c q)) ∧
    (headOf ls = some l → l.checked = false → st ≠ 0 → exec (.launchHead c q) s = .next (s.endLaunch c q l st 0)) ∧
    (headOf ls = some l → l.checked = false → st = 0 → s.stale c l = true → exec (.launchHead c q) s = .next (s.endLaunch c q l 10 0)) ∧
    (headOf ls = some l → l.checked = false → st = 0 → s.stale c l = false →
      exec (.launchHead c q) s = .next ((s.modLaunch c q l.serial (fun l => { l with checked := true })).evalHead c q)) ∧
    (headOf ls = some l → (s.ctxAt c).weight q ≠ 0 → l.started = false → l.checked = true → s.stale c l = false → s.headWaits c l = false →
      let need := l.mask 8
      ((s.ctxAt c).ev &&& need = need → s.evalHead c q = s.startLaunch c q l) ∧ ((s.ctxAt c).ev &&& need ≠ need → s.evalHead c q = s)) ∧
    let picks (v : Reading) := (s.startable c q).find? (fun t => t.1.serial == l.serial && t.2.1.slot == r.slot && t.2.2.1 == task) = some (l, r, task, v)
    let start : Instr := .taskStart c q l.serial r.slot task
    ((∀ t ∈ s.startable c q, ¬(t.1.serial = n ∧ t.2.1.slot = slot ∧ t.2.2.1 = task)) → exec (.taskStart c q n slot task) s = .next s) ∧
    (∀ t, picks (.bad t) → exec start s = .next (s.badEntry c q l r.slot t)) ∧
    (∀ k, picks (.good e) → s.chooseCore c q l r.slot e = some k → s.winner c q = true → s.resumable (c, q) = false →
      exec start s = .next (s.rebase.bind k c q l r.slot task e)) ∧
    (∀ k, picks (.good e) → s.chooseCore c q l r.slot e = some k → s.winner c q = false ∨ s.resumable (c, q) = true → exec start s = .next s) ∧
    (s.mayStart c q l r task e → ∃ k, s.chooseCore c q l r.slot e = some k ∧ exec start s = .next (s.rebase.bind k c q l r.slot task e)) ∧
    (∀ o pre post t amount cmd, s.ops = pre ++ o :: post → (∀ p ∈ pre, p.id ≠ o.id) → o.kind = .dec t amount cmd →
      let d := s.dropOp o.id
      (s.refDrop t = true → exec (.predecessorDecrement o.id) s = .next ((d.dropPair o).modCtx t.ctx (fun x => { x with lostdec := x.lostdec + 1 }))) ∧
      (∀ qq ll, s.refDrop t = false → s.refLaunch t = some (qq, ll) →
        let add (r : LRank) : LRank := if r.slot == t.slot then { r with decs := r.decs.put t.task (r.decs.at t.task 0 + amount) } else r
        exec (.predecessorDecrement o.id) s =
          .next ((d.modLaunch t.ctx qq ll.serial (fun l => { l with ranks := l.ranks.map add })).wake s t.ctx qq))) ∧
    (∀ x, s.stream id = some x →
      let done := x.ending ≠ 0 ∧ s.workDone id x = true
      let broken := x.winHeld = true ∧ x.flushing = true ∧ x.winAgent = 3
      let empty := x.winHeld = false ∨ x.win = []
      let v := (s.releaseStack id x).settleParked id x
      (¬done → exec (.taskRetire id) s = .next s) ∧
      (done → broken → exec (.taskRetire id) s = .next (s.taskFail id ((x.async.getLast?.map (fun t => t.cause)).getD 0x0C))) ∧
      (done → ¬broken → ¬empty → exec (.taskRetire id) s = .next (s.putStream id { x with flushing := true, winAgent := 0 })) ∧
      (done → ¬broken → empty → v.parkedOpen id = true → exec (.taskRetire id) s = .next v) ∧
      (done → ¬broken → empty → v.parkedOpen id = false → exec (.taskRetire id) s = .next (v.retire id x)) ∧
      (x.winHeld = false → s.treqs = [] → v.parkedOpen id = false)) ∧
    (s.launch c q n = some l → l.done = true ∨ l.finished = false ∨ s.heatsOpen l = true → exec (.launchRetire c q n) s = .next s) ∧
    (l.det = false → s.heatsOpen l = false) ∧
    (s.launch c q n = some l → l.done = false → l.finished = true → s.heatsOpen l = false →
      let st := if l.status ≠ 0 then l.status else if l.ranks.any (fun r => r.caught) then 12 else 0
      let v := if st = 0 then s.modCtx c (fun x => { x with ev := x.ev ||| l.mask 12 }) else s
      let w := v.endLaunch c q l st (if st = 8 ∨ st = 5 then l.fcause else 0)
      exec (.launchRetire c q n) s = .next ((l.ranks.foldl (fun (s : State) r => s.checkCaught r.slot) w).evalHeads c)) ∧
    -- the start of a head
    (headOf ls = some l →
      let u := s.startLaunch c q l
      let slots := s.setSlots c l
      (∀ i, i ∈ slots ↔ i ∈ s.jobSlots c l.job ∧ l.first ≤ (s.rank i).vrank.toNat ∧ (s.rank i).vrank.toNat ≤ l.last) ∧
      (u.ctxAt c).ev = (s.ctxAt c).ev &&& ~~~(l.mask 16) ∧
      (∀ v ∈ (u.ctxAt c).queues.at q [], v.serial = l.serial → v.started = true ∧ v.ranks.map (fun k => k.slot) = slots ∧
        ∀ k ∈ v.ranks, k.started = [] ∧ k.retired = [] ∧ k.decs = [] ∧ k.bad = false ∧ k.discarded = s.catchOver k.slot ∧ k.caught = s.catchOver k.slot) ∧
      (∀ i, (u.rank i) = if i ∈ slots then { s.rank i with
          lastLaunch := s.cycle.toNat, recallDue := (s.rank i).recallDue || (s.rank i).state == .cold || (s.rank i).state == .evicting } else s.rank i) ∧
      (∀ k j, s.jobOf c l.job = some (k, j) →
        u.front.jobs = if l.sl = true ∧ l.step = j.next ∧ j.state = .committed then s.front.jobs.put k { j with state := .running } else s.front.jobs)) ∧
    -- the choice of a core: classes 1 to 4, then 5
    (let order := s.coreOrder c q l.lid slot l.widths e.wid
     let ran (crew : Nat) (w : Word64) : Prop :=
       (∃ v ∈ s.allStreams, v.1 / 16 = crew ∧ v.2.ctx = c ∧ v.2.queue = q ∧ v.2.lid = l.lid ∧ v.2.slot = slot ∧ v.2.wid = w) ∨
       ∃ v ∈ s.front.lastRun, v.1 / 8 = crew ∧ v.2 = (c, q, l.lid, slot, w)
     let deep (w : Word64) := kinLevel l.widths e.wid w
     let cores (k n : Nat) := (List.range n).map (fun i => n * k + i)
     (∀ w r, r < 6 → (r < deep w ↔ e.wid >>> (64 - widthSum l.widths r) = w >>> (64 - widthSum l.widths r))) ∧
     (∃ (crews dies : List Nat) (idle : Nat),
       order = crews.flatMap (fun k => cores k 8) ++ dies.flatMap (fun d => cores d 128) ++ cores (s.rank slot).homedie 128 ++ cores idle 128 ∧
       (∀ k, k ∈ crews ↔ k < 64 ∧ ∃ w, ran k w) ∧
       crews.Pairwise (fun a b => (∀ w, ran b w → ∃ v, ran a v ∧ deep w ≤ deep v) ∧ ((∀ v, ran a v → ∃ w, ran b w ∧ deep v ≤ deep w) → a < b)) ∧
       dies = (crews.map (fun k => k / 16)).eraseDups ∧
       idle < 4 ∧ ∀ d, d < 4 → s.freeCores d ≤ s.freeCores idle ∧ (s.freeCores d = s.freeCores idle → idle ≤ d)) ∧
     (∀ k pre post, order = pre ++ k :: post → s.fitsFree k e = true → (∀ v ∈ pre, s.fitsFree v e = false) → s.chooseCore c q l slot e = some (2 * k)) ∧
     (∀ k pre post, order = pre ++ k :: post → (∀ v ∈ order, s.fitsFree v e = false) → s.fitsBeside k c e = true →
       (∀ v ∈ pre, s.fitsBeside v c e = false) → s.chooseCore c q l slot e = some (2 * k + 1)) ∧
     ((∀ v ∈ order, s.fitsFree v e = false ∧ s.fitsBeside v c e = false) → s.chooseCore c q l slot e = none) ∧
     (∀ k, s.fitsFree k e = true ↔ s.coreFenced k = false ∧ s.stream (2 * k) = none ∧ s.stream (2 * k + 1) = none ∧ e.grans ≤ (s.freeGrans k).length) ∧
     (∀ k x, s.stream (2 * k) = some x → (s.fitsBeside k c e = true ↔ s.coreFenced k = false ∧ s.stream (2 * k + 1) = none ∧ e.tiles = 4 ∧ e.pair = true ∧
       e.grans ≤ (s.freeGrans k).length ∧ x.ctx = c ∧ x.tiles4 = true ∧ x.pair = true ∧ x.grans + e.grans ≤ 16)) ∧
     (s.winner c q = true ↔ ∀ d ∈ s.queues, d ≠ (c, q) → s.placeable d = true ∨ s.resumable d = true →
       s.vt c q < s.vt d.1 d.2 ∨ (s.vt c q = s.vt d.1 d.2 ∧ (c < d.1 ∨ (c = d.1 ∧ q ≤ d.2))))) ∧
    -- the state of a task at its start
    ((∀ o ∈ s.ops, ∀ a b d g, o.kind ≠ .gran a b d g) →
      let u := s.bind id c q l slot task e
      let k := id / 2
      let gs := (s.freeGrans k).take e.grans
      let tiles := if e.tiles = 4 then (if id % 2 = 1 then (4, 4) else (0, 4)) else (0, 8)
      (∃ x, u.stream id = some x ∧ x.ctx = c ∧ x.slot = slot ∧ x.queue = q ∧ x.lid = l.lid ∧ x.task = task ∧ x.step = l.step ∧
        x.s.get 1 = e.wid ∧ x.s.get 2 = BitVec.ofNat 64 l.argptr ∧ x.s.get 3 = (s.rank slot).vrank.setWidth 64 ∧
        (∀ r, r ≠ 1 → r ≠ 2 → r ≠ 3 → x.s.get r = 0) ∧ x.p = 1 ∧ (∀ r, x.l.get r = 0 ∧ x.c.get r = 0 ∧ x.z.get r = 0 ∧ x.q.get r = 0) ∧
        x.efr = 0 ∧ x.fmode = 0 ∧ x.flags = 0 ∧ x.lc = 0 ∧ x.ec = 0 ∧ x.rrb = 0 ∧ x.latcnt = 0 ∧ x.trappc = 0 ∧ x.trapcause = 0 ∧ x.trapaddr = 0 ∧
        x.trapinfo = 0 ∧ x.fewaitlim = 0 ∧ x.rings = [] ∧ x.blks = [] ∧ x.recv = [] ∧ x.wid = e.wid ∧ x.vrank = (s.rank slot).vrank ∧
        x.ctxid = BitVec.ofNat 6 c ∧ x.heat = BitVec.ofNat 16 e.heat ∧ x.tvec = BitVec.ofNat 56 (l.codebase + wbits (l.d) 7 31 0) ∧
        x.dpb = (s.ctxAt c).dpb ∧ x.pc = BitVec.ofNat 64 (l.codebase + e.off) ∧ x.npc = x.pc ∧ x.land = [] ∧ x.pend = [] ∧ x.hold = none ∧
        x.handler = false ∧ x.ending = 0 ∧ x.async = [] ∧ x.win = [] ∧ x.lgran = (List.range gs.length).zip gs) ∧
      (∀ i, 4096 * tiles.1 ≤ i → i < 4096 * (tiles.1 + tiles.2) → (u.coreOf k).mrf.get i = 0) ∧
      (∀ g ∈ gs, ∀ i, i < 65536 → u.mem.spad.get (k * 2 ^ 20 + g * 65536 + i) = 0 ∧ u.mem.fe.get ((k * 2 ^ 20 + g * 65536 + i) / 4) = 0) ∧
      (u.rank slot).stkptr = (s.rank slot).stkptr ∧ (u.rank slot).stkbase = (s.rank slot).stkbase ∧ (u.rank slot).stklim = (s.rank slot).stklim) ∧
    -- what a task leaves when it retires
    (∀ x, s.stream id = some x → (s.curLive = true → id = s.curKey → s.streams.find id = none) →
      let u := s.retire id x
      u.stream id = none ∧ ∃ rest, u.front.lastRun = (id / 2, x.ctx, x.queue, x.lid, x.slot, x.wid) :: rest)

/-- GRANULE_DELIVERY puts a granule into the lowest free received slot of its running recipient, in order, and frees one whose reference R42 drops.
HEAT_COMMIT releases the heat's tag records once every task of it and of lower ones has retired, or will never start, and NEXT_HEAT_START then lets
the next higher heat start. SLICE_END decides under R49 once a slice is over; STARVATION_HOLD holds a primary after 256 refused cycles, outside a
BKLOCK hold. A stream whose slice has ended goes on for a new slice unless a queue of strictly smaller virtual time has a task that fits its core, or
its own queue's weight is 0; it is then asked to stop. CAUGHT counts ranks at the coordinator, of the current step and, before its own COMMIT, of the
next, and all V send COMMIT to every node that the map names; COMMIT empties the deques bound to the job's ranks, makes NEXT the step's successor,
clears the ranks' step marks and CIDs, writes the COMMIT record and, with CMTEN, sets CMTEV (R49, R115, R241, R273, R347, R350). The model's choices
in it: log 35, 56. -/
def Obligations.HeatsSlicesSteps : Prop :=
  ∀ (s : State) (c q n slot key core count : Nat) (job step : Word32) (l : Launch) (r : LRank),
    (∀ (o : Op) pre post cc g w t, s.ops = pre ++ o :: post → (∀ p ∈ pre, p.id ≠ o.id) → o.kind = .gran cc g w t →
      (s.refDrop t = true → exec (.granuleDelivery o.id) s = .next (((s.dropOp o.id).dropPair o).lost t.ctx)) ∧
      (∀ k x i, s.refDrop t = false → s.allStreams.find? (fun e => s.isTask e.2 t) = some (k, x) → s.stream k = some x → x.recvSlot = some i →
        (∀ p ∈ pre, ∀ a b d, p.kind ≠ .gran a b d t) → exec (.granuleDelivery o.id) s =
          .next ((s.putStream k { x with recv := x.recv.put i { core := cc, gran := g, giver := w } }).dropOp o.id)) ∧
      (s.refDrop t = false → s.allStreams.find? (fun e => s.isTask e.2 t) = none → exec (.granuleDelivery o.id) s = .next s)) ∧
    (s.launch c q n = some l → l.ranks.find? (fun r => r.slot == slot) = some r →
      let h (hs : List (Nat × Nat)) := r.nowHeat hs
      let set (v : LRank) (s : State) : State :=
        s.modLaunch c q n (fun l => { l with ranks := l.ranks.map (fun r => if r.slot == slot then { r with heat := v.heat, heatDone := v.heatDone } else r) })
      let ended (hs : List (Nat × Nat)) := l.started = true ∧ l.det = true ∧ r.heatDone = false ∧ ((s.rank slot).state = .active ∨ r.discarded = true) ∧
        ∀ e ∈ hs, e.2 ≤ h hs → e.1 ∈ r.retired ∨ (r.discarded = true ∨ r.bad = true) ∧ e.1 ∉ r.started
      (s.heats l slot = none → exec (.heatCommit c q n slot) s = .next s ∧ exec (.nextHeatStart c q n slot) s = .next s) ∧
      (∀ hs, s.heats l slot = some hs → ended hs → exec (.heatCommit c q n slot) s = .next (set { r with heat := h hs, heatDone := true }
        { s with mem := { s.mem with tags := s.mem.tags.filter (fun t => t.2.key != [c, q, n, slot, h hs]) } })) ∧
      (∀ hs, s.heats l slot = some hs → ¬ended hs → exec (.heatCommit c q n slot) s = .next s) ∧
      (∀ hs h, s.heats l slot = some hs → r.heatDone = true → least ((hs.map (fun e => e.2)).filter (fun h => decide (r.heat < h))) = some h →
        exec (.nextHeatStart c q n slot) s = .next ((set { r with heat := h, heatDone := false } s).wake s c q)) ∧
      (r.heatDone = false → exec (.nextHeatStart c q n slot) s = .next s)) ∧
    (∀ x, s.stream key = some x →
      let ended := x.halted = false ∧ x.stopped = false ∧ x.sliceAt + (if (s.ctxAt x.ctx).quantum = 0 then 4096 else (s.ctxAt x.ctx).quantum.toNat) * 1024 ≤ s.cycle.toNat
      let y := { x with sliceAt := s.cycle.toNat }
      let gone : State := if s.curLive = true ∧ key = s.curKey then { s with curLive := false } else { s with streams := s.streams.del key }
      let fits (d : Nat × Nat) : Prop :=
        (∃ t ∈ gone.startable d.1 d.2, ∃ e, t.2.2.2 = .good e ∧
          (gone.fitsFree (key / 2) e = true ∨ (key % 2 = 1 ∧ gone.fitsBeside (key / 2) d.1 e = true))) ∨ gone.resumable d [key / 2] = true
      let beaten := ∃ d ∈ s.queues, s.vt d.1 d.2 < s.vt x.ctx x.queue ∧ fits d
      (ended → exec (.sliceEnd key) s = .next (s.decide49 key)) ∧ (¬ended → exec (.sliceEnd key) s = .next s) ∧
      ((∀ m, s.leastVt = some m → m < 2 ^ 48) →
        ((s.ctxAt x.ctx).weight x.queue ≠ 0 → ¬beaten → s.decide49 key = s.putStream key y) ∧
        (x.pre ≠ 0 → s.decide49 key = s.putStream key y) ∧
        ((s.ctxAt x.ctx).weight x.queue = 0 ∨ beaten → x.pre = 0 → (s.ctxAt x.ctx).freeArea = none → s.decide49 key = s.putStream key y) ∧
        ((s.ctxAt x.ctx).weight x.queue = 0 ∨ beaten → x.pre = 0 → (s.ctxAt x.ctx).freeArea ≠ none →
          (s.decide49 key).stream key = some { y with pre := 1, preSince := s.cycle.toNat } ∧ (s.decide49 key).mem = s.mem ∧
            (s.decide49 key).front = s.front ∧ (s.decide49 key).ops = s.ops))) ∧
    (∀ x y, s.stream (core * 2) = some x → s.stream (core * 2 + 1) = some y → exec (.starvationHold core) s =
      .next (if 256 ≤ y.refused ∧ x.hold = none then s.putStream (core * 2) { x with starved := true } else s)) ∧
    (s.stream (core * 2 + 1) = none → exec (.starvationHold core) s = .next s) ∧
    (s.jobNo job = none → exec (.caughtMessage job step count) s = .next s ∧ exec (.commitMessage job step) s = .next s) ∧
    (∀ k j, s.jobNo job = some (k, j) →
      let mine := j.coord = s.mgmt.node ∧ (step = j.next ∨ step = j.next + 1)
      (mine → exec (.caughtMessage job step count) s = .next (s.countCaught k j step count)) ∧
      (¬mine → exec (.caughtMessage job step count) s = .next s) ∧
      (j.caught + count < j.v → s.countCaught k j step count =
        { s with front := { s.front with jobs := s.front.jobs.put k { j with caught := j.caught + count } } }) ∧
      (j.v ≤ j.caught + count → (∀ i, i < j.v → hbmExists (j.mapbase + 4 * i) = true) →
        let u := s.countCaught k j step count
        u.front.jobs = s.front.jobs.put k { j with caught := 0 } ∧ u.mem = s.mem ∧ u.front.ranks = s.front.ranks ∧
        ∀ i n, i < j.v → s.mapNode j.ctx job i = some n → ∃ p, (if n = s.mgmt.node.toNat then p ∈ u.front.pkts else (n, p) ∈ u.outs.fabric) ∧
          p.kind = .commit step ∧ p.ctx = j.ctx ∧ p.job = j.job) ∧
      (j.next ≠ step → exec (.commitMessage job step) s = .next s) ∧
      (j.next = step →
        let held := s.jobSlots j.ctx job
        let ends : List Word64 := [BitVec.ofNat 64 (11 * 2 ^ 56 + step.toNat), s.cycle, BitVec.ofNat 64 (held.length * 2 ^ 32)]
        ∃ t : State,
          (let w := t.cqPut j.ctx ends
           let v : State := { w with outs := { w.outs with commits := w.outs.commits ++ [(j.ctx, ends)] } }
           let m := if j.cmten then v.modCtx j.ctx (fun x => { x with ev := x.ev ||| BitVec.ofNat 256 (2 ^ j.cmtev.toNat) }) else v
           exec (.commitMessage job step) s = .next (m.evalHeads j.ctx)) ∧
          t.front.jobs = s.front.jobs.put k { j with next := step + 1, state := .committed, coord := j.coordNext.getD j.coord, coordNext := none } ∧
          (∀ i ∈ held, t.rank i = { s.rank i with caughtExec := false, caught := false, reported := false, cids := [] }) ∧
          (∀ i, i ∉ held → t.rank i = s.rank i) ∧
          (∀ a b, let d := (s.crews.at a {}).deques.at b {}
            (t.crews.at a {}).deques.at b {} =
              if d.n ≠ 0 ∧ d.ctx = j.ctx ∧ d.rank ∈ held.map (fun i => (s.rank i).vrank.toNat) then {} else d) ∧
          t.outs = s.outs ∧ t.front.ctxs = s.front.ctxs ∧
          t.mem = s.mem ∧ t.streams = s.streams ∧ t.cur = s.cur ∧ t.core = s.core ∧ t.cores = s.cores ∧ t.ops = s.ops ∧ t.treqs = s.treqs))

/-- At its home a deposit takes the slice's next SEQ, satisfies the parked requests it matches in order up to the first take, and is stored, taken, or
answered FULL; a copy or take is answered with the oldest matching tuple, a take removing it, or else MISS under NOWAIT, PARKFULL beside 256 parked
requests, or parks; a TCAN that arrives after what its stream issued before it removes a parked request with CANCELLED; a withdrawn request that no
TCAN goes before leaves without an answer, kept for the restore when its stream is stopping; a request not next at its home changes nothing (R293,
R297, R298, R299, R300). A waiting granule none of whose detached requests is open sets out for its recipient, whose count drops by 1, and otherwise
stays; a reference that the agent drops frees it and LOSTDEC counts once (R42, R301). The result area holds the status word and then the eight fields,
each word set full, or the status word alone (R294). The model's choices in it: log 12. -/
def Obligations.TulleHome : Prop :=
  (∀ (s : State) (t : TReq) (pre post : List TReq), s.treqs = pre ++ t :: post → (∀ v ∈ pre, v.id ≠ t.id) →
    let u := s.unarrive t
    let sl := u.slice t.home
    let word (seq ncopy : Nat) (taken : Bool) (status : Nat) : Nat :=
      seq * 2 ^ 32 + min ncopy 255 * 2 ^ 24 + (if taken then 2 ^ 16 else 0) + t.home % 256 * 2 ^ 8 + status
    let dep : Instr := .tulleDepositProcess t.id
    let find : Instr := .tulleMatchProcess t.id
    let hit (v : Tup) : Bool := t.same v.ctx v.slot v.job v.handle && tulleMatch t.words v.f
    (t.kind ≠ .dep ∨ s.tulleNext t = false → exec dep s = .next s) ∧ (t.kind = .dep ∨ s.tulleNext t = false → exec find s = .next s) ∧
    (t.kind = .dep → s.tulleNext t = true →
      let v := u.putSlice t.home { sl with seq := sl.seq + 1 }
      let r := v.satisfy t sl.seq.toNat sl.parked 0
      let h := r.1.slice t.home
      let mine := h.tuples.filter (fun w => t.same w.ctx w.slot w.job w.handle)
      let full := t.cap ≤ mine.length ∨ 4096 ≤ h.tuples.length
      let tup : Tup := { ctx := t.ctx, slot := t.slot, job := t.job, handle := t.handle, seq := sl.seq, f := t.words.take 8 }
      (r.2.2 = true → exec dep s = .next (r.1.answer t none (word sl.seq.toNat r.2.1 true 0))) ∧
      (r.2.2 = false → full → exec dep s = .next (r.1.answer t none (word sl.seq.toNat r.2.1 false 3))) ∧
      (r.2.2 = false → ¬full → exec dep s =
        .next ((r.1.putSlice t.home { h with tuples := h.tuples ++ [tup] }).answer t none (word sl.seq.toNat r.2.1 false 0)))) ∧
    (t.kind ≠ .dep → s.tulleNext t = true →
      (∀ v, sl.tuples.find? hit = some v → exec find s =
        .next ((if t.kind = .take then u.putSlice t.home { sl with tuples := sl.tuples.erase v } else u).answer t (some v.f) (word v.seq.toNat 0 false 0))) ∧
      (sl.tuples.find? hit = none → t.nowait = true → ∃ n, n < 2 ^ 32 ∧ exec find s = .next (u.answer t none (word n 0 false 1))) ∧
      (sl.tuples.find? hit = none → t.nowait = false → 256 ≤ sl.parked.length →
        ∃ n, n < 2 ^ 32 ∧ exec find s = .next (u.answer t none (word n 0 false 2))) ∧
      (sl.tuples.find? hit = none → t.nowait = false → sl.parked.length < 256 → exec find s =
        .next (((u.putSlice t.home { sl with parked := sl.parked ++ [t.id] }).modReq t.id (fun t => { t with state := 1 })).tellOrg t none none))) ∧
    (∀ c, t.cancel = some c → t.state = 1 → s.answerHeld t = false →
      (∀ w ∈ s.treqs, w.key = t.key → w.home = t.home → w.id < c → w.state ≠ 0 ∧ w.state ≠ 2) →
      ∃ n, n < 2 ^ 32 ∧ exec (.tulleCancelProcess t.id) s = .next (s.answer t none (word n 0 false 4))) ∧
    (s.cancelNext t = false → exec (.tulleCancelProcess t.id) s = .next s) ∧
    (t.withdraw = true → t.state = 1 → t.cancel = none →
      let h := s.slice t.home
      let leave : Instr := .tulleWithdrawal t.id
      let v := s.putSlice t.home { h with parked := h.parked.filter (fun i => i != t.id) }
      (t.org = none → (∀ x, s.stream t.key = some x → x.stopped = false) → exec leave s = .next (v.dropReqs [t.id])) ∧
      (∀ x, t.org = none → s.stream t.key = some x → x.stopped = true →
        exec leave s = .next (v.modReq t.id (fun t => { t with state := 4, withdraw := false, cancel := none }))) ∧
      (t.org.isSome = true → exec leave s = .next ((v.tellOrg t none (some (2 ^ 64))).dropReqs [t.id]))) ∧
    (¬(t.withdraw = true ∧ t.state = 1 ∧ t.cancel = none) → exec (.tulleWithdrawal t.id) s = .next s) ∧
    -- the layout of a result area
    (∀ k n status f, s.Canon → s.savedOf t.key = none → t.place = [(k, n)] → k % 4 = 0 → (f = none ∧ 8 ≤ n ∨ n = 72 ∧ ∃ l, f = some l ∧ l.length = 8) →
      let v := s.answer t f status
      let size := if f = none then 8 else 72
      (∀ i, i < 8 → v.mem.spad.get (k + i) = BitVec.ofNat 8 (status / 2 ^ (8 * i))) ∧
      (∀ l j i, f = some l → j < 8 → i < 8 → v.mem.spad.get (k + 8 + 8 * j + i) = BitVec.ofNat 8 ((wordAt l j).toNat / 2 ^ (8 * i))) ∧
      (∀ i, i < size / 4 → v.mem.fe.get (k / 4 + i) = 1) ∧
      (∀ a, a < k ∨ k + size ≤ a → v.mem.spad.get a = s.mem.spad.get a) ∧ (∀ a, a < k / 4 ∨ k / 4 + size / 4 ≤ a → v.mem.fe.get a = s.mem.fe.get a) ∧
      v.treqs = s.treqs.filter (fun q => q.id != t.id)) ∧
    -- which tuples match, and which parked requests a deposit satisfies
    (∀ f, tulleMatch t.words f = true ↔ wbits t.words 0 63 45 = wbits f 0 63 45 ∧ ∀ i, 1 ≤ i → i ≤ 7 →
      wbits t.words 1 (2 * i - 1) (2 * i - 2) = 0 ∨ (wbits t.words 1 (2 * i - 1) (2 * i - 2) = 1 ∧ wordAt f i = wordAt t.words (i + 1)) ∨
      (wbits t.words 1 (2 * i - 1) (2 * i - 2) = 2 ∧ wordAt f i &&& wordAt t.words (i + 8) = wordAt t.words (i + 1) &&& wordAt t.words (i + 8))) ∧
    (∀ seq n, s.satisfy t seq [] n = (s, n, false)) ∧
    (∀ seq n i rest, s.treqs.find? (fun q => q.id == i) = none → s.satisfy t seq (i :: rest) n = s.satisfy t seq rest n) ∧
    (∀ seq n i rest q, s.treqs.find? (fun q => q.id == i) = some q →
      let same := q.same t.ctx t.slot t.job t.handle = true ∧ tulleMatch q.words t.words = true
      let v := s.answer q (some t.words) (seq * 2 ^ 32 + q.home % 256 * 2 ^ 8)
      (¬same → s.satisfy t seq (i :: rest) n = s.satisfy t seq rest n) ∧ (same → q.kind = .take → s.satisfy t seq (i :: rest) n = (v, n, true)) ∧
      (same → q.kind ≠ .take → s.satisfy t seq (i :: rest) n = v.satisfy t seq rest (n + 1)))) ∧
  (∀ (s : State) (slot gran : Nat) (w : WGran), (s.rank slot).waiting.find? (fun w => w.core * 16 + w.gran == gran) = some w →
    let r := s.rank slot
    let i : Instr := .detachedGranuleDelivery slot gran
    let pends := ∃ t ∈ s.treqs, t.detach = true ∧ t.inGran w.core w.gran = true
    let v := s.putRank slot { r with waiting := r.waiting.filter (fun v => v != w) }
    let d := v.sendDec deadKey w.dest 1
    let o : Op := { id := d.nextId, key := deadKey, ctx := r.ctx, slot := slot, core := w.core, task := w.giver,
                    kind := .gran w.core w.gran w.giver w.dest, moved := d.nextId }
    (pends → exec i s = .next s) ∧ (¬pends → v.refDrop w.dest = true → exec i s = .next (v.lost r.ctx)) ∧
    (¬pends → v.refDrop w.dest = false → exec i s = .next { d with nextId := d.nextId + 1, ops := d.ops ++ [o] }))

/-- A message that reaches the port of its rank's module arrives at its row: it is refused by a rank without a VALID row (0x10), from another peer
(0x11), of another size (0x12), completes the posted receive of its sequence number (its bytes in the buffer, then its status word and its decrement),
or joins the list; HELD_ARRIVAL_RETRY tries every held arrival again; the sender takes the answer once, counts ACKSEQ, writes its status word, zero
bytes for a refusal, and its send is gone; a rank whose channel handling has stopped handles none of them (R303, R305, R306). The model's choices in
it: log 32, 33. -/
def Obligations.ChannelTraffic : Prop :=
  ∀ (s : State) (p : Pkt) (slot : Nat) (src ch : Nat) (seq : Word32) (bytes : List Byte) (op : Nat) (w : Row), s.pkt p.id = some p →
    let i : Instr := .channelArrival p.id
    let behind := ∃ o, s.ops.find? (fun o => o.id == op) = some o ∧ s.relBehind o = true
    let r := s.rank slot
    (∀ n code, p.kind = .ack ch seq n code op →
      let ack : Instr := .sendAcceptance p.id
      let v := (s.dropPkt p.id).modRow slot ch (fun w => { w with ackseq := w.ackseq + 1 })
      (s.slotOfRank p.ctx p.job p.rank = none → exec ack s = .next s) ∧
      (s.slotOfRank p.ctx p.job p.rank = some slot → r.chanStop = true → exec ack s = .next s) ∧
      (s.slotOfRank p.ctx p.job p.rank = some slot → r.chanStop = false → v.ops.find? (fun o => o.id == op) = none → exec ack s = .next v) ∧
      (∀ o q a stat, s.slotOfRank p.ctx p.job p.rank = some slot → r.chanStop = false →
        v.ops.find? (fun o => o.id == op) = some o → o.kind = .send ch q a stat →
        let word := seq.toNat * 2 ^ 32 + (if code = 0 then n else 0) * 2 ^ 8 + code
        (stat = none → exec ack s = .next (v.dropOp op)) ∧
        (∀ a, stat = some a → inWindow a = true → (v.relAll (2 * (o.core % 512)) 7).fillHeld o.key a 8 = false →
          exec ack s = .next (((v.relAll (2 * (o.core % 512)) 7).complete o.key a (leBytes word 8)).dropOp op)) ∧
        (∀ u, v.chanStatus o.key o.core slot o.tag o.wid stat word = some u → exec ack s = .next (u.dropOp op)) ∧
        (v.chanStatus o.key o.core slot o.tag o.wid stat word = none → exec ack s = .next s))) ∧
    exec (.heldArrivalRetry slot) s = .next ((s.front.pkts.filter (fun p => p.full && s.deliverP p == some slot)).foldl (fun s p => s.arrive p slot) s) ∧
    (p.kind = .msg src ch seq bytes op →
      (p.held = true ∨ p.full = true ∨ behind ∨ s.heldBefore p = true → exec i s = .next s) ∧
      (p.held = false → p.full = false → ¬behind → s.heldBefore p = false → s.deliverP p = none → exec i s = .next s) ∧
      (p.held = false → p.full = false → ¬behind → s.heldBefore p = false → s.deliverP p = some slot → exec i s = .next (s.arrive p slot)) ∧
      (r.chanStop = true → s.arrive p slot = s) ∧
      (r.chanStop = false →
        let refuse (code : Nat) : State := (s.dropPkt p.id).post p.ctx p.job src (.ack ch seq 0 code op)
        let take (u : State) : State := (u.dropPkt p.id).post p.ctx p.job src (.ack ch seq bytes.length 0 op)
        let v (q : Post) : State := s.modRow slot ch (fun w => { w with posted := w.posted.filter (fun v => v != q) })
        let fits := r.row ch = some w ∧ w.peer = src ∧ w.bytes = bytes.length
        (r.rows.find ch = none ∨ (r.rows.find ch = some w ∧ w.valid = false) → s.arrive p slot = refuse 0x10) ∧
        (r.row ch = some w → w.peer ≠ src → s.arrive p slot = refuse 0x11) ∧
        (r.row ch = some w → w.peer = src → w.bytes ≠ bytes.length → s.arrive p slot = refuse 0x12) ∧
        (∀ q, fits → w.posted.find? (fun q => q.seq == seq) = some q →
          (∀ u, (v q).receive slot q bytes = some u → s.arrive p slot = take u) ∧ ((v q).receive slot q bytes = none → s.arrive p slot = s) ∧
          (inWindow q.buf = true → (v q).fillHeld q.key q.buf bytes.length = false → q.stat = none →
            (v q).receive slot q bytes = some (match q.tref with
              | some t => ((v q).complete q.key q.buf bytes).sendDec q.key t 1
              | none => (v q).complete q.key q.buf bytes))) ∧
        (∀ u, fits → w.posted.find? (fun q => q.seq == seq) = none → s.listAppend slot ch seq bytes = .ok (true, u) → s.arrive p slot = take u) ∧
        (∀ c t, fits → w.posted.find? (fun q => q.seq == seq) = none → s.listAppend slot ch seq bytes = .error (.stop c t) →
          let z := match t.frame with | some (f, va) => s.contain slot va f | none => s
          let r := z.rank slot
          s.arrive p slot = (z.putRank slot { r with chanStop := true }).cevent 4 t.cause.toNat r.ctx (unitWord r.homedie 4 r.homedie) 0 r.vrank.toNat)))

/-- A collective: each rank contributes once, unless a release keeps it behind or the engine has no room for its node, and a packet's nodes join; a
switch's late forward only marks the packet; a rank whose contribution stands completes with the collective's failure, at once for another rank's
reduce, or by writing the result to DST and, when every rank has it there, with the status word and then the decrement for OK; a DST that faults fails
the collective for every rank. A full armed bucket fires: it disarms, its scale is written at STAT + 8, before its status word in time, and its
collective, which reads SRC after every write it counted, forks; another changes nothing. Every node that a module forms is Node(k, i) of R308 over
its leaves, and a root the narrowed Node(log2 P, 0); Combine is the sum, the greater or the lesser of its format, with its flags (R308-R315). The
model's choices in it: log 12, 34, 55. -/
def Obligations.Collectives : Prop :=
  ∀ (s : State) (o : Op) (d : CollD) (p : Pkt) (slot n : Nat) (cid : Word32) (c : Coll) (k : Bucket) (st : Nat) (a b : Word32),
    let r := s.rank slot
    let i : Instr := .collectiveContribution n
    let done : Instr := .collectiveComplete slot cid
    let fire : Instr := .bucketFire slot n
    let mineAt := s.ops.find? (fun o => o.slot == slot && (match o.kind with | .coll d => d.cid == cid | _ => false)) = some o ∧
      s.coll r.ctx r.job cid = some c ∧ o.kind = .coll d
    let late (p : Pkt) : Pkt := match p.kind with
      | .node d v fl _ => { p with kind := .node d v fl true }
      | _ => p
    let free (stat : Option Nat) (key off : Nat) := ∀ q, stat = some q → s.fillHeld key (q + off) 8 = false
    let standing := mineAt ∧ c.parts.find? (fun e => e.1 == slot) = some (slot, st) ∧ free d.stat o.key 0
    let other := d.kind = 1 ∧ r.vrank.toNat ≠ d.root
    let fl : Flags := (Config.freeWord s.tick).setWidth 7
    let w : AWrite := { core := o.core, slot := slot, by_ := o.key, tag := o.tag, wid := o.wid }
    (s.ops.find? (fun o => o.id == n) = some o → o.kind = .coll d →
      (o.moved ≠ 0 ∨ s.relBehind o = true ∨ s.collRoom o.ctx (s.rank o.slot).job d o.piece = false → exec i s = .next s) ∧
      (o.moved = 0 → s.relBehind o = false → s.collRoom o.ctx (s.rank o.slot).job d o.piece = true → exec i s = .next (s.contribute o d))) ∧
    (s.ops.find? (fun o => o.id == n) = none → s.pkt n = some p →
      let room := ∀ e v fl b, p.kind = .node e v fl b → s.collRoom p.ctx p.job e v.piece = true
      (p.held = false → s.heldBefore p = false → (s.deliverP p).isSome = true → room → exec i s = .next (s.collPacket p)) ∧
      (p.held = true ∨ s.heldBefore p = true ∨ s.deliverP p = none ∨ ¬room → exec i s = .next s)) ∧
    exec (.switchLateForward n) s = .next { s with front := { s.front with pkts := s.front.pkts.map (fun p => if p.id = n then late p else p) } } ∧
    (mineAt → c.parts.find? (fun e => e.1 == slot) = none → exec done s = .next s) ∧
    (mineAt → ¬free d.stat o.key 0 → exec done s = .next s) ∧
    (standing → other → exec done s = .next (s.endColl o d 0 st)) ∧
    (standing → ¬other → c.status ≠ 0 → exec done s = .next (s.endColl o d fl c.status)) ∧
    (standing → ¬other → c.status = 0 →
      (o.piece ≠ 0 → c.final = true → exec done s = .next (s.endColl o d c.flags 0)) ∧
      (o.piece ≠ 0 → c.final = false → exec done s = .next s) ∧
      (o.piece = 0 → c.result = none → exec done s = .next s) ∧
      (∀ l, o.piece = 0 → c.result = some l →
        (∀ u, s.agentWrite w d.dst (d.bytes l) = (u, none) →
          exec done s = .next ((u.modOp o.id (fun o => { o with piece := 1 })).noteWritten c 1)) ∧
        (∀ u, s.agentWrite w d.dst (d.bytes l) = (u, some .wait) → exec done s = .next s) ∧
        (∀ u code t, s.agentWrite w d.dst (d.bytes l) = (u, some (.stop code t)) →
          exec done s = .next ((u.failColl c code).endColl { o with trap := some t } d fl code)))) ∧
    (r.buckets.find n = none ∨ (r.buckets.find n = some k ∧ (k.full = false ∨ ¬free k.d.stat k.key 8)) → exec fire s = .next s) ∧
    (r.buckets.find n = some k → k.full = true → free k.d.stat k.key 8 →
      let v := s.putRank slot { r with buckets := r.buckets.del n }
      let w := match k.d.stat with
        | some a => v.complete k.key (a + 8) (leBytes k.scale.toNat 8)
        | none => v
      let core := if k.key < 1024 then k.key / 2 else 512 + (w.rank slot).homedie * 128
      let o : Op := { id := w.nextId, key := k.key, ctx := r.ctx, slot := slot, core := core, task := k.task, kind := .coll { k.d with fresh := true },
                      tag := k.tag, wid := k.wid }
      exec fire s = .next { w with nextId := w.nextId + 1, ops := w.ops ++ [o] }) ∧
    (d.fmt = 2 → d.op = 0 → d.combine a b = (a + b, 0)) ∧ (d.fmt = 2 → d.op = 1 → d.combine a b = (if a.slt b then b else a, 0)) ∧
    (d.fmt = 2 → d.op = 2 → d.combine a b = (if b.slt a then b else a, 0)) ∧
    (let x := fp32.value a.toNat
     let y := fp32.value b.toNat
     let sum := narrow (.fp fp32) (exAdd .rne x y).1 .rne false
     d.fmt ≠ 2 →
      (d.op = 0 → d.combine a b = (BitVec.ofNat 32 sum.1, (exAdd .rne x y).2 ||| sum.2)) ∧
      (d.op ≠ 0 → x.isNan = true ∨ y.isNan = true → d.combine a b = (0x7FC00000, flIf (x.isSig || y.isSig) flNV ||| flNF)) ∧
      (d.op = 1 → x.isNan = false → y.isNan = false → ∃ z, (z = a ∨ z = b) ∧ 0 ≤ exCmpZ (fp32.value z.toNat) x ∧ 0 ≤ exCmpZ (fp32.value z.toNat) y ∧
        d.combine a b = (z, flIf (!(fp32.value z.toNat).isFin) flNF)) ∧
      (d.op = 2 → x.isNan = false → y.isNan = false → ∃ z, (z = a ∨ z = b) ∧ exCmpZ (fp32.value z.toNat) x ≤ 0 ∧ exCmpZ (fp32.value z.toNat) y ≤ 0 ∧
        d.combine a b = (z, flIf (!(fp32.value z.toNat).isFin) flNF))) ∧
    -- the tree over the group
    (s.front.colls = [] → ∀ q, s.collRoom o.ctx (s.rank o.slot).job d q = true) ∧
    (∀ (count : Nat) (l : List Byte) j, j < count → (d.leaf count l).getD j 0 =
      BitVec.ofNat 32 (if d.fmt = 1 then leNat ((l.drop (2 * j)).take 2) * 2 ^ 16 else leNat ((l.drop (4 * j)).take 4))) ∧
    (∀ (leaf : Nat → Nat → List Word32) (t : State) (e : Coll), s.nodeStep c = some (t, e) →
      (∀ v ∈ c.nodes, c.d.tree (leaf v.piece) v.level v.index = some v.vals) →
      e.d = c.d ∧ (∀ v ∈ e.nodes, c.d.tree (leaf v.piece) v.level v.index = some v.vals) ∧
      (∀ q l, e.roots.find q = some l → c.roots.find q = some l ∨
        ∃ h v, c.d.group ≤ 2 ^ h ∧ c.d.tree (leaf q) h 0 = some v ∧ l = (c.d.final v).1) ∧
      (e.result ≠ c.result → c.d.pieces ≤ e.roots.length ∧ e.result = some (e.roots.map (fun r => r.2)).flatten) ∧
      (∀ j, c.flags.getLsbD j = true → e.flags.getLsbD j = true)) ∧
    (∀ l, d.fmt = 1 → d.kind ≠ 2 → (d.final l).1 = l.map (fun v => BitVec.ofNat 32 (narrow (.fp bf16) (fp32.value v.toNat) .rne false).1)) ∧
    (∀ l, d.fmt ≠ 1 → d.final l = (l, 0))

/-- A privileged command is served only while main power is on; one that is not signed, whose SEQ does not exceed the last accepted one's, or with a
reserved bit is answered BADCMD (1) and changes nothing else. A code that its path does not serve is answered BADCMD too, on the privileged path one
of management, on a management bus one outside 0x10 to 0x14 (R374, R375). Records of the privileged path: a write that breaks a limit or sets a
reserved bit is REFUSED (6) and changes nothing but the accepted SEQ; any other write takes its fields and leaves the read-only ones, and a read
answers the record's words; a record that does not exist is REFUSED (R36, R53, R198, R290, R302, R316, R326, R337, R348). The model's choices in it:
log 16, 22. -/
def Obligations.PrivilegedRecords : Prop :=
  (∀ (s : State) (c : Cmd) (a b : Nat) (w : List Word64) (u v x y : Word64) (g : BitVec 24) (unit : FUnit) (code : Byte),
    let all : List Instr :=
      [.writeRankRecord c a w, .writeSchedulingRecord c a w, .writeJobRecord c a w, .writeChannelRow c a b w, .writeTulleRegion c a b u,
       .writeStreamRegister c a b w, .writeDebugComparator c a b u, .readRankRecord c a, .readSchedulingRecord c a, .readJobRecord c a,
       .readChannelRow c a b, .readTulleRegion c a b, .readStreamRegister c a b, .readDebugComparator c a b, .shootdown c u v, .evictRank c a,
       .recallRank c a, .migrationOrder c u v x, .versionBump c a g, .installContextKeys c a w, .installRank c u, .removeRank c u,
       .createContext c u v x y, .destroyContext c u, .readAndClearCounter c u, .readSaveAreaDescriptor c, .unknownCommand c ⟨false, code⟩,
       .queuePairBind c a b, .poisonFilterRemove c a b, .fenceUnit c unit, .abortLaunch c a b code.toNat]
    ∀ i ∈ all,
      (s.mgmt.power ≠ .on → exec i s = .next s) ∧
      (s.mgmt.power = .on → c.signed = false ∨ c.rsv ≠ 0 ∨ (s.mgmt.anySeq = true ∧ c.seq.toNat ≤ s.mgmt.lastSeq.toNat) → s.Answers i c s 1) ∧
      (s.accepts c → code = 0 ∨ 0x10 ≤ code.toNat → s.Answers (.unknownCommand c ⟨false, code⟩) c s 1) ∧
      (s.accepts c → 1 ≤ code.toNat → code.toNat ≤ 0x0F → exec (.unknownCommand c ⟨false, code⟩) s = .next (s.taken c)) ∧
      (let served := s.mgmt.power = .standby ∨ s.mgmt.power = .on
       let known := 0x10 ≤ code.toNat ∧ code.toNat ≤ 0x14
       (served → ¬known → s.Answers (.unknownCommand c ⟨true, code⟩) c s 1) ∧ (¬served ∨ known → exec (.unknownCommand c ⟨true, code⟩) s = .next s))) ∧
  (∀ (s : State) (c : Cmd) (a n : Nat) (w : List Word64) (u : Word64), s.accepts c →
    let t := s.taken c
    let r := s.rank a
    let x := s.ctxAt a
    let e := s.front.ctxs.has a
    let no (i : Instr) : Prop := s.Answers i c t 6
    let yes (i : Instr) (v : State) : Prop := s.Answers i c v 0
    let gives (ok : Prop) (i : Instr) (d : List Word64) : Prop := (ok → s.Answers i c t 0 d) ∧ (¬ok → no i)
    let rank := a < 1088 ∧ r.state = .free ∧ wbits w 0 51 48 = 0 ∧ wbits w 1 63 52 = 0 ∧ wordAt w 7 = 0 ∧ wbits w 1 51 0 % 8192 = 0 ∧
      (wordAt w 2).toNat % 64 = 0 ∧ (wordAt w 3).toNat % 64 = 0 ∧ (wordAt w 2).toNat ≤ (wordAt w 3).toNat
    let sched := e = true ∧ wbits w 1 63 45 = 0 ∧ wbits w 1 31 12 = 0 ∧ wbits w 3 31 5 = 0 ∧ wbits w 5 62 48 = 0 ∧ wbits w 5 31 16 = 0 ∧
      wbits w 6 63 52 = 0 ∧ 1 ≤ wbits w 1 44 32 ∧ wbits w 1 44 32 ≤ 4096 ∧ (wordAt w 2).toNat % 32 = 0 ∧ 4 ≤ wbits w 3 4 0 ∧ wbits w 3 4 0 ≤ 16 ∧
      1 ≤ wbits w 5 15 0 ∧ wbits w 5 15 0 ≤ 8192 ∧ wbits w 6 51 0 % 4096 = 0
    let old := s.front.jobs.at a {}
    let job : Word32 := (wordAt w 0).extractLsb' 32 32
    let jctx := wbits w 0 31 26
    let jobOk := a < 64 ∧ s.jobInH old.ctx old.job = false ∧ s.jobInH jctx job = false ∧ wbits w 0 25 17 = 0 ∧ wbits w 1 29 28 = 0 ∧
      wbits w 1 18 0 = 0 ∧ wbits w 2 63 52 = 0 ∧ wbits w 3 63 52 = 0 ∧ wbits w 3 31 17 = 0 ∧ 1 ≤ wbits w 0 16 0 ∧ wbits w 0 16 0 ≤ 65536 ∧
      wbits w 2 51 0 % 4096 = 0
    let valid : Prop := wbits w 0 63 63 = 1
    let ranks := match s.jobOf r.ctx r.job with | some (_, j) => j.v | none => 0
    let row := a < 1088 ∧ n < 256 ∧ (r.state = .free ∨ r.state = .arriving) ∧ wbits w 0 59 56 = 0 ∧ wbits w 0 15 7 = 0 ∧ wbits w 2 31 0 = 0 ∧
      wordAt w 3 = 0 ∧ (valid → wbits w 0 55 32 % 4 = 0 ∧ 4 ≤ wbits w 0 55 32 ∧ wbits w 0 55 32 ≤ 65536 ∧ 1 ≤ wbits w 0 6 0 ∧ wbits w 0 6 0 ≤ 64 ∧
        wbits w 0 31 16 < ranks)
    let tulle := e = true ∧ n < 1024 ∧ wbits [u] 0 60 32 = 0 ∧ (wbits [u] 0 63 63 = 1 → wbits [u] 0 31 0 ≠ 0)
    let strm := a < 1088 ∧ n < 64 ∧ wbits w 2 62 32 = 0
    let dbg := e = true ∧ n < 4 ∧ wbits [u] 0 60 56 = 0 ∧ wbits [u] 0 1 0 = 0
    (¬rank → no (.writeRankRecord c a w)) ∧
    (rank → yes (.writeRankRecord c a w) (t.putRank a { r with
      written := true, ctx := wbits w 0 59 54, homedie := wbits w 0 53 52, vrank := (wordAt w 0).extractLsb' 32 16, job := (wordAt w 0).setWidth 32,
      ptroot := wbits w 1 51 0, stkbase := wordAt w 2, stklim := wordAt w 3, stkptr := wordAt w 4, ovfhead := wordAt w 5 })) ∧
    gives (a < 1088) (.readRankRecord c a) r.words ∧
    (¬sched → no (.writeSchedulingRecord c a w)) ∧
    (sched → ∃ v : State, v = (t.modCtx a (fun d => { d with
        qweight := wordAt w 0, dpb := (wordAt w 1).extractLsb' 32 13, quantum := (wordAt w 1).setWidth 12, cqbase := wordAt w 2,
        cqrkey := (wordAt w 3).extractLsb' 32 32, cqlog := (wordAt w 3).setWidth 5, lostdec := d.lostdec &&& ~~~(wordAt w 4),
        dbgen := (wordAt w 5).getLsbD 63, csaslots := (wordAt w 5).extractLsb' 32 16, drainlim := (wordAt w 5).setWidth 16,
        csapool := (wordAt w 6).setWidth 52 })) ∧
      yes (.writeSchedulingRecord c a w) (((List.range 8).foldl (fun (v : State) q => v.wake t a q) v).evalHeads a)) ∧
    gives (e = true) (.readSchedulingRecord c a)
      [x.qweight, (0#19 ++ x.dpb ++ 0#20 ++ x.quantum), x.cqbase, (x.cqrkey ++ 0#27 ++ x.cqlog), x.lostdec,
       (BitVec.ofBool x.dbgen ++ 0#15 ++ x.csaslots ++ 0#16 ++ x.drainlim), (0#12 ++ x.csapool)] ∧
    (¬jobOk → no (.writeJobRecord c a w)) ∧
    (jobOk →
      let j : Job := {
        job := job, ctx := jctx, v := wbits w 0 16 0, next := (wordAt w 1).extractLsb' 32 32,
        state := old.state, cmten := (wordAt w 1).getLsbD 27, cmtev := (wordAt w 1).extractLsb' 19 8,
        mapbase := wbits w 2 51 0, coord := (wordAt w 3).extractLsb' 32 20, caught := old.caught }
      let kept (p : Pkt) : Bool := !((p.held || p.full) && ((p.ctx == old.ctx && p.job == old.job) || (p.ctx == jctx && p.job == job)))
      yes (.writeJobRecord c a w) { t with front := { t.front with
        jobs := t.front.jobs.put a j, colls := t.front.colls.filter (fun k => !(k.ctx == jctx && k.job == job)),
        pkts := t.front.pkts.filter kept } }) ∧
    gives (a < 64) (.readJobRecord c a)
      [(old.job ++ BitVec.ofNat 6 old.ctx ++ 0#9 ++ BitVec.ofNat 17 old.v),
       (old.next ++ BitVec.ofNat 2 old.state.code ++ 0#2 ++ BitVec.ofBool old.cmten ++ old.cmtev ++ 0#19), BitVec.ofNat 64 old.mapbase,
       (0#12 ++ old.coord ++ 0#15 ++ BitVec.ofNat 17 old.caught)] ∧
    (¬row → no (.writeChannelRow c a n w)) ∧
    (row →
      let q := r.rows.at n {}
      let q : Row := { q with
        valid := decide valid, fmt := (wordAt w 0).extractLsb' 60 3, bytes := wbits w 0 55 32, peer := wbits w 0 31 16, depth := wbits w 0 6 0 }
      yes (.writeChannelRow c a n w) (t.putRank a { r with rows := r.rows.put n q })) ∧
    (let q := r.rows.at n {}
     gives (a < 1088 ∧ n < 256) (.readChannelRow c a n)
       [BitVec.ofNat 64 ((if q.valid then 2 ^ 63 else 0) + q.fmt.toNat * 2 ^ 60 + q.bytes * 2 ^ 32 + q.peer * 2 ^ 16 + q.depth),
        q.sseq ++ q.rseq, q.ackseq ++ 0#32, 0]) ∧
    (¬tulle → no (.writeTulleRegion c a n u)) ∧
    (tulle → yes (.writeTulleRegion c a n u) (t.modCtx a (fun d => { d with tulle := d.tulle.set n u }))) ∧
    gives (e = true ∧ n < 1024) (.readTulleRegion c a n) [x.tulle.get n] ∧
    (¬strm → no (.writeStreamRegister c a n w)) ∧
    (strm →
      let regs := ((r.calico.set (3 * n) (wordAt w 0)).set (3 * n + 1) (wordAt w 1)).set (3 * n + 2) (wordAt w 2)
      yes (.writeStreamRegister c a n w) (t.putRank a { r with calico := regs })) ∧
    gives (a < 1088 ∧ n < 64) (.readStreamRegister c a n) [r.calico.get (3 * n), r.calico.get (3 * n + 1), r.calico.get (3 * n + 2)] ∧
    (¬dbg → no (.writeDebugComparator c a n u)) ∧
    (dbg → yes (.writeDebugComparator c a n u) (t.modCtx a (fun d => { d with dbg := d.dbg.set n u }))) ∧
    gives (e = true ∧ n < 4) (.readDebugComparator c a n) [x.dbg.get n])

/-- Installing a rank needs a record that CMD 0x01 has written and every check of R376, and shoots its slot down; removing one gives back its frames
or its image and leaves its record, rows and stream registers but for STATE, which is FREE; a context is created with reset values, virtual times and
versions 0 and its ranks' stream handles cleared, and destroyed when no slot uses it; a counter is answered and cleared at once; the save-area
descriptor answers CSASIZE, the header template and the 19 pairs of R333; a key blob that unwraps and a queue pair, on a port with a link, bind to a
context that exists; a frame leaves the poison filter (R14, R55, R56, R69, R333, R334, R373, R376, R378, R379, R381). The model's choices in it: log
8, 25, 35, 53, 64. -/
def Obligations.ContextsAndRanks : Prop :=
  ∀ (s : State) (c : Cmd) (a b : Nat) (m1 m2 m3 m4 : Word64) (blob : List Word64), s.accepts c →
    let t := s.taken c
    let bits (v : Word64) (hi lo : Nat) := wbits [v] 0 hi lo
    let slot := bits m1 10 0
    let r := s.rank slot
    let k := bits m1 5 0
    let has := s.front.ctxs.has k
    let bad := bits m1 63 11 ≠ 0
    let base := r.stkbase.toNat
    let ptr := r.stkptr.toNat
    let may := slot < 1088 ∧ r.state = .free ∧ (s.front.ranks.filter (fun e => e.2.state.isH)).length < 64 ∧ (∃ e, s.jobOf r.ctx r.job = some e ∧ r.vrank.toNat < e.2.v) ∧
      s.front.ctxs.has r.ctx = true ∧ r.ptroot % 8192 = 0 ∧ base % 64 = 0 ∧ r.stklim.toNat % 64 = 0 ∧ base ≤ ptr ∧ ptr ≤ r.stklim.toNat ∧
      (ptr - base) % 272 = 0 ∧ r.written = true ∧ ∀ e ∈ s.front.ranks, e.1 ≠ slot → e.2.state ≠ .free → ¬(e.2.job = r.job ∧ e.2.vrank = r.vrank)
    let idle := (r.state = .active ∨ r.state = .cold) ∧ s.named slot = false ∧ r.waiting = [] ∧ ∀ m ∈ s.front.migrs, m.slot ≠ slot
    let there (a n : Nat) := n = 0 ∨ hbmExists a = true ∧ hbmExists (a + n - 1) = true
    (bad → s.Answers (.installRank c m1) c s 1 ∧ s.Answers (.removeRank c m1) c s 1) ∧
    (¬bad → ¬may → s.Answers (.installRank c m1) c t 6) ∧
    (¬bad → may → ∃ v : State,
      v = (((t.shoot slot 0 0).putRank slot { r with state := .active }).modCtx r.ctx (fun x => { x with up := true })) ∧
      s.Answers (.installRank c m1) c (v.wakeAll t) 0) ∧
    (¬bad → ¬idle → s.Answers (.removeRank c m1) c t 2) ∧
    (¬bad → idle → ∃ v : State, s.Answers (.removeRank c m1) c (v.reportCaught r.ctx r.job) 0 ∧ (∀ i, i ≠ slot → v.rank i = s.rank i) ∧
      (let q := v.rank slot
       q.state = .free ∧ q.ctx = r.ctx ∧ q.homedie = r.homedie ∧ q.vrank = r.vrank ∧ q.job = r.job ∧ q.ptroot = r.ptroot ∧ q.stkbase = r.stkbase ∧
         q.stklim = r.stklim ∧ q.stkptr = r.stkptr ∧ q.ovfhead = r.ovfhead ∧ q.image = r.image ∧ q.calico = r.calico ∧
         ∀ n, let a := q.rows.at n {}; let b := r.rows.at n {}
           a.valid = b.valid ∧ a.fmt = b.fmt ∧ a.bytes = b.bytes ∧ a.peer = b.peer ∧ a.depth = b.depth ∧ a.sseq = b.sseq ∧ a.rseq = b.rseq ∧ a.ackseq = b.ackseq) ∧
      (∀ g ∈ v.front.images, g.slot ≠ slot) ∧ (∀ g ∈ s.front.images, g.slot ≠ slot → g ∈ v.front.images) ∧
      (r.state = .active → s.front.ctxs.has r.ctx = true → (v.ctxAt r.ctx).pool = (s.ctxAt r.ctx).pool ++ (s.rankFrames slot).filter (fun f => !(s.ctxAt r.ctx).pool.contains f)) ∧
      (r.state = .cold → v.ctxAt r.ctx = s.ctxAt r.ctx) ∧ v.streams = s.streams ∧ v.ops = s.ops) ∧
    (bits m1 63 63 = 0 ∨ bits m1 62 6 ≠ 0 ∨ bits m4 63 32 ≠ 0 → s.Answers (.createContext c m1 m2 m3 m4) c s 1) ∧
    (bits m1 63 63 = 1 → bits m1 62 6 = 0 → bits m4 63 32 = 0 →
      (has = true → s.Answers (.createContext c m1 m2 m3 m4) c t 2) ∧
      (has = false → m2.toNat % 4096 ≠ 0 → s.Answers (.createContext c m1 m2 m3 m4) c t 6) ∧
      (has = false → m2.toNat % 4096 = 0 → ∃ (v : State) (x : Ctx), s.Answers (.createContext c m1 m2 m3 m4) c v 0 ∧
        v.front.ctxs = t.front.ctxs.put k x ∧ v.streams = s.streams ∧
        (let clear (q : Rank) : Rank := if q.ctx = k then { q with calico := [] } else q
         (there m2.toNat (2 ^ 26) → there m3.toNat (8 * bits m4 31 0) → ∀ i, v.rank i = clear (s.rank i)) ∧
         (∀ i, (v.rank i).ctx = k → (v.rank i).calico = [])) ∧
        (there m2.toNat (2 ^ 26) → there m3.toNat (8 * bits m4 31 0) →
          v = { t with front := { t.front with ctxs := t.front.ctxs.put k x, ranks := v.front.ranks }, mem := { t.mem with hbm := t.mem.hbm.zero m2.toNat (2 ^ 26) } }) ∧
        x = { verbase := m2.toNat, poolbase := m3.toNat, pooln := bits m4 31 0, pool := s.poolList m3.toNat (bits m4 31 0) } ∧
        x.dpb = 4096 ∧ x.quantum = 0 ∧ x.qweight = 0 ∧ x.ev = 0 ∧ (∀ q, x.vt.at q 0 = 0) ∧ (∀ n, x.vers.get n = 0) ∧ (∀ h, x.tulle.get h = 0))) ∧
    (bits m1 63 63 = 1 ∨ bits m1 62 6 ≠ 0 → s.Answers (.destroyContext c m1) c s 1) ∧
    (bits m1 63 63 = 0 → bits m1 62 6 = 0 →
      let used := has = true ∧ ∃ e ∈ s.front.ranks, e.2.state ≠ .free ∧ e.2.ctx = k
      (used → s.Answers (.destroyContext c m1) c t 2) ∧
      (¬used → s.Answers (.destroyContext c m1) c { t with front := { t.front with ctxs := t.front.ctxs.del k } } 0)) ∧
    (let x := s.ctxAt k
     let i : Instr := .readAndClearCounter c m1
     (bits m1 63 16 ≠ 0 ∨ bits m1 7 6 ≠ 0 → s.Answers i c s 1) ∧
     (bits m1 63 16 = 0 → bits m1 7 6 = 0 →
       (has = false ∨ bits m1 15 8 = 0 ∨ 4 ≤ bits m1 15 8 → s.Answers i c t 6) ∧
       (has = true → bits m1 15 8 = 1 → s.Answers i c (t.putCtx k { x with heatdrop := 0 }) 0 [x.heatdrop]) ∧
       (has = true → bits m1 15 8 = 2 → s.Answers i c (t.putCtx k { x with heatspill := 0 }) 0 [x.heatspill]) ∧
       (has = true → bits m1 15 8 = 3 → s.Answers i c (t.putCtx k { x with lostdec := 0 }) 0 [x.lostdec]))) ∧
    (∃ w : List Word64, s.Answers (.readSaveAreaDescriptor c) c t 0 w ∧ w.length = 28 ∧ (wordAt w 0).setWidth 32 = BitVec.ofNat 32 Config.csasize ∧
      (wordAt w 0).extractLsb' 32 32 = 0x00010040 ∧ (wordAt w 1).setWidth 32 = 0x56415344 ∧
      (∀ n, n < 19 → ((wordAt w (8 + n)).extractLsb' 32 32).toNat = (saveLayout.getD n (0, 0)).1 ∧
        ((wordAt w (9 + n)).setWidth 32).toNat = (saveLayout.getD n (0, 0)).2)) ∧
    (s.front.ctxs.has a = false → s.Answers (.installContextKeys c a blob) c t 6) ∧
    (Config.unwrapKeys blob a = none → s.Answers (.installContextKeys c a blob) c t 6) ∧
    (∀ pair, s.front.ctxs.has a = true → Config.unwrapKeys blob a = some pair →
      s.Answers (.installContextKeys c a blob) c (t.modCtx a (fun d => { d with keys := some pair })) 0) ∧
    (¬(s.front.ctxs.has a = true ∧ b < 8) → s.Answers (.queuePairBind c a b) c t 6) ∧
    (s.front.ctxs.has a = true → b < 8 → ∃ v : State, s.Answers (.queuePairBind c a b) c v 0 ∧ v.bound a b = true ∧
      (∀ j, j ≠ b → v.bound a j = s.bound a j) ∧ (s.mgmt.eth ≠ [] → ∃ e ∈ s.mgmt.eth, (v.ctxAt a).qpPort.find b = some e.1) ∧
      ∀ n, n ≠ a → v.ctxAt n = s.ctxAt n) ∧
    (∃ v : State, s.Answers (.poisonFilterRemove c a b) c v 0 ∧
      v.mem = { s.mem with poison := s.mem.poison.filter (fun f => !(f == b && paDie (f * 4096) == a)) })

/-- Power-on boots the hub image that the fused firmware key signs and whose version is not below the rollback counter, or enters recovery; main power
locks the clocks at 800 MHz, zeroes the memories and writes the scope tables; the attestation report holds the nonce, the image's digest and the boot
state; ports train and fail, and a link that goes down puts its queue pairs in error; the thermal report and the power window move THERMTRIP and the
clock by 25 MHz between 400 and 800; PLIMIT lies between 1,500 and 4,400 W; weigh, resume and reset; the scan port of a weighed module gives its eight
segments in order, each with its number and length, and 4 and 6 as zeros without debug readout. Each does nothing in a power state that does not serve
it (R263, R339-R341, R371-R373, R375, R377-R379). The model's choices in it: log 8, 18, 19, 25, 53, 58. -/
def Obligations.PowerAndPorts : Prop :=
  ∀ (s : State) (f : FwImage) (key sig : List Byte) (port gen die watts : Nat) (node : BitVec 20) (rate : Option Nat) (celsius : Int) (l4 l5 l6 : Byte)
    (nonce : List Word64),
    let g := s.mgmt
    let does (i : Instr) (m : Mgmt) : Prop := exec i s = .next { s with mgmt := m }
    let tells (i : Instr) (m : Mgmt) (status : Nat) (d : List Word64) : Prop :=
      exec i s = .next { s with mgmt := m, outs := { s.outs with resp := s.outs.resp ++ [(0, BitVec.ofNat 8 status, d)] } }
    let stays (i : Instr) : Prop := exec i s = .next s
    let signed := Config.shake256 key = g.fwKey ∧
      Config.ed448Verify key (Config.shake256 (f.code ++ leBytes f.version 8 ++ f.hvKey ++ [if f.debug then 1 else 0])) sig = true
    (g.power ≠ .off → stays (.standbyPowerOn f key sig)) ∧
    (g.power = .off → signed → g.rollback ≤ f.version → does (.standbyPowerOn f key sig) { g with
      power := .standby, fwver := f.version, dbgReadout := f.debug, hvKey := f.hvKey,
      fwHash := Config.shake256 (f.code ++ leBytes f.version 8 ++ f.hvKey ++ [if f.debug then 1 else 0]) }) ∧
    (g.power = .off → ¬signed ∨ f.version < g.rollback → does (.standbyPowerOn f key sig) { g with power := .recovery }) ∧
    (g.power ≠ .standby → stays (.mainPowerOn l4 l5 l6)) ∧
    (g.power = .standby → ∃ t : State, exec (.mainPowerOn l4 l5 l6) s = .next t ∧ t.mgmt = { g with power := .on, clock := 800 } ∧ t.mem = {} ∧
      (∀ a, t.mem.hbm.get a = 0) ∧ (∀ k, t.mem.spad.get k = 0) ∧ t.front = s.front ∧ t.outs = s.outs ∧
      (4 ≤ l4.toNat → l4.toNat ≤ l5.toNat → l5.toNat ≤ l6.toNat → l6.toNat ≤ 0xFE → ∀ k, k < 512 →
        (t.coreOf k).scope = 0xFF#8 ++ l6 ++ l5 ++ l4 ++ 0x03020100#32)) ∧
    (g.power = .off ∨ g.power = .recovery → stays (.attestationRequest nonce)) ∧
    (g.power = .standby ∨ g.power = .on → ∃ w : List Word64, tells (.attestationRequest nonce) { g with attested := true } 0 w ∧ w.length = 39 ∧
      (∀ k, k < 8 → wordAt w k = wordAt nonce k) ∧ wordAt w 16 = Config.packBoot g.rollback g.dbgReadout ∧
      ∀ k, k < 8 → wordAt w (8 + k) = BitVec.ofNat 64 (leNat ((List.range 8).map (fun i => g.fwHash.getD (8 * k + i) 0)))) ∧
    (g.power = .on → port < 24 → gen = 2 ∨ gen = 3 → does (.finserLinkTraining port gen node) { g with links := g.links.put port gen, node := node }) ∧
    (g.power ≠ .on ∨ 24 ≤ port ∨ (gen ≠ 2 ∧ gen ≠ 3) → stays (.finserLinkTraining port gen node)) ∧
    (g.power = .on → port < 4 → ∃ t : State, exec (.ethernetLinkChange port none) s = .next t ∧ t.mgmt = { g with eth := g.eth.del port } ∧
      t.mem = s.mem ∧ t.streams = s.streams ∧ t.cur = s.cur ∧ t.outs = s.outs ∧
      (∀ k q, t.bound k q = true ↔ s.bound k q = true ∧ (s.ctxAt k).qpPort.find q ≠ some port) ∧
      ∀ k, (t.ctxAt k).queues = (s.ctxAt k).queues ∧ (t.ctxAt k).ev = (s.ctxAt k).ev) ∧
    (∀ r, g.power = .on → port < 4 → r = 800 ∨ r = 400 ∨ r = 200 → does (.ethernetLinkChange port (some r)) { g with eth := g.eth.put port r }) ∧
    (∀ r, r ≠ 800 → r ≠ 400 → r ≠ 200 → stays (.ethernetLinkChange port (some r))) ∧
    (g.power ≠ .on ∨ 4 ≤ port → stays (.ethernetLinkChange port rate)) ∧
    (g.power ≠ .on → stays (.thermalReport die celsius) ∧ stays (.powerWindow watts)) ∧
    (g.power = .on → celsius < 115 → does (.thermalReport die celsius) { g with temps := g.temps.put die celsius }) ∧
    (g.power = .on → 115 ≤ celsius →
      does (.thermalReport die celsius) { g with temps := g.temps.put die celsius, thermtrip := true, weighed := true }) ∧
    (g.power = .on → (g.plimit < watts ∨ ∃ e ∈ g.temps, 105 ≤ e.2) → does (.powerWindow watts) { g with clock := max 400 (g.clock - 25) }) ∧
    (g.power = .on → watts ≤ g.plimit → (∀ e ∈ g.temps, e.2 < 105) → does (.powerWindow watts) { g with clock := min 800 (g.clock + 25) }) ∧
    (g.power = .off ∨ g.power = .recovery → stays (.setPlimit watts)) ∧
    (g.power = .standby ∨ g.power = .on → 1500 ≤ watts → watts ≤ 4400 → tells (.setPlimit watts) { g with plimit := watts } 0 []) ∧
    (g.power = .standby ∨ g.power = .on → watts < 1500 ∨ 4400 < watts → tells (.setPlimit watts) g 6 []) ∧
    (g.power = .off → stays .readTelemetry) ∧
    (g.power ≠ .off → ∃ d : Word64, tells .readTelemetry g 0 [if g.power = .recovery then 1 else 0, d]) ∧
    (g.power = .on → tells .weigh { g with weighed := true } 0 []) ∧ (g.power = .standby → tells .weigh g 6 []) ∧
    (g.power = .off ∨ g.power = .recovery → stays .weigh) ∧
    (g.weighed = false → stays .scanReadout ∧ stays .weighResume) ∧
    (g.weighed = true →
      let shown (w : List Word64) := if g.dbgReadout then w else w.map (fun _ => 0)
      let seg (n : Nat) (w : List Word64) : List Word64 := BitVec.ofNat 64 (n * 2 ^ 48 + 8 * w.length) :: w
      let segs := seg 1 s.scanModule ++ seg 2 s.scanFront ++ seg 3 s.scanAgents ++ seg 4 (shown s.scanCores) ++ seg 5 s.scanCrews ++
        seg 6 (shown s.scanSlices) ++ seg 7 s.scanEngines ++ seg 8 s.scanHub
      exec .scanReadout s = .next { s with outs := { s.outs with scan := s.outs.scan ++ segs } }) ∧
    (g.weighed = true → g.thermtrip = true → (∃ e ∈ g.temps, 95 ≤ e.2) → tells .weighResume g 6 []) ∧
    (g.weighed = true → g.thermtrip = false ∨ (∀ e ∈ g.temps, e.2 < 95) → tells .weighResume { g with weighed := false, thermtrip := false } 0 []) ∧
    (∃ t : State, exec .moduleReset s = .next t ∧ t.mgmt = { State.reset.mgmt with rollback := g.rollback, fwKey := g.fwKey } ∧ t.front = State.reset.front ∧
      t.mem = State.reset.mem ∧ t.cur = State.reset.cur ∧ t.core = State.reset.core ∧ t.streams = [] ∧ t.cores = [] ∧ t.crews = [] ∧ t.slices = [] ∧
      t.ops = [] ∧ t.treqs = [] ∧ t.curLive = false ∧
      t.outs = if g.power = .off then s.outs else { s.outs with resp := s.outs.resp ++ [(0, 0, [])] })

/-- Evict and recall orders, and the tier engine: an eviction starts only where R15 permits and no more than four operations run; it ends with the
image in LP6, the frames back in the pool and the rank COLD; a recall due while 64 ranks hold pages first evicts the permitted rank longest without a
launch, then starts, and ends with the rank in frames of the pool, ACTIVE, the slot shot down, its record otherwise as it was. R15 permits an ACTIVE
rank of a job whose step is committed, or that has begun none, while no step launch of NEXT names it; one with a migration order stays (R11, R15, R54,
R55, R73, R350-R353, R355). The model's choices in it: log 9, 12, 58, 59, 65. -/
def Obligations.TierMoves : Prop :=
  ∀ (s : State) (c : Cmd) (slot : Nat),
    let r := s.rank slot
    let t := s.taken c
    let stays (i : Instr) : Prop := exec i s = .next s
    let may (k : Nat) := (s.rank k).state = .active ∧ (∀ m ∈ s.front.migrs, m.slot ≠ k) ∧
      ∀ e, s.jobOf (s.rank k).ctx (s.rank k).job = some e → e.2.state = .committed ∧
        ∀ q ∈ (s.ctxAt (s.rank k).ctx).queues, ∀ l ∈ q.2, ¬(l.done = false ∧ l.sl = true ∧ l.step = e.2.next ∧ l.job = (s.rank k).job ∧
          l.first ≤ (s.rank k).vrank.toNat ∧ (s.rank k).vrank.toNat ≤ l.last)
    let cold := (s.front.ranks.filter (fun e => e.2.state == .cold || e.2.state == .evicting || e.2.evictDue)).length
    let busy := 4 ≤ s.front.tiers.length
    let full := 64 ≤ (s.front.ranks.filter (fun e => e.2.state.isH)).length
    (s.accepts c →
      (¬may slot ∨ 1024 ≤ cold ∨ t.lp6Full slot = true → s.Answers (.evictRank c slot) c t 2) ∧
      (may slot → cold < 1024 → t.lp6Full slot = false → r.waiting ≠ [] → s.Answers (.evictRank c slot) c t 3) ∧
      (may slot → cold < 1024 → t.lp6Full slot = false → r.waiting = [] → s.Answers (.evictRank c slot) c (t.putRank slot { r with evictDue := true }) 0) ∧
      (r.state = .cold ∨ r.state = .evicting → s.Answers (.recallRank c slot) c (t.putRank slot { r with recallDue := true }) 0) ∧
      (r.state ≠ .cold → r.state ≠ .evicting → s.Answers (.recallRank c slot) c t 0)) ∧
    (r.evictDue = false → stays (.evictionStart slot)) ∧
    (r.evictDue = true → ¬may slot ∨ r.waiting ≠ [] → exec (.evictionStart slot) s = .next (s.putRank slot { r with evictDue := false })) ∧
    (r.evictDue = true → may slot → r.waiting = [] → busy → stays (.evictionStart slot)) ∧
    (r.evictDue = true → may slot → r.waiting = [] → s.lp6Place (s.imageSize slot) = none → stays (.evictionStart slot)) ∧
    (∀ base, r.evictDue = true → may slot → r.waiting = [] → ¬busy → s.lp6Place (s.imageSize slot) = some base → ∃ u : State,
      exec (.evictionStart slot) s = .next u ∧ base + s.imageSize slot ≤ 2 ^ 41 ∧
      u.rank slot = { r with evictDue := false, state := .evicting } ∧ (∀ k, k ≠ slot → u.rank k = s.rank k) ∧
      u.front.tiers = s.front.tiers ++ [{ slot := slot, base := base, size := s.imageSize slot }] ∧ u.front.ctxs = s.front.ctxs ∧ u.streams = s.streams ∧ u.ops = s.ops) ∧
    (r.state ≠ .evicting → stays (.evictionComplete slot)) ∧
    (∀ at7, r.state = .evicting → s.front.tiers.find? (fun t => t.slot == slot) = some at7 → ∃ u : State, exec (.evictionComplete slot) s = .next (u.reportCaught r.ctx r.job) ∧
      u.rank slot = { r with state := .cold, image := BitVec.ofNat 64 at7.base } ∧ (∀ k, k ≠ slot → u.rank k = s.rank k) ∧
      u.front.images = s.front.images ++ [{ s.image slot with base := at7.base, size := at7.size }] ∧ (∀ v ∈ u.front.tiers, v.slot ≠ slot) ∧ u.mem = s.mem ∧ u.streams = s.streams ∧
      (s.front.ctxs.has r.ctx = true →
        ∀ f, f ∈ (u.ctxAt r.ctx).pool ↔ f ∈ (s.ctxAt r.ctx).pool ∨ f ∈ s.rankFrames slot)) ∧
    (r.recallDue = false ∨ r.state ≠ .cold ∨ busy → stays (.recallStart slot)) ∧
    (r.recallDue = true → r.state = .cold → ¬busy → ¬full → ∃ u : State, exec (.recallStart slot) s = .next u ∧
      u = { s with front := { s.front with
        ranks := s.front.ranks.put slot { r with state := .recalling, recallDue := false },
        tiers := s.front.tiers ++ [{ slot := slot, isRecall := true }] } }) ∧
    (r.recallDue = true → r.state = .cold → ¬busy → full →
      let making := ∃ e ∈ s.front.ranks, e.2.evictDue = true ∨ e.2.state = .evicting
      (making ∨ 1024 ≤ cold ∨ s.victim = none → stays (.recallStart slot)) ∧
      (∀ v, s.victim = some v → s.lp6Full v = true → stays (.recallStart slot)) ∧
      (∀ v, ¬making → cold < 1024 → s.victim = some v → s.lp6Full v = false →
        exec (.recallStart slot) s = .next (s.putRank v { s.rank v with evictDue := true }))) ∧
    (∀ v, s.victim = some v → ∃ q, (v, q) ∈ s.front.ranks ∧ s.mayEvict v = true ∧ q.waiting = [] ∧
      ∀ e ∈ s.front.ranks, s.mayEvict e.1 = true → e.2.waiting = [] → q.lastLaunch ≤ e.2.lastLaunch) ∧
    (r.state ≠ .recalling ∨ (∀ g ∈ s.front.images, g.slot ≠ slot) → stays (.recallComplete slot)) ∧
    (∀ g, r.state = .recalling → s.front.images.find? (fun g => g.slot == slot) = some g →
      let bad := g.lost s.tick
      let h := (s.readImage r.ctx g).poison bad
      (s.placeImage r.ctx h = none → stays (.recallComplete slot)) ∧
      (∀ root v, s.placeImage r.ctx h = some (root, v) → ∃ u : State, exec (.recallComplete slot) s = .next u ∧ (bad = [] → u.outs = v.outs) ∧
        u.rank slot = { r with state := .active, ptroot := root } ∧ (∀ k, k ≠ slot → u.rank k = s.rank k) ∧ u.mem = v.mem ∧
        (∀ h ∈ u.front.images, h.slot ≠ slot) ∧ (∀ h ∈ u.front.tiers, h.slot ≠ slot) ∧
        (∀ k, ∀ e ∈ (u.coreOf k).tlb, e.slot ≠ slot) ∧ (∀ k, ∀ e ∈ (u.crews.at k {}).tlb, e.slot ≠ slot)))

/-- A walk fills the TLBs of the core and its crew with the leaf, and a walk that faults fills nothing. A shootdown that breaks a limit is BADCMD;
another removes every TLB entry of the slot that overlaps the range and is acknowledged only when no access translated before waits, the range is shot
again and pinned lines of it are given up. An HBM error poisons the frame of the access under way, or else of the page, sets PSN in the leaf, shoots
the page down and tells the stream of a store of part of the line, which is not performed, with the store's address. A bump refuses BUFWRAP, stalls
the buffer's pages and completes with every line of them zero under the new version; where no stack holds the version's place, its frame is contained
(R62, R63, R65, R66, R69, R72, R232, R235, R383). The model's choices in it: log 5, 26, 60. -/
def Obligations.TranslationAndBumps : Prop :=
  ∀ (s : State) (c : Cmd) (core slot ctx : Nat) (va s0 s1 : Word64) (buf : BitVec 24) (key : Option Nat) (kind : BitVec 4),
    let stays (i : Instr) : Prop := exec i s = .next s
    let t := s.taken c
    let found := (tlbFind (s.coreOf core).tlb slot va.toNat).orElse (fun _ => tlbFind (s.crews.at (core / 8) {}).tlb slot va.toNat)
    let fills (u : State) (e : Tlb) := tlbFind (u.coreOf core).tlb slot va.toNat = some e ∧ u.mem = s.mem ∧ u.front = s.front ∧ u.streams = s.streams ∧
      u.cur = s.cur ∧ ∀ k, k ≠ core → (u.coreOf k).tlb = (s.coreOf k).tlb
    (∀ f, found = none → s.walk slot va.toNat .load = .error f → stays (.pageWalk core slot va)) ∧
    (∀ e a, found = none → s.walk slot va.toNat .load = .ok (e, a) → ∃ u : State, exec (.pageWalk core slot va) s = .next u ∧ fills u e ∧
      tlbFind (u.crews.at (core / 8) {}).tlb slot va.toNat = some e) ∧
    ((tlbFind (s.coreOf core).tlb slot va.toNat).isSome = true → stays (.pageWalk core slot va)) ∧
    (∀ e, tlbFind (s.coreOf core).tlb slot va.toNat = none → tlbFind (s.crews.at (core / 8) {}).tlb slot va.toNat = some e →
      ∃ u : State, exec (.pageWalk core slot va) s = .next u ∧ fills u e) ∧
    (s.accepts c →
      let all := wbits [s0] 0 63 63 = 1
      let base := wbits [s0] 0 55 0
      let sl := wbits [s1] 0 42 32
      let n := wbits [s1] 0 31 0
      let len := if all then 0 else 4096 * n
      let bad := wbits [s0] 0 62 56 ≠ 0 ∨ wbits [s1] 0 63 43 ≠ 0 ∨ 1087 < sl ∨ (¬all ∧ (base % 4096 ≠ 0 ∨ n = 0))
      (bad → s.Answers (.shootdown c s0 s1) c s 1) ∧
      (¬bad → ∃ u : State, exec (.shootdown c s0 s1) s = .next u ∧ u.outs = s.outs ∧ u.mem = s.mem ∧
        u.front = { s.front with shoots := s.front.shoots ++ [{ id := s.nextId, slot := sl, va := base, len := len, seq := c.seq }] } ∧
        (∀ k e, e ∈ (u.coreOf k).tlb ↔ e ∈ (s.coreOf k).tlb ∧
          ¬(e.slot = sl ∧ (all ∨ (e.vbase < base + len ∧ base < e.vbase + e.size)))))) ∧
    (∀ (h : Shoot) (pre post : List Shoot), s.front.shoots = pre ++ h :: post → (∀ g ∈ pre, g.id ≠ h.id) →
      let in7 (slot va n : Nat) := slot = h.slot ∧ (h.len = 0 ∨ (h.va < va + n ∧ va < h.va + h.len))
      let waits := (∃ w ∈ s.mem.wq, in7 w.slot w.va w.bytes.length) ∨
        ∃ e ∈ s.allStreams, ∃ p ∈ e.2.pend, ∃ r q, p.rd = some r ∧ q ∈ r.parts ∧ q.win = none ∧ in7 e.2.slot q.va q.n
      (waits → stays (.shootdownAck h.id)) ∧
      (¬waits → ∃ u : State, exec (.shootdownAck h.id) s = .next u ∧ u.outs.resp = s.outs.resp ++ [(h.seq, 0, [])] ∧
        u.front.shoots = s.front.shoots.filter (fun g => g.id != h.id) ∧ (∀ k, ∀ e ∈ (u.coreOf k).tlb, e.hit h.slot h.va h.len = false) ∧
        ((∀ k, ((s.coreOf k).pins.map (fun e => e.1)).Pairwise (· < ·)) →
          ∀ k, k < 512 → ∀ p ∈ (u.coreOf k).pins, ¬in7 p.2.slot p.2.va 128) ∧
        (∀ p ∈ u.mem.pins, ¬in7 p.2.1 p.2.2 128) ∧ u.streams = s.streams ∧ u.front.ranks = s.front.ranks)) ∧
    (∀ id, (∀ h ∈ s.front.shoots, h.id ≠ id) → stays (.shootdownAck id)) ∧
    (let i : Instr := .hbmUncorrectableError key slot va kind
     let told := key.bind (fun k => s.failing k va.toNat kind)
     let covers (a n : Nat) : Prop := a ≤ va.toNat ∧ va.toNat < a + n
     let quiet := ∀ w ∈ s.mem.wq, ¬(w.slot = slot ∧ covers w.va w.bytes.length)
     (key = none ∨ kind ≠ 2 → told = none) ∧
     (told = none → s.errorPa key slot va.toNat = none → stays i) ∧
     (∀ pa, told = none → s.errorPa key slot va.toNat = some pa → exec i s = .next (s.contain slot va.toNat (pa / 4096))) ∧
     (∀ e a, key = none → quiet → s.walk slot va.toNat .load = .ok (e, a) → s.errorPa key slot va.toNat = some (e.phys va.toNat)) ∧
     (∀ f, key = none → quiet → s.walk slot va.toNat .load = .error f → (∀ k ∈ s.allCores, tlbFind k.2.tlb slot va.toNat = none) →
       (∀ k ∈ s.crews, tlbFind k.2.tlb slot va.toNat = none) → s.errorPa key slot va.toNat = none) ∧
     (∀ w, key = none → s.mem.wq.find? (fun w => w.slot == slot && decide (w.va ≤ va.toNat) && decide (va.toNat < w.va + w.bytes.length)) = some w →
       s.errorPa key slot va.toNat = some (w.pa + (va.toNat - w.va))) ∧
     (∀ k x p r q, key = some k → s.stream k = some x → x.pend = [p] → p.rd = some r → r.parts = [q] → q.win = none → covers q.va q.n →
       s.errorPa key slot va.toNat = some (q.pa + (va.toNat - q.va))) ∧
     (∀ k w, key = some k → kind = 2 →
       let pa := w.pa + (va.toNat - w.va)
       s.mem.wq.find? (fun w => w.key == k && decide (w.va ≤ va.toNat) && decide (va.toNat < w.va + w.bytes.length)
         && w.partOf ((w.pa + (va.toNat - w.va)) / 128)) = some w →
       w.pa / 128 = pa / 128 → (w.pa + w.bytes.length - 1) / 128 = pa / 128 →
       exec i s = .next (((s.contain slot va.toNat (pa / 4096)).dropWrite w.id).asyncTrap k
         { cause := 0x08, addr := BitVec.ofNat 64 w.addr, info := BitVec.ofNat 64 (0xF * 2 ^ 12 + 2 * 2 ^ 8 + 0x20) }))) ∧
    (s.accepts c →
      let x := s.ctxAt ctx
      let v := x.vers.get buf.toNat
      let i : Instr := .versionBump c ctx buf
      (s.front.ctxs.has ctx = false → s.Answers i c t 6) ∧
      (s.front.ctxs.has ctx = true → v = 0xFFFFFFFF → s.Answers i c t 5) ∧
      (s.front.ctxs.has ctx = true → v ≠ 0xFFFFFFFF → ∃ u : State, exec i s = .next u ∧ (u.ctxAt ctx).vers = x.vers.set buf.toNat (v + 1) ∧
        (u.ctxAt ctx).bumps = x.bumps ++ [buf.toNat] ∧
        (let d := (s.mem.wq.filter (fun w => w.ctx == ctx && w.buf == buf)).foldl (fun s w => s.force w.id) s
         let a := x.verbase + 4 * buf.toNat
         (hbmExists a = true → u.mem = { d.mem with hbm := d.mem.hbm.put a (leBytes (v.toNat + 1) 4) }) ∧
         (hbmExists a = false → u.mem.hbm = d.mem.hbm ∧ u.outs.cevents.length = d.outs.cevents.length + 1)) ∧
        u.front.bumpSeqs = s.front.bumpSeqs ++ [(ctx, buf.toNat, c.seq)] ∧ u.outs.resp = s.outs.resp)) ∧
    ((∀ e ∈ s.front.bumpSeqs, ¬(e.1 = ctx ∧ e.2.1 = buf.toNat)) → stays (.bumpComplete ctx buf)) ∧
    (∀ e, s.front.bumpSeqs.find? (fun e => e.1 == ctx && e.2.1 == buf.toNat) = some e →
      let moving := ∃ r ∈ s.front.ranks, r.2.ctx = ctx ∧ r.2.state ≠ .free ∧ r.2.state ≠ .active ∧ r.2.state ≠ .cold
      (moving → stays (.bumpComplete ctx buf)) ∧
      (¬moving → ∃ u : State, exec (.bumpComplete ctx buf) s = .next u ∧ u.outs.resp = s.outs.resp ++ [(e.2.2, 0, [])] ∧
        (s.front.ctxs.has ctx = true → (u.ctxAt ctx).bumps = (s.ctxAt ctx).bumps.erase buf.toNat) ∧ u.front.bumpSeqs = s.front.bumpSeqs.filter (fun q => q != e) ∧ u.front.ranks = s.front.ranks ∧
        ∀ r ∈ s.front.ranks, r.2.ctx = ctx → r.2.state = .active → ∀ l ∈ s.leaves r.1, l.buf = buf → ∀ k, k < l.size →
          (s.mem.hbm.wf = true → u.mem.hbm.get (l.pa + k) = 0) ∧
          u.mem.enc.find ((l.pa + k) / 128) =
            some { ctx := ctx, key := (s.ctxAt ctx).keys, buf := buf, ver := s.ver ctx buf }))

/-- A packet for a rank that cannot take it is held, and starts the recall of a rank in the boathouse; a held packet goes in its order to the rank
once it is ACTIVE here, or to the node the map has come to name. A migration order is checked in the order of R354, one for a slot with an order being
for a bad slot by the model's choice (log 58), deferred under R355, and else makes the rank DEPARTING; the rank is transferred under R356, and its
order answered MOVED, its frames free and its slot FREE, once every node has acknowledged the map update; a rank that arrives takes its free slot as
ARRIVING, within the limits of R14 and R55, and is then ACTIVE with its record, stack, rows and streams, or is lost with a containment event where its
die is fenced; MAPUPD writes the map's word, moves COORD, at a commit while a step runs, sends on the packets that wait here for the rank, and
acknowledges; the ranks that stay are reported when all of them are caught (R14, R54, R55, R74, R350, R354-R358, R382). The model's choices in it: log
5, 35, 37, 57, 58, 64. -/
def Obligations.PacketsAndMigration : Prop :=
  ∀ (s : State) (c : Cmd) (mo0 mo1 mo2 : Word64) (slot id rank node : Nat) (job : Word32) (coord : Option Nat),
    let stays (i : Instr) : Prop := exec i s = .next s
    let t := s.taken c
    (s.pkt id = none → stays (.packetHold id) ∧ stays (.heldPacketRelease id)) ∧
    (∀ p, s.pkt id = some p →
      let release : Instr := .heldPacketRelease id
      let msg := ∃ a b n l o, p.kind = .msg a b n l o
      let node7 := ∃ d v f l, p.kind = .node d v f l
      let coll := (∃ d v f st, p.kind = .result d v f st) ∨ (∃ d n, p.kind = .written d n) ∨ ∃ d, p.kind = .final d
      let tulle := (∃ q, p.kind = .tulle q) ∨ ∃ n q, p.kind = .tulleReq n q
      let map := s.mapNode p.ctx p.job p.rank
      let held := s.modPkt id (fun q => { q with held := true })
      let asleep (i : Nat) := s.slotOfRank p.ctx p.job p.rank = some i ∧ ((s.rank i).state = .cold ∨ (s.rank i).state = .evicting) ∧ (s.rank i).recallDue = false
      let waiting := (tulle ∨ msg ∨ node7 ∨ coll) ∧ s.deliverP p = none
      let first := s.heldBefore p = false ∧ (p.held = true ∨ p.full = true ∨ tulle)
      let moved := ∃ e, s.jobOf p.ctx p.job = some e ∧ (p.node = none ∨ p.rank ∈ e.2.updated)
      let gone := ∀ i, s.slotOfRank p.ctx p.job p.rank = some i → (s.rank i).state = .departing
      let onward (n : Nat) := map = some n ∧ n ≠ s.mgmt.node.toNat ∧ moved ∧ gone
      let free := ∀ i t, p.kind = .tulle i → s.treqs.find? (fun t => t.id == i) = some t → s.reqWaits t = false ∧ s.behindRel t.key t.id = false
      (¬waiting → stays (.packetHold id)) ∧
      (∀ i, waiting → asleep i → exec (.packetHold id) s = .next (held.putRank i { s.rank i with recallDue := true })) ∧
      (waiting → (∀ i, ¬asleep i) → exec (.packetHold id) s = .next held) ∧
      (s.heldBefore p = true ↔ ∃ pre q post, s.front.pkts = pre ++ q :: post ∧ q.id = id ∧ (∀ v ∈ pre, v.id ≠ id) ∧
        ∃ v ∈ pre, v.held = true ∧ v.ctx = p.ctx ∧ v.job = p.job ∧ v.rank = p.rank) ∧
      (¬first → stays release) ∧
      (∀ k, first → s.deliverP p = some k →
        (msg → exec release s = .next ((s.modPkt id (fun p => { p with held := false })).arrive p k)) ∧
        (∀ q, p.kind = .tulle q → exec release s =
          .next ((s.dropPkt id).modReq q (fun r =>
            if r.state = 3 then { r with state := 0, home := s.survivor (s.rank k).homedie (blockIndex r.kind r.keyed r.words) } else r))) ∧
        (∀ n q, p.kind = .tulleReq n q → exec release s = .next ((s.dropPkt id).takeRemote p n k q)) ∧
        (∀ d v f l, p.kind = .node d v f l →
          (s.collRoom p.ctx p.job d v.piece = true → exec release s = .next (s.collPacket p)) ∧
          (s.collRoom p.ctx p.job d v.piece = false → stays release)) ∧
        (coll → exec release s = .next (s.collPacket p))) ∧
      (∀ n, first → s.deliverP p = none → onward n →
        let q : Pkt := { p with held := false, full := false, node := some n }
        let goes (q : Pkt) (v : State) := exec release s = .next { v with outs := { v.outs with fabric := v.outs.fabric ++ [(n, q)] } }
        (msg ∨ node7 ∨ coll ∨ (∃ n r, p.kind = .tulleReq n r) → goes q (s.dropPkt id)) ∧
        (∀ i t, p.kind = .tulle i → s.treqs.find? (fun t => t.id == i) = some t → free →
          goes { q with kind := .tulleReq s.mgmt.node.toNat { t with slot := (s.rank t.slot).vrank.toNat } }
            ((s.dropPkt id).modReq t.id (fun t => { t with state := 5 })))) ∧
      (first → s.deliverP p = none → (∀ n, ¬onward n) ∨ ¬free → stays release)) ∧
    (s.accepts c →
      let sl := wbits [mo0] 0 42 32
      let ds := wbits [mo1] 0 10 0
      let dn : BitVec 20 := mo1.extractLsb' 32 20
      let jn : Word32 := mo0.setWidth 32
      let r := s.rank sl
      let i : Instr := .migrationOrder c mo0 mo1 mo2
      let ready := ∀ e, (s.jobOf r.ctx jn).orElse (fun _ => s.jobNo jn) = some e → e.2.state = .committed
      let badSlot := wbits [mo0] 0 63 43 ≠ 0 ∨ wbits [mo1] 0 63 52 ≠ 0 ∨ wbits [mo1] 0 31 11 ≠ 0 ∨ wbits [mo2] 0 63 32 ≠ 0 ∨ 1087 < sl ∨ 1087 < ds ∨
        r.state ≠ .active ∨ r.job ≠ jn ∨ s.destAnswer dn = 3 ∨ ∃ m ∈ s.front.migrs, m.slot = sl
      let frames := s.destAnswer dn ≠ 4
      let m : Migr := { slot := sl, dnode := dn, dslot := ds, waitus := wbits [mo2] 0 31 0, since := s.cycle.toNat, seq := c.seq,
                        phase := if s.migDeferred sl = true then 0 else 1 }
      (dn = s.mgmt.node → s.destAnswer dn = 3) ∧
      (¬ready → s.Answers i c t 2) ∧
      (ready → badSlot → s.Answers i c t 3) ∧
      (ready → ¬badSlot → ¬frames → s.Answers i c t 4) ∧
      (ready → ¬badSlot → frames → s.migDeferred sl = true → wbits [mo2] 0 31 0 = 0 → s.Answers i c t 1) ∧
      (ready → ¬badSlot → frames → s.migDeferred sl = false ∨ wbits [mo2] 0 31 0 ≠ 0 →
        let v : State := { t with front := { t.front with migrs := t.front.migrs ++ [m] } }
        exec i s = .next (if s.migDeferred sl = true then v else v.putRank sl { r with state := .departing }))) ∧
    (let past := (∃ m ∈ s.front.migrs, m.slot = slot ∧ m.phase = 0) ∧ s.migDeferred slot = false ∧ (s.rank slot).state = .active
     (¬past → stays (.deferralEnd slot)) ∧
     (past → ∃ u : State, exec (.deferralEnd slot) s = .next u ∧ u.rank slot = { s.rank slot with state := .departing } ∧
       (∀ i, i ≠ slot → u.rank i = s.rank i) ∧
       u.front.migrs = s.front.migrs.map (fun m => if m.slot = slot ∧ m.phase = 0 then { m with phase := 1 } else m) ∧ u.mem = s.mem)) ∧
    ((∀ m ∈ s.front.migrs, m.slot = slot → m.phase ≠ 0) → stays (.migrationWaitExpiry slot)) ∧
    (∀ m, s.front.migrs.find? (fun m => m.slot == slot && m.phase == 0) = some m →
      let late := m.since + m.waitus * s.mgmt.clock ≤ s.cycle.toNat
      (¬late → stays (.migrationWaitExpiry slot)) ∧
      (late → ∃ u : State, u.outs.resp = s.outs.resp ++ [(m.seq, 1, [])] ∧ u.front.migrs = s.front.migrs.filter (fun v => v.slot != slot) ∧
        u.front.ranks = s.front.ranks ∧ exec (.migrationWaitExpiry slot) s = .next (u.evalHeads (s.rank slot).ctx))) ∧
    ((∀ m ∈ s.front.migrs, m.slot = slot → m.phase ≠ 1) → (∀ a ∈ s.front.arrivals, a.dslot ≠ slot) → stays (.migrationTransfer slot)) ∧
    (∀ a, (∀ m ∈ s.front.migrs, m.slot = slot → m.phase ≠ 1) → s.front.arrivals.find? (fun a => a.dslot == slot) = some a →
      let i : Instr := .migrationTransfer slot
      let r := s.rank slot
      let begun := r.state = .arriving ∧ r.job = a.rank.job ∧ r.vrank = a.rank.vrank
      let may := r.state = .free ∧ (s.front.ranks.filter (fun e => e.2.state.isH)).length < 64 ∧
        (∀ e ∈ s.front.ranks, ¬(e.2.state ≠ .free ∧ e.2.job = a.rank.job ∧ e.2.vrank = a.rank.vrank)) ∧
        ∃ e, s.jobNo a.rank.job = some e ∧ a.rank.vrank.toNat < e.2.v
      let lost := s.mgmt.fdies.contains (pickDie s) = true
      (s.destCtx a.rank.job = none ∨ (¬begun ∧ ¬may) → stays i) ∧
      (∀ c, s.destCtx a.rank.job = some c → may → lost → ∃ u : State, exec i s = .next u ∧ (∀ v ∈ u.front.arrivals, v.dslot ≠ slot) ∧
        u.front.ranks = s.front.ranks ∧ u.mem = s.mem ∧ u.outs.cevents.length = s.outs.cevents.length + 1) ∧
      (∀ c, s.destCtx a.rank.job = some c → may → ¬lost → ∃ u : State, exec i s = .next u ∧
        u.rank slot = { state := .arriving, ctx := c, homedie := pickDie s, vrank := a.rank.vrank, job := a.rank.job } ∧
        (∀ i, i ≠ slot → u.rank i = s.rank i) ∧ u.front.arrivals = s.front.arrivals ∧ u.mem = s.mem ∧ u.outs = s.outs ∧
        (∀ k j, s.jobOf c a.rank.job = some (k, j) → ∃ q : Job, u.front.jobs = s.front.jobs.put k q ∧
          (a.rank.vrank = 0 → q.coord = s.mgmt.node) ∧ ((∀ i ∈ s.jobSlots c a.rank.job, (s.rank i).state.isH = false ∨ (s.rank i).state = .departing) → q.next = a.next ∧ q.state = .committed))) ∧
      (∀ c, s.destCtx a.rank.job = some c → begun →
        let g := { a.image with key := s.encNow c 0, enc := a.image.enc.map (fun e => (e.1, s.encNow c e.2.buf)) }
        (s.placeImage c g = none → stays i) ∧
        (∀ root v, s.placeImage c g = some (root, v) → ∃ u : State, exec i s = .next u ∧ (∀ v ∈ u.front.arrivals, v.dslot ≠ slot) ∧
          (∀ i, i ≠ slot → u.rank i = s.rank i) ∧ u.front.migrs = s.front.migrs ∧ u.mem = v.mem ∧
          (let q := u.rank slot
           let b := a.rank
           q.state = .active ∧ q.ctx = c ∧ q.homedie = r.homedie ∧ q.ptroot = root ∧ q.vrank = b.vrank ∧ q.job = b.job ∧ q.stkbase = b.stkbase ∧
             q.stklim = b.stklim ∧ q.stkptr = b.stkptr ∧ q.ovfhead = b.ovfhead ∧ q.calico = b.calico ∧ q.chanStop = b.chanStop ∧
             ∀ n, let x := q.rows.at n {}; let y := b.rows.at n {}
               x.valid = y.valid ∧ x.fmt = y.fmt ∧ x.bytes = y.bytes ∧ x.peer = y.peer ∧ x.depth = y.depth ∧ x.sseq = y.sseq ∧ x.rseq = y.rseq ∧
               x.ackseq = y.ackseq ∧ x.posted.map (fun p => (p.seq, p.buf, p.stat)) = y.posted.map (fun p => (p.seq, p.buf, p.stat)) ∧
               ∀ p ∈ x.posted, ∀ t, p.tref = some t → t.ctx = c ∧ t.slot = slot) ∧
          (∀ k, ∀ e ∈ (u.coreOf k).tlb, e.slot ≠ slot)))) ∧
    (∀ m, s.front.migrs.find? (fun m => m.slot == slot && m.phase == 1) = some m → s.jobOf (s.rank slot).ctx (s.rank slot).job = none →
      stays (.migrationTransfer slot)) ∧
    (∀ m, s.front.migrs.find? (fun m => m.slot == slot && m.phase == 1) = some m → (s.rank slot).state ≠ .departing → stays (.migrationTransfer slot)) ∧
    (∀ m k j, s.front.migrs.find? (fun m => m.slot == slot && m.phase == 1) = some m → s.jobOf (s.rank slot).ctx (s.rank slot).job = some (k, j) →
      (s.rank slot).state = .departing → (∀ i, i < j.v → hbmExists (j.mapbase + 4 * i) = true) →
      let w := s.unpinSlot slot
      ∃ u : State, exec (.migrationTransfer slot) s = .next u ∧ (∀ i, u.rank i = s.rank i) ∧ u.mem = w.mem ∧
        (∀ v ∈ u.front.migrs, v.slot = slot → v.phase = 2 ∧ ∀ n, n ∈ v.waits ↔ ∃ i, i < j.v ∧ w.mapNode j.ctx j.job i = some n) ∧
        (let v : Moving := { node := m.dnode.toNat, dslot := m.dslot, rank := s.rank slot, image := w.image slot, tups := w.rankTuples slot,
                             next := j.next, mkey := w.migKey m }
         (m.dnode ≠ s.mgmt.node → u.outs.moved = s.outs.moved ++ [v]) ∧
         (m.dnode = s.mgmt.node → u.outs.moved = s.outs.moved ∧ u.front.arrivals = s.front.arrivals ++ [v])) ∧
        (∀ n i, i < j.v → w.mapNode j.ctx j.job i = some n →
          ∃ p, (if n = s.mgmt.node.toNat then p ∈ u.front.pkts else (n, p) ∈ u.outs.fabric) ∧ p.kind =
            .mapupd (s.rank slot).vrank.toNat m.dnode.toNat (if (s.rank slot).vrank = 0 then some m.dnode.toNat else none))) ∧
    (s.jobNo job = none → stays (.mapupd job rank node coord)) ∧
    (∀ k j, s.jobNo job = some (k, j) → ∃ u : State, exec (.mapupd job rank node coord) s = .next u ∧
      (let a := j.mapbase + 4 * rank
       (hbmExists a = true → u.mem = { s.mem with hbm := s.mem.hbm.put a (leBytes (2 ^ 31 + node % 2 ^ 20) 4) }) ∧
       (hbmExists a = false → u.mem.hbm = s.mem.hbm ∧ u.outs.cevents.length = s.outs.cevents.length + 1)) ∧
      (let me := s.mgmt.node.toNat
       let named (j : Job) : Job := match coord with
         | some d => if j.state = .committed then { j with coord := BitVec.ofNat 20 d } else { j with coordNext := some (BitVec.ofNat 20 d) }
         | none => j
       let here (p : Pkt) : Prop := p.kind.toRank = true ∧ p.job = job ∧ p.rank = rank
       u.front.jobs = s.front.jobs.put k { named j with
         updated := j.updated.filter (fun v => v != rank) ++ (if node = me then [] else [rank]) } ∧
       u.front.ranks = s.front.ranks ∧
       u.front.migrs = s.front.migrs.map (fun m =>
         if m.phase = 2 ∧ (s.rank m.slot).job = job ∧ (s.rank m.slot).vrank.toNat = rank then { m with waits := m.waits.filter (fun n => n != me) } else m) ∧
       (∀ n, s.mapNode j.ctx job rank = some n → n ≠ me → ∃ p, (n, p) ∈ u.outs.fabric ∧ p.kind = .mapack me ∧ p.job = job ∧ p.rank = rank) ∧
       (node = me → u.front.pkts = s.front.pkts) ∧
       (node ≠ me → (s.front.pkts.map (fun p => p.id)).Nodup → (∀ p ∈ s.front.pkts, p.held = true → p.kind.toRank = true) →
         (∀ p ∈ s.front.pkts, here p → ∀ q, p.kind ≠ .tulle q) →
         (∀ p ∈ u.front.pkts, ¬here p) ∧
           ∀ p ∈ s.front.pkts, here p → (node, { p with held := false, full := false, node := some node }) ∈ u.outs.fabric))) ∧
    ((∀ m ∈ s.front.migrs, m.slot = slot → m.phase ≠ 2) → stays (.migrationComplete slot)) ∧
    (∀ m, s.front.migrs.find? (fun m => m.slot == slot && m.phase == 2) = some m →
      let r := s.rank slot
      (m.waits ≠ [] → stays (.migrationComplete slot)) ∧
      (m.waits = [] → ∃ u v : State, (∀ i, i ≠ slot → u.rank i = s.rank i) ∧
        (let q := u.rank slot
         q.state = .free ∧ q.ctx = r.ctx ∧ q.homedie = r.homedie ∧ q.vrank = r.vrank ∧ q.job = r.job ∧ q.ptroot = r.ptroot ∧ q.stkbase = r.stkbase ∧
           q.stklim = r.stklim ∧ q.stkptr = r.stkptr ∧ q.ovfhead = r.ovfhead ∧ q.calico = r.calico) ∧
        (s.front.ctxs.has r.ctx = true → ∀ f, f ∈ (u.ctxAt r.ctx).pool ↔ f ∈ (s.ctxAt r.ctx).pool ∨ f ∈ s.rankFrames slot) ∧
        u.front.migrs = s.front.migrs ∧ u.outs = s.outs ∧ v = u.reportCaught r.ctx r.job ∧ (v.endMigr m 0).outs.resp = s.outs.resp ++ [(m.seq, 0, [])] ∧
        exec (.migrationComplete slot) s = .next ((v.endMigr m 0).evalHeads r.ctx)))

/-- A request marks its stream, a full one above a light one, or is refused NOAREA without a free area. A drain point is what R116 lists; a native
stream stops at one, or at the next boundary DPB cycles after the request, a compatibility one at any boundary, after its results have landed and its
Tulle requests, but the detached ones, are withdrawn. DRAINLIM cycles later its running operations are cut. A stopped stream that waits for nothing is
saved into a free area and leaves its core; a bad header is refused with RESTORE; a restore loads the registers, the window, the tiles and the
granules that the save has written. The oldest asynchronous trap is delivered at a boundary outside a hold and handler mode (R110, R116, R321-R323,
R325-R331, R333, R335). The model's choices in it: log 14, 17, 20, 24. -/
def Obligations.Preemption : Prop :=
  ∀ (s : State) (key ctx area : Nat) (full : Bool),
    let stays (i : Instr) : Prop := exec i s = .next s
    let u := s.focus key
    let v := u.landAll
    let stop (d : Bool) (t : State) : Prop :=
      t.cur = { v.cur with
        stopped := true, atDrain := d, stopAt := v.cycle.toNat, bundle := none, waitCyc := 0, fixed := 0, flushing := false, mark := .none } ∧
      t.treqs = v.treqs.map (fun q => if q.key == u.curKey && q.kind != .dep && !q.detach then { q with withdraw := true } else q) ∧
      t.ops = v.ops.map (fun o => if v.cur.compat && o.key == u.curKey && o.queued && !o.started then { o with cut := true } else o) ∧
      t.mem = v.mem ∧ t.front = v.front ∧ t.core = v.core ∧ t.outs = v.outs
    let tiles (x : Stream) : Nat × Nat := if x.tiles4 then (if key % 2 = 1 then (4, 4) else (0, 4)) else (0, 8)
    let ready := u.curLive = true ∧ u.cur.pre ≠ 0 ∧ u.cur.stopped = false ∧ u.cur.ending = 0 ∧ u.cur.hold = none
    (u.atDrainPoint = true ↔ u.cur.land = [] ∧ u.cur.pend = [] ∧ u.cur.hold = none ∧ u.cur.winAgent ≠ 1 ∧ u.cur.winAgent ≠ 2 ∧
      (∀ c ∈ u.core.calls, c.key ≠ key) ∧ (∀ o ∈ u.ops, o.key = key → o.awaited = false) ∧ (∀ q ∈ u.treqs, q.key = key → q.parked = true) ∧
      ∃ w rest, u.fetchWord u.cur.pc.toNat = .word w rest ∧ isHeader w = true ∧ w.getLsbD 26 = true) ∧
    (∀ w, s.savedOf key = some w → full = false ∨ w.full = true → stays (.preemptionRequest key full)) ∧
    (∀ w, s.savedOf key = some w → w.full = false → exec (.preemptionRequest key true) s = .next (s.makeFull ((key - 1024) / 65536) w)) ∧
    (s.savedOf key = none → s.stream key = none → stays (.preemptionRequest key full)) ∧
    (∀ x, s.savedOf key = none → s.stream key = some x →
      let noArea := x.pre = 0 ∧ (s.ctxAt x.ctx).freeArea = none
      (noArea → exec (.preemptionRequest key full) s = .next (s.respond s.mgmt.lastSeq 4)) ∧
      (¬noArea → exec (.preemptionRequest key full) s = .next (s.putStream key
        { x with pre := if full = true ∨ x.pre = 2 then 2 else if 2 < x.pre then x.pre else 1,
                 preSince := if x.pre = 0 then s.cycle.toNat else x.preSince }))) ∧
    (¬ready → exec (.preemptionStop key) s = .next u ∧ exec (.dpbExpiry key) s = .next u) ∧
    (ready → u.atDrainPoint = false → u.cur.compat = false → exec (.preemptionStop key) s = .next u) ∧
    (ready → u.atDrainPoint = true ∨ u.cur.compat = true → ∃ t : State, exec (.preemptionStop key) s = .next t ∧ stop u.atDrainPoint t) ∧
    (ready → u.cur.compat = true ∨ u.cycle.toNat ≤ u.cur.preSince + u.cur.dpb.toNat → exec (.dpbExpiry key) s = .next u) ∧
    (ready → u.cur.compat = false → u.cur.preSince + u.cur.dpb.toNat < u.cycle.toNat →
      ∃ t : State, exec (.dpbExpiry key) s = .next t ∧ stop u.atDrainPoint t) ∧
    (s.stream key = none → stays (.drainlimExpiry key) ∧ stays (.contextSave key)) ∧
    (∀ x, s.stream key = some x →
      let due := x.stopped = true ∧ x.atDrain = false ∧ x.stopAt + (s.ctxAt x.ctx).drainlim.toNat ≤ s.cycle.toNat
      let run (o : Op) : Bool := o.key == key && o.queued && o.status.isNone && !o.cut
      let cutAll : State := { s with ops := s.ops.map (fun o => if run o then { o with cut := true, status := if x.compat then some 8 else o.status } else o) }
      (¬due → stays (.drainlimExpiry key)) ∧
      (due → x.compat = false ∨ (∀ o ∈ s.ops, run o = false) → exec (.drainlimExpiry key) s = .next cutAll) ∧
      (∀ o rest, due → x.compat = true → s.ops.filter run = o :: rest → ∃ a : Word64,
        (∀ va, o.target = some va → a = BitVec.ofNat 64 va) ∧
        exec (.drainlimExpiry key) s = .next (cutAll.asyncTrap key
          { cause := 0x0D, info := BitVec.ofNat 64 ((rest.length + 1) % 256), addr := a })) ∧
      let a := (s.ctxAt x.ctx).freeArea
      let settled := x.stopped = true ∧ x.land = [] ∧ x.pend = [] ∧ x.winAgent ≠ 1 ∧ x.winAgent ≠ 2 ∧
        (∀ c ∈ (s.coreOf (key / 2)).calls, c.key ≠ key) ∧ (∀ o ∈ s.ops, o.key = key → o.settled = true) ∧ 
        (∀ q ∈ s.treqs, q.key = key → q.state = 4 ∨ (q.detach = true ∧ q.parked = true))
      (a = none ∨ ¬settled → stays (.contextSave key)) ∧
      (∀ i, a = some i → settled → (s.curLive = true → key = s.curKey → s.streams.find key = none) → ∃ t : State,
        exec (.contextSave key) s = .next t ∧ t.stream key = none ∧ ∃ w ∈ (t.ctxAt x.ctx).saved, w.area = i ∧ w.core = key / 2 ∧
          w.full = decide (x.pre = 2) ∧ w.stream.pc = x.pc ∧ w.stream.s = x.s ∧ w.stream.p = x.p ∧ w.stream.l = x.l ∧ w.stream.c = x.c ∧
          w.stream.q = x.q ∧ w.stream.z = x.z ∧ w.stream.win = x.win ∧ w.stream.async = x.async ∧ w.stream.lgran = x.lgran ∧ w.stream.recv = x.recv ∧
          (let c := s.coreOf (key / 2)
           let b := tiles x
           let r := (s.relAll key 3).acq key 3
           (c.mrf.wf = true → ∀ i, i < 4096 * b.2 → w.mrf.get i = c.mrf.get (4096 * b.1 + i)) ∧
           (x.pre = 2 → (x.lgran.map (fun e => e.1)).Pairwise (· < ·) → r.mem.spad.wf = true → r.mem.fe.wf = true → ∀ e ∈ x.lgran, ∀ i, i < 65536 →
             w.grans.get (e.1 * 65536 + i) = r.mem.spad.get (key / 2 * 2 ^ 20 + e.2 * 65536 + i) ∧
             w.fe.get (e.1 * 16384 + i / 4) = r.mem.fe.get (key / 2 * 2 ^ 18 + e.2 * 16384 + i / 4)) ∧
           ∃ v : State, t.mem = (v.writeArea x.ctx w x.atDrain).mem ∧ v.areaBase x.ctx i = s.areaBase x.ctx i))) ∧
    -- what a save has written, a restore loads
    (∀ (w : Saved) (drain : Bool) (gs : Tbl Nat),
      let base := s.areaBase ctx w.area
      let size := if w.full then Config.csasize else 0x46000
      let z := w.stream
      let a := s.writeArea ctx w drain
      let y := a.loadStream base z
      let b := a.loadCore base key w gs
      s.Canon → w.Fits → z.ctx = ctx → base % 128 = 0 → hbmExists base = true → hbmExists (base + size - 1) = true →
      (∀ r, 1 ≤ r → r < 32 → y.s.get r = z.s.get r) ∧ y.p = z.p ∧ (∀ r, r < 4 → y.l.get r = z.l.get r) ∧ (∀ r, r < 16 → y.c.get r = z.c.get r) ∧
        (∀ r, r < 8 → y.q.get r = z.q.get r) ∧ (∀ r, r < 256 → y.z.get r = z.z.get r) ∧ y.pc = z.pc ∧ y.npc = z.pc ∧ y.handler = z.handler ∧
        y.halted = z.halted ∧ y.fmode = z.fmode ∧ y.flags = z.flags ∧ y.lc = z.lc ∧ y.ec = z.ec ∧ y.rrb = z.rrb ∧ y.efr = z.efr ∧
        y.fewaitlim = z.fewaitlim ∧ y.latcnt = z.latcnt ∧ y.tvec = z.tvec &&& ~~~3 ∧ y.trappc = z.trappc &&& ~~~3 ∧ y.trapcause = z.trapcause ∧
        y.trapaddr = z.trapaddr ∧ y.win = (if z.winHeld then z.win else []) ∧
      ((s.coreOf (key / 2)).mrf.wf = true → ∀ i, i < 4096 * (tiles z).2 → (b.coreOf (key / 2)).mrf.get (4096 * (tiles z).1 + i) = w.mrf.get i) ∧
      (w.full = true → (gs.map (fun e => e.2)).Nodup → (∀ e ∈ gs, e.1 < 16 ∧ e.2 < 16) → ∀ e ∈ gs, ∀ i, i < 65536 →
        b.mem.spad.get (key / 2 * 2 ^ 20 + e.2 * 65536 + i) = w.grans.get (e.1 * 65536 + i) ∧
        b.mem.fe.get (key / 2 * 2 ^ 18 + e.2 * 16384 + i / 4) = w.fe.get (e.1 * 16384 + i / 4))) ∧
    (∀ w t, s.restore ctx key w = some t →
      let base := s.areaBase ctx w.area
      let gs := if w.full then (w.stream.lgran.map (fun e => e.1)).zip (s.freeGrans (key / 2)) else w.stream.lgran
      let a := if w.full then s.shrinkPins (key / 2) (gs.map (fun e => e.2)) else s
      let z := a.loadStream base w.stream
      ∃ y, t.stream key = some y ∧ y.s = z.s ∧ y.p = z.p ∧ y.l = z.l ∧ y.c = z.c ∧ y.q = z.q ∧ y.z = z.z ∧ y.pc = z.pc ∧ y.fmode = z.fmode ∧
        y.lc = z.lc ∧ y.ec = z.ec ∧ y.rrb = z.rrb ∧ y.efr = z.efr ∧ y.tvec = z.tvec ∧ y.win = z.win ∧ y.lgran = gs ∧ y.stopped = false ∧
        (t.coreOf (key / 2)).mrf = ((a.loadCore base key w gs).coreOf (key / 2)).mrf) ∧
    ((∀ w ∈ (s.ctxAt ctx).saved, w.area ≠ area) → stays (.contextRestore ctx area key)) ∧
    (∀ w, (s.ctxAt ctx).saved.find? (fun w => w.area == area) = some w →
      let may := s.savedSeat w (key / 2) = some key ∧ (s.ctxAt ctx).weight w.stream.queue ≠ 0 ∧ s.winner ctx w.stream.queue = true
      let h := words64 (s.homeBytes ctx 0 (s.areaBase ctx area) 64)
      let good := wbits h 0 63 32 = 0x56415344 ∧ wbits h 0 31 16 = 1 ∧ wbits h 0 15 0 = 64 ∧ wbits h 1 63 48 = 64 ∧ wbits h 1 47 32 = 64 ∧
        wbits h 1 20 0 = 0 ∧ wbits h 2 63 32 ≤ Config.csasize ∧ wbits h 2 31 9 = 0 ∧ ∀ k, 3 ≤ k → k < 8 → wordAt h k = 0
      (¬may → stays (.contextRestore ctx area key)) ∧
      (may → ¬good → exec (.contextRestore ctx area key) s = .next (s.refuseRestore ctx key w)) ∧
      (may → good → s.rebase.restore ctx key w = none → stays (.contextRestore ctx area key)) ∧
      (∀ t, may → good → s.rebase.restore ctx key w = some t → exec (.contextRestore ctx area key) s = .next t)) ∧
    (let takes := u.curLive = true ∧ u.cur.handler = false ∧ u.cur.hold = none ∧ u.cur.halted = false ∧ u.cur.stopped = false ∧ u.cur.ending = 0
     (u.cur.async = [] ∨ ¬takes → exec (.asyncTrapDelivery key) s = .next u) ∧
     (∀ f r, takes → u.cur.async = f :: r →
       exec (.asyncTrapDelivery key) s = .next (({ u with cur := { u.cur with async := r } }).enterTrap f u.cur.pc)))

/-- An abort stops the launch's tasks on every rank and retires it ABORTED (9), or TASKFAULT (8) where a task had failed. HALT, STEP, CONT and the
debugger's writes act on a stream of a context with DBGEN = 1, the last three on a halted one. A soft error marks its cell or word, counts, contains a
dirty line's frame, drops a TLB entry or makes a fence due. A fence is refused for a unit that does not exist (REFUSED) or for want of save areas
(NOAREA), does nothing twice, and is reported by a containment event of KIND 1; errors fence a unit past 64 corrected ones within 2^30 cycles or at an
uncorrectable one (R326, R336-R338, R342-R344, R346). The model's choices in it: log 7, 16, 20, 21, 22, 53. -/
def Obligations.DebugErrorsFences : Prop :=
  ∀ (s : State) (c : Cmd) (ctx q n key count cycles : Nat) (d : DbgWrite) (unit : FUnit) (control : Bool),
    let stays (i : Instr) : Prop := exec i s = .next s
    let t := s.taken c
    let now := s.cycle.toNat
    let counts (i : Instr) (u : FUnit) : Prop :=
      let l := s.mgmt.corr.filter (fun e => e.1 != u || decide (now < e.2 + 2 ^ 30)) ++ [(u, now)]
      ((l.filter (fun e => e.1 == u)).length ≤ 64 → exec i s = .next { s with mgmt := { s.mgmt with corr := l } }) ∧
      (64 < (l.filter (fun e => e.1 == u)).length → exec i s =
        .next { s with mgmt := { s.mgmt with corr := l.filter (fun e => e.1 != u), fenceDue := s.mgmt.fenceDue ++ [(u, false)] } })
    let areas := ∀ e ∈ s.allStreams, e.1 / 2 ∈ unitCores unit →
      ∃ i, i < (s.ctxAt e.2.ctx).csaslots.toNat ∧ ∀ v ∈ (s.ctxAt e.2.ctx).saved, v.area ≠ i
    (s.accepts c →
      (s.launch ctx q n = none → s.Answers (.abortLaunch c ctx q n) c t 6) ∧
      (∀ l, s.launch ctx q n = some l → l.done = true → s.Answers (.abortLaunch c ctx q n) c t 6) ∧
      (∀ l m, s.launch ctx q n = some l → l.done = false →
        (let v := l.ranks.foldl (fun (v : State) r => v.stopRank ctx q n r.slot) t
         v.launch ctx q n = some m →
         s.Answers (.abortLaunch c ctx q n) c (m.ranks.foldl (fun (v : State) r => v.checkCaught r.slot)
           (v.endLaunch ctx q m (if m.status = 8 then 8 else 9) (if m.status = 8 then m.fcause else 0))) 0)) ∧
      (∀ l, s.launch ctx q n = some l → l.done = false → l.ranks = [] →
        s.Answers (.abortLaunch c ctx q n) c (t.endLaunch ctx q l (if l.status = 8 then 8 else 9) (if l.status = 8 then l.fcause else 0)) 0)) ∧
    (s.stream key = none → ∀ i ∈ [Instr.debugHalt key, .debugStep key, .debugCont key, .debuggerWrite key d], stays i) ∧
    (∀ x, s.stream key = some x →
      let on := (s.ctxAt x.ctx).dbgen = true
      let put (i : Instr) (y : Stream) : Prop := exec i s = .next (s.putStream key y)
      let sets (d : DbgWrite) (y : Stream) : Prop := put (.debuggerWrite key d) y
      (put (.debugHalt key) (if on ∧ x.halted = false then { x with haltReq := true } else x)) ∧
      (put (.debugStep key) (if on ∧ x.halted = true then { x with halted := false, stepOne := true, skipBp := true } else x)) ∧
      (put (.debugCont key) (if on ∧ x.halted = true then { x with halted := false, skipBp := true } else x)) ∧
      (¬(on ∧ x.halted = true) → stays (.debuggerWrite key d)) ∧
      (on → x.halted = true →
        (∀ r w, sets (.s r w) (if r = 0 then x else { x with s := x.s.set r.toNat w })) ∧
        (∀ r w, sets (.p r w) (if r = 0 then x else x.writeP r.toNat w)) ∧
        (∀ r w, sets (.l r w) { x with l := x.l.set r.toNat w }) ∧ (∀ r w, sets (.c r w) { x with c := x.c.set r.toNat w }) ∧
        (∀ r e w, sets (.z r e w) { x with z := x.z.set (r.toNat * 64 + e.toNat) w }) ∧ (∀ r w, sets (.q r w) { x with q := x.q.set r.toNat w }) ∧
        (∀ r w, sets (.sys r w) (x.writeSys r w)) ∧
        (∀ tile i j w, x.ownsTile tile.toNat = false → stays (.debuggerWrite key (.cell tile i j w))) ∧
        (∀ tile i j w, x.ownsTile tile.toNat = true →
          let k := x.ptile (key % 2 == 1) tile.toNat * 4096 + 64 * i.toNat + j.toNat
          let core := s.coreOf (key / 2)
          exec (.debuggerWrite key (.cell tile i j w)) s =
            .next (s.putCore (key / 2) { core with mrf := core.mrf.set k w, parity := core.parity.filter (fun p => p != k) })) ∧
        (∀ va w k rest p, x.winPieces (key / 2) (BitVec.toNat va) 1 .store = .ok (p :: rest) → p.pl = .win k →
          exec (.debuggerWrite key (.granule va w)) s = .next { s with mem := { s.mem with spad := s.mem.spad.set k w } }) ∧
        (∀ va w f, x.winPieces (key / 2) (BitVec.toNat va) 1 .store = .error f → stays (.debuggerWrite key (.granule va w))))) ∧
    (∀ core tile cell word slot va line u, let x := s.coreOf core
      let k := tile * 4096 + cell
      let w := core * 2 ^ 18 + word
      (k ∈ x.parity → stays (.softError (.mrf core tile cell))) ∧
      (k ∉ x.parity → exec (.softError (.mrf core tile cell)) s = .next (s.putCore core { x with parity := x.parity ++ [k] })) ∧
      (∀ dirty, let h := s.homeSlice (line * 128)
        counts (.softError (.spad core word true)) (.core core) ∧ counts (.softError (.l2 line true dirty)) (.slice (h / 64) (h % 64)) ∧
        counts (.softError (.control u true)) u) ∧
      (w ∈ s.mem.bad → stays (.softError (.spad core word false))) ∧
      (w ∉ s.mem.bad → exec (.softError (.spad core word false)) s = .next { s with mem := { s.mem with bad := s.mem.bad ++ [w] } }) ∧
      stays (.softError (.l2 line false false)) ∧
      (∀ slot va, s.frameOwner (line * 128 / 4096) = some (slot, va) →
        exec (.softError (.l2 line false true)) s = .next (s.contain slot va (line * 128 / 4096))) ∧
      (s.frameOwner (line * 128 / 4096) = none → ∃ e : State, exec (.softError (.l2 line false true)) s = .next e ∧
        e.mem = (s.poisonFrame (line * 128 / 4096)).mem ∧ e.outs.cevents.length = s.outs.cevents.length + 1) ∧
      (∃ e : State, exec (.softError (.tlb core slot va)) s = .next e ∧ e.mem = s.mem ∧ e.streams = s.streams ∧ e.front = s.front ∧
        e.coreOf core = { x with tlb := x.tlb.filter (fun q => !q.hit slot va.toNat 1) } ∧
        (let y := s.crews.at (core / 8) {}
         e.crews.at (core / 8) {} = { y with tlb := y.tlb.filter (fun q => !q.hit slot va.toNat 1) })) ∧
      (exec (.softError (.control u false)) s = .next { s with mgmt := { s.mgmt with fenceDue := s.mgmt.fenceDue ++ [(u, true)] } })) ∧
    (s.accepts c →
       (unitExists unit = false → s.Answers (.fenceUnit c unit) c t 6) ∧
       (unitExists unit = true → s.isFenced unit = true → s.Answers (.fenceUnit c unit) c t 0) ∧
       (unitExists unit = true → s.isFenced unit = false → ¬areas → s.Answers (.fenceUnit c unit) c t 4) ∧
       (unitExists unit = true → s.isFenced unit = false → areas → s.Answers (.fenceUnit c unit) c (t.fence unit false) 0)) ∧
    (∃ (pre : List (List Word64)) (cyc : Word64),
      (s.fence unit control).outs.cevents = pre ++ [[BitVec.ofNat 64 (2 ^ 56 + unitCode unit), 0, cyc, 0]]) ∧
    (∀ p, (s.fence (.port p) control).isFenced (.port p) = true ∧ (s.fence (.crew p) control).isFenced (.crew p) = true ∧
      (s.fence (.die p) control).isFenced (.die p) = true ∧
      ((s.fence (.crew p) control).crews.at p {}).deques = []) ∧
    (let e : State := { s with mgmt := { s.mgmt with fenceDue := s.mgmt.fenceDue.filter (fun v => v.1 != unit) } }
     let i : Instr := .errorCountFence unit count cycles control
     let due := unitExists unit = true ∧ s.isFenced unit = false ∧ (control = true ∨ (64 < count ∧ cycles ≤ 2 ^ 30))
     (¬due → exec i s = .next e) ∧ (due → areas → exec i s = .next (e.fence unit control)) ∧
     (due → ¬areas → exec i s = .next { e with outs := { e.outs with resp := e.outs.resp ++ [(s.mgmt.lastSeq, 4, [])] } }))
end

