-- ==== Sys2Proof/Laws/Decode.lean ====
section
/-! SUPPORT. Each operand field decodes to what was encoded in it, and the fields of a word are the fields it was made of. -/

namespace Sys2Proof

theorem dReg_enc (r : SReg) : dReg (SReg.enc r) = .ok r := by revert r; decide

theorem dPred_enc (p : PReg) : dPred (PReg.enc p) = .ok p := by revert p; decide

theorem dSop_enc (a : SOp) : dSop a.enc = .ok a := by
  cases a with
  | reg r => revert r; decide
  | imm v => revert v; decide
  | pred p => revert p; decide
  | lidx l => revert l; decide
  | lc => rfl
  | ec => rfl
  | rrb => rfl

theorem dDst_enc (d : Dst) : dDst d.enc = .ok d := by
  cases d with
  | reg r => revert r; decide
  | pred p => revert p; decide

theorem dLidx_enc (l : BitVec 2) : dLidx (24#5 ++ l) = .ok l := by revert l; decide

theorem dLine_enc (l : Line) : dLine l.enc = .ok l := by
  obtain ⟨d, t, l⟩ := l
  cases d <;> revert t l <;> decide

theorem dDir11_enc (r : SReg) : dDir11 (dir11 r) = .ok r := by revert r; decide

theorem dSrc_enc (v : VSrc) : dSrc v.enc = .ok v := by
  cases v with
  | line l => simp [dSrc, VSrc.enc, dLine_enc]
  | bc r => revert r; decide

theorem dScale_enc (c : Scale) : dScale c.enc = .ok c := by
  cases c with
  | tile p c => revert p c; decide
  | line p z => revert p z; decide

theorem dFlag_enc (b : Bool) : dFlag (flagF b) = .ok b := by cases b <;> rfl

theorem dDbl_enc (b : Bool) : dDbl (dblF b) = .ok b := by cases b <;> rfl

theorem Fmt.of_bits (f : Fmt) : Fmt.of f.bits = f := by cases f <;> rfl

theorem MFmt.of_bits (f : MFmt) : MFmt.of f.bits = f := by cases f <;> rfl

theorem Cond.of_bits (c : Cond) : Cond.of c.bits = c := by cases c <;> rfl

theorem PFun.of_bits (f : PFun) : PFun.of f.bits = f := by cases f <;> rfl

theorem dSTy_bits (t : STy) : dSTy t.bits = .ok t := by cases t <;> rfl

theorem dFCond_bits (c : FCond) : dFCond c.bits = .ok c := by cases c <;> rfl

theorem dBFun_bits (f : BFun) : dBFun f.bits = .ok f := by cases f <;> rfl

theorem dSz_bits (z : Sz) : dSz z.bits = .ok z := by cases z <;> rfl

theorem dASz_bits (z : ASz) : dASz z.bits = .ok z := by cases z <;> rfl

theorem dKFmt_bits (f : KFmt) : dKFmt f.bits = .ok f := by cases f <;> rfl

theorem dEvMode_bits (m : EvMode) : dEvMode m.bits = .ok m := by cases m <;> rfl

theorem dSys_index (r : SysReg) : dSys r.index = .ok r := by cases r <;> rfl

theorem dRaw1_enc (x : BitVec 1) : dRaw 1 (0#6 ++ x) = .ok x := by revert x; decide

theorem dRaw2_enc (x : BitVec 2) : dRaw 2 (0#5 ++ x) = .ok x := by revert x; decide

theorem dRaw3_enc (x : BitVec 3) : dRaw 3 (0#4 ++ x) = .ok x := by revert x; decide

theorem dRaw4_enc (x : BitVec 4) : dRaw 4 (0#3 ++ x) = .ok x := by revert x; decide

/-- The fields read out of a word are those it was made of, whatever its stop bit (R79). -/
theorem Fields.of_word (F : Fields) (stop : Bool) : Fields.of (F.word stop) = F := by
  obtain ⟨op, f, b, d, a, e⟩ := F
  simp only [Fields.of, Fields.word, Fields.mk.injEq]
  refine ⟨?_, ?_, ?_, ?_, ?_, ?_⟩
  · ext i hi; simp only [BitVec.getElem_extractLsb', BitVec.getLsbD_cast, BitVec.getLsbD_append]; interval_cases i <;> simp
  · ext i hi; simp only [BitVec.getElem_extractLsb', BitVec.getLsbD_cast, BitVec.getLsbD_append]; interval_cases i <;> simp
  · simp only [BitVec.getLsbD_cast, BitVec.getLsbD_append]; simp
  · ext i hi; simp only [BitVec.getElem_extractLsb', BitVec.getLsbD_cast, BitVec.getLsbD_append]; interval_cases i <;> simp
  · ext i hi; simp only [BitVec.getElem_extractLsb', BitVec.getLsbD_cast, BitVec.getLsbD_append]; interval_cases i <;> simp
  · ext i hi; simp only [BitVec.getElem_extractLsb', BitVec.getLsbD_cast, BitVec.getLsbD_append]; interval_cases i <;> simp

/-- The stop bit of a word is its bit 31 (R79). -/
theorem Fields.word_stop (F : Fields) (stop : Bool) : (F.word stop).getLsbD 31 = stop := by
  obtain ⟨op, f, b, d, a, e⟩ := F
  simp only [Fields.word, BitVec.getLsbD_cast, BitVec.getLsbD_append]; simp

/-- A slot word decodes by its fields alone. -/
theorem decodeSlot_word (sk : SlotKind) (F : Fields) (stop : Bool) : decodeSlot sk (F.word stop) = decodeFields sk F := by
  rw [decodeSlot, Fields.of_word]

/-- What a slot kind's own space accepts is the instruction. -/
theorem decodeFields_ok {sk : SlotKind} {F : Fields} {i : Instr} (h : decodeKind sk F = .ok i) : decodeFields sk F = .ok i := by
  rw [decodeFields, h]

end Sys2Proof
end

