-- ==== Sys2Proof/Laws/Map.lean ====
section
/-! SUPPORT. What the sparse maps do: reading after writing, and every operation keeps the canonical form. -/

namespace Sys2Proof.Machine

variable {w : Nat}

/-- A map whose keys start above an address reads as zero there. -/
theorem Cells.get_of_wfFrom_lt {m : Cells w} {lo a : Nat} (h : Cells.wfFrom lo m = true) (ha : a < lo) : Cells.get m a = 0 := by
  cases m with
  | nil => rfl
  | cons e r =>
    obtain ⟨k, v⟩ := e
    simp only [Cells.wfFrom, Bool.and_eq_true, decide_eq_true_eq] at h
    have h1 : ¬ a = k := by omega
    have h2 : a < k := by omega
    simp [Cells.get, h1, h2]

theorem Cells.wfFrom_mono {m : Cells w} {lo lo' : Nat} (h : Cells.wfFrom lo m = true) (hl : lo' ≤ lo) : Cells.wfFrom lo' m = true := by
  cases m with
  | nil => rfl
  | cons e r =>
    obtain ⟨k, v⟩ := e
    simp only [Cells.wfFrom, Bool.and_eq_true, decide_eq_true_eq] at h ⊢
    exact ⟨⟨by omega, h.1.2⟩, h.2⟩

/-- A write at or above the bound keeps the canonical form. -/
theorem Cells.wfFrom_set {m : Cells w} {lo a : Nat} {x : BitVec w} (h : Cells.wfFrom lo m = true) (ha : lo ≤ a) :
    Cells.wfFrom lo (Cells.set m a x) = true := by
  induction m generalizing lo with
  | nil =>
    by_cases hx : x = 0
    · simp [Cells.set, hx, Cells.wfFrom]
    · rw [Cells.set, if_neg hx]
      simp only [Cells.wfFrom, Bool.and_true, Bool.and_eq_true, decide_eq_true_eq]
      exact ⟨ha, hx⟩
  | cons e r ih =>
    obtain ⟨k, v⟩ := e
    simp only [Cells.wfFrom, Bool.and_eq_true, decide_eq_true_eq] at h
    obtain ⟨⟨hk, hv⟩, hr⟩ := h
    rw [Cells.set]
    by_cases h1 : a < k
    · rw [if_pos h1]
      by_cases hx : x = 0
      · rw [if_pos hx]
        simp only [Cells.wfFrom, Bool.and_eq_true, decide_eq_true_eq]
        exact ⟨⟨hk, hv⟩, hr⟩
      · rw [if_neg hx]
        simp only [Cells.wfFrom, Bool.and_eq_true, decide_eq_true_eq]
        exact ⟨⟨ha, hx⟩, ⟨by omega, hv⟩, hr⟩
    · rw [if_neg h1]
      by_cases h2 : a = k
      · rw [if_pos h2]
        by_cases hx : x = 0
        · rw [if_pos hx]; exact Cells.wfFrom_mono hr (by omega)
        · rw [if_neg hx]
          simp only [Cells.wfFrom, Bool.and_eq_true, decide_eq_true_eq]
          exact ⟨⟨ha, hx⟩, by rw [h2]; exact hr⟩
      · rw [if_neg h2]
        simp only [Cells.wfFrom, Bool.and_eq_true, decide_eq_true_eq]
        exact ⟨⟨hk, hv⟩, ih hr (by omega)⟩

/-- A write keeps the canonical form. -/
theorem Cells.wf_set {m : Cells w} (a : Nat) (x : BitVec w) (h : Cells.wf m = true) : Cells.wf (Cells.set m a x) = true :=
  Cells.wfFrom_set h (Nat.zero_le a)

/-- Reading the written key gives the written value. -/
theorem Cells.get_set_same {m : Cells w} {lo : Nat} (a : Nat) (x : BitVec w) (h : Cells.wfFrom lo m = true) :
    Cells.get (Cells.set m a x) a = x := by
  induction m generalizing lo with
  | nil =>
    by_cases hx : x = 0
    · simp [Cells.set, hx, Cells.get]
    · rw [Cells.set, if_neg hx]; simp [Cells.get]
  | cons e r ih =>
    obtain ⟨k, v⟩ := e
    simp only [Cells.wfFrom, Bool.and_eq_true, decide_eq_true_eq] at h
    obtain ⟨⟨hk, hv⟩, hr⟩ := h
    rw [Cells.set]
    by_cases h1 : a < k
    · rw [if_pos h1]
      by_cases hx : x = 0
      · rw [if_pos hx, Cells.get, if_neg (by omega), if_pos h1, hx]
      · rw [if_neg hx]; simp [Cells.get]
    · rw [if_neg h1]
      by_cases h2 : a = k
      · rw [if_pos h2]
        by_cases hx : x = 0
        · rw [if_pos hx, hx]; exact Cells.get_of_wfFrom_lt hr (by omega)
        · rw [if_neg hx]; simp [Cells.get]
      · rw [if_neg h2, Cells.get, if_neg h2, if_neg h1]; exact ih hr

/-- Reading another key gives what it gave. -/
theorem Cells.get_set_other {m : Cells w} {lo : Nat} (a b : Nat) (x : BitVec w) (h : Cells.wfFrom lo m = true) (hb : b ≠ a) :
    Cells.get (Cells.set m a x) b = Cells.get m b := by
  induction m generalizing lo with
  | nil =>
    by_cases hx : x = 0
    · simp [Cells.set, hx]
    · rw [Cells.set, if_neg hx]; simp [Cells.get, hb]
  | cons e r ih =>
    obtain ⟨k, v⟩ := e
    simp only [Cells.wfFrom, Bool.and_eq_true, decide_eq_true_eq] at h
    obtain ⟨⟨hk, hv⟩, hr⟩ := h
    rw [Cells.set]
    by_cases h1 : a < k
    · rw [if_pos h1]
      by_cases hx : x = 0
      · rw [if_pos hx]
      · rw [if_neg hx]
        conv => lhs; rw [Cells.get]
        rw [if_neg hb]
        by_cases h3 : b < a
        · rw [if_pos h3, Cells.get, if_neg (by omega), if_pos (by omega)]
        · rw [if_neg h3]
    · rw [if_neg h1]
      by_cases h2 : a = k
      · subst h2
        rw [if_pos rfl]
        by_cases hx : x = 0
        · rw [if_pos hx, Cells.get, if_neg hb]
          by_cases h3 : b < a
          · rw [if_pos h3]; exact Cells.get_of_wfFrom_lt hr (by omega)
          · rw [if_neg h3]
        · rw [if_neg hx]; simp [Cells.get, hb]
      · rw [if_neg h2]
        conv => lhs; rw [Cells.get]
        conv => rhs; rw [Cells.get]
        rw [ih hr]

/-- Writing a list of cells keeps the canonical form. -/
theorem Cells.wf_puts {m : Cells w} (l : List (Nat × BitVec w)) (h : Cells.wf m = true) : Cells.wf (Cells.puts m l) = true := by
  induction l generalizing m with
  | nil => exact h
  | cons e r ih => exact ih (Cells.wf_set e.1 e.2 h)

/-- Writing one value at a run of keys keeps the canonical form. -/
theorem Cells.wf_fill {m : Cells w} (a : Nat) (v : BitVec w) (n : Nat) (h : Cells.wf m = true) : Cells.wf (Cells.fill m a v n) = true := by
  induction n generalizing m a with
  | zero => exact h
  | succ n ih => exact ih (a + 1) (Cells.wf_set a v h)

theorem Cells.wfFrom_filter {m : Cells w} {lo : Nat} (p : Nat × BitVec w → Bool) (h : Cells.wfFrom lo m = true) :
    Cells.wfFrom lo (m.filter p) = true := by
  induction m generalizing lo with
  | nil => rfl
  | cons e r ih =>
    obtain ⟨k, v⟩ := e
    simp only [Cells.wfFrom, Bool.and_eq_true, decide_eq_true_eq] at h
    obtain ⟨⟨hk, hv⟩, hr⟩ := h
    rw [List.filter_cons]
    split
    · simp only [Cells.wfFrom, Bool.and_eq_true, decide_eq_true_eq]
      exact ⟨⟨hk, hv⟩, ih hr⟩
    · exact ih (Cells.wfFrom_mono hr (by omega))

/-- Dropping a range of cells keeps the canonical form. -/
theorem Cells.wf_zero {m : Cells w} (a n : Nat) (h : Cells.wf m = true) : Cells.wf (Cells.zero m a n) = true :=
  Cells.wfFrom_filter _ h

/-- Writing a byte keeps a memory's canonical form. -/
theorem Memory.wf_set {m : Memory} (a : Nat) (v : Byte) (h : m.wf = true) : (m.set a v).wf = true := Cells.wf_set (w := 8) a v h

/-- Writing bytes keeps a memory's canonical form. -/
theorem Memory.wf_put {m : Memory} (a : Nat) (l : List Byte) (h : m.wf = true) : (m.put a l).wf = true := by
  induction l generalizing m a with
  | nil => exact h
  | cons v r ih => exact ih (a + 1) (Memory.wf_set a v h)

/-- Dropping a range of bytes keeps a memory's canonical form. -/
theorem Memory.wf_zero {m : Memory} (a n : Nat) (h : m.wf = true) : (m.zero a n).wf = true := Cells.wfFrom_filter (w := 8) _ h

/-- The written byte reads back. -/
theorem Memory.get_set_same {m : Memory} (a : Nat) (v : Byte) (h : m.wf = true) : (m.set a v).get a = v :=
  Cells.get_set_same (w := 8) a v h

/-- Every other byte reads as before. -/
theorem Memory.get_set_other {m : Memory} (a b : Nat) (v : Byte) (h : m.wf = true) (hb : b ≠ a) : (m.set a v).get b = m.get b :=
  Cells.get_set_other (w := 8) a b v h hb

/-- Bytes outside a written run read as before. -/
theorem Memory.get_put_other {m : Memory} (a b : Nat) (l : List Byte) (h : m.wf = true) (hb : b < a ∨ a + l.length ≤ b) :
    (m.put a l).get b = m.get b := by
  induction l generalizing m a with
  | nil => rfl
  | cons v r ih =>
    rw [List.length_cons] at hb
    rw [Memory.put, ih (a + 1) (Memory.wf_set a v h) (by omega), Memory.get_set_other a b v h (by omega)]

/-- The record written to a table reads back. -/
theorem Tbl.find_put_same {α : Type} (t : Tbl α) (a : Nat) (x : α) : (t.put a x).find a = some x := by
  induction t with
  | nil => simp [Tbl.put, Tbl.find]
  | cons e r ih =>
    obtain ⟨k, v⟩ := e
    rw [Tbl.put]
    by_cases h1 : a < k
    · rw [if_pos h1]; simp [Tbl.find]
    · rw [if_neg h1]
      by_cases h2 : a = k
      · rw [if_pos h2]; simp [Tbl.find]
      · rw [if_neg h2, Tbl.find, if_neg h2, if_neg h1, ih]

/-- Every other record of a table reads as before. -/
theorem Tbl.find_put_other {α : Type} (t : Tbl α) (a b : Nat) (x : α) (hb : b ≠ a) : (t.put a x).find b = t.find b := by
  induction t with
  | nil => simp [Tbl.put, Tbl.find, hb]
  | cons e r ih =>
    obtain ⟨k, v⟩ := e
    rw [Tbl.put]
    by_cases h1 : a < k
    · rw [if_pos h1]
      conv => lhs; rw [Tbl.find]
      rw [if_neg hb]
      by_cases h3 : b < a
      · rw [if_pos h3, Tbl.find, if_neg (by omega), if_pos (by omega)]
      · rw [if_neg h3]
    · rw [if_neg h1]
      by_cases h2 : a = k
      · subst h2; rw [if_pos rfl]; simp [Tbl.find, hb]
      · rw [if_neg h2]
        conv => lhs; rw [Tbl.find]
        conv => rhs; rw [Tbl.find]
        rw [ih]

end Sys2Proof.Machine
end

