-- ==== Sys2Proof/Laws/State.lean ====
section
/-! SUPPORT. One lemma per field per update of the state, each true by unfolding. -/

namespace Sys2Proof.Machine

/-! A result of the landing buffer (R108) changes nothing else. -/

@[simp] theorem State.out_tick (s : State) (L : Nat) (t : Tgt) (fl : Flags) : (s.out L t fl).tick = s.tick := rfl
@[simp] theorem State.out_cycle (s : State) (L : Nat) (t : Tgt) (fl : Flags) : (s.out L t fl).cycle = s.cycle := rfl
@[simp] theorem State.out_nextId (s : State) (L : Nat) (t : Tgt) (fl : Flags) : (s.out L t fl).nextId = s.nextId := rfl
@[simp] theorem State.out_late (s : State) (L : Nat) (t : Tgt) (fl : Flags) : (s.out L t fl).late = s.late := rfl
@[simp] theorem State.out_inbox (s : State) (L : Nat) (t : Tgt) (fl : Flags) : (s.out L t fl).inbox = s.inbox := rfl
@[simp] theorem State.out_curKey (s : State) (L : Nat) (t : Tgt) (fl : Flags) : (s.out L t fl).curKey = s.curKey := rfl
@[simp] theorem State.out_curLive (s : State) (L : Nat) (t : Tgt) (fl : Flags) : (s.out L t fl).curLive = s.curLive := rfl
@[simp] theorem State.out_core (s : State) (L : Nat) (t : Tgt) (fl : Flags) : (s.out L t fl).core = s.core := rfl
@[simp] theorem State.out_slotRank (s : State) (L : Nat) (t : Tgt) (fl : Flags) : (s.out L t fl).slotRank = s.slotRank := rfl
@[simp] theorem State.out_view (s : State) (L : Nat) (t : Tgt) (fl : Flags) : (s.out L t fl).view = s.view := rfl
@[simp] theorem State.out_streams (s : State) (L : Nat) (t : Tgt) (fl : Flags) : (s.out L t fl).streams = s.streams := rfl
@[simp] theorem State.out_cores (s : State) (L : Nat) (t : Tgt) (fl : Flags) : (s.out L t fl).cores = s.cores := rfl
@[simp] theorem State.out_mem (s : State) (L : Nat) (t : Tgt) (fl : Flags) : (s.out L t fl).mem = s.mem := rfl
@[simp] theorem State.out_crews (s : State) (L : Nat) (t : Tgt) (fl : Flags) : (s.out L t fl).crews = s.crews := rfl
@[simp] theorem State.out_ops (s : State) (L : Nat) (t : Tgt) (fl : Flags) : (s.out L t fl).ops = s.ops := rfl
@[simp] theorem State.out_slices (s : State) (L : Nat) (t : Tgt) (fl : Flags) : (s.out L t fl).slices = s.slices := rfl
@[simp] theorem State.out_treqs (s : State) (L : Nat) (t : Tgt) (fl : Flags) : (s.out L t fl).treqs = s.treqs := rfl
@[simp] theorem State.out_front (s : State) (L : Nat) (t : Tgt) (fl : Flags) : (s.out L t fl).front = s.front := rfl
@[simp] theorem State.out_mgmt (s : State) (L : Nat) (t : Tgt) (fl : Flags) : (s.out L t fl).mgmt = s.mgmt := rfl
@[simp] theorem State.out_outs (s : State) (L : Nat) (t : Tgt) (fl : Flags) : (s.out L t fl).outs = s.outs := rfl
@[simp] theorem State.out_cur_ctx (s : State) (L : Nat) (t : Tgt) (fl : Flags) : (s.out L t fl).cur.ctx = s.cur.ctx := rfl
@[simp] theorem State.out_cur_slot (s : State) (L : Nat) (t : Tgt) (fl : Flags) : (s.out L t fl).cur.slot = s.cur.slot := rfl
@[simp] theorem State.out_cur_queue (s : State) (L : Nat) (t : Tgt) (fl : Flags) : (s.out L t fl).cur.queue = s.cur.queue := rfl
@[simp] theorem State.out_cur_serial (s : State) (L : Nat) (t : Tgt) (fl : Flags) : (s.out L t fl).cur.serial = s.cur.serial := rfl
@[simp] theorem State.out_cur_lid (s : State) (L : Nat) (t : Tgt) (fl : Flags) : (s.out L t fl).cur.lid = s.cur.lid := rfl
@[simp] theorem State.out_cur_task (s : State) (L : Nat) (t : Tgt) (fl : Flags) : (s.out L t fl).cur.task = s.cur.task := rfl
@[simp] theorem State.out_cur_step (s : State) (L : Nat) (t : Tgt) (fl : Flags) : (s.out L t fl).cur.step = s.cur.step := rfl
@[simp] theorem State.out_cur_tiles4 (s : State) (L : Nat) (t : Tgt) (fl : Flags) : (s.out L t fl).cur.tiles4 = s.cur.tiles4 := rfl
@[simp] theorem State.out_cur_pair (s : State) (L : Nat) (t : Tgt) (fl : Flags) : (s.out L t fl).cur.pair = s.cur.pair := rfl
@[simp] theorem State.out_cur_grans (s : State) (L : Nat) (t : Tgt) (fl : Flags) : (s.out L t fl).cur.grans = s.cur.grans := rfl
@[simp] theorem State.out_cur_widths (s : State) (L : Nat) (t : Tgt) (fl : Flags) : (s.out L t fl).cur.widths = s.cur.widths := rfl
@[simp] theorem State.out_cur_codebase (s : State) (L : Nat) (t : Tgt) (fl : Flags) : (s.out L t fl).cur.codebase = s.cur.codebase := rfl
@[simp] theorem State.out_cur_compat (s : State) (L : Nat) (t : Tgt) (fl : Flags) : (s.out L t fl).cur.compat = s.cur.compat := rfl
@[simp] theorem State.out_cur_sl (s : State) (L : Nat) (t : Tgt) (fl : Flags) : (s.out L t fl).cur.sl = s.cur.sl := rfl
@[simp] theorem State.out_cur_det (s : State) (L : Nat) (t : Tgt) (fl : Flags) : (s.out L t fl).cur.det = s.cur.det := rfl
@[simp] theorem State.out_cur_s (s : State) (L : Nat) (t : Tgt) (fl : Flags) : (s.out L t fl).cur.s = s.cur.s := rfl
@[simp] theorem State.out_cur_p (s : State) (L : Nat) (t : Tgt) (fl : Flags) : (s.out L t fl).cur.p = s.cur.p := rfl
@[simp] theorem State.out_cur_l (s : State) (L : Nat) (t : Tgt) (fl : Flags) : (s.out L t fl).cur.l = s.cur.l := rfl
@[simp] theorem State.out_cur_c (s : State) (L : Nat) (t : Tgt) (fl : Flags) : (s.out L t fl).cur.c = s.cur.c := rfl
@[simp] theorem State.out_cur_z (s : State) (L : Nat) (t : Tgt) (fl : Flags) : (s.out L t fl).cur.z = s.cur.z := rfl
@[simp] theorem State.out_cur_q (s : State) (L : Nat) (t : Tgt) (fl : Flags) : (s.out L t fl).cur.q = s.cur.q := rfl
@[simp] theorem State.out_cur_fmode (s : State) (L : Nat) (t : Tgt) (fl : Flags) : (s.out L t fl).cur.fmode = s.cur.fmode := rfl
@[simp] theorem State.out_cur_flags (s : State) (L : Nat) (t : Tgt) (fl : Flags) : (s.out L t fl).cur.flags = s.cur.flags := rfl
@[simp] theorem State.out_cur_lc (s : State) (L : Nat) (t : Tgt) (fl : Flags) : (s.out L t fl).cur.lc = s.cur.lc := rfl
@[simp] theorem State.out_cur_ec (s : State) (L : Nat) (t : Tgt) (fl : Flags) : (s.out L t fl).cur.ec = s.cur.ec := rfl
@[simp] theorem State.out_cur_rrb (s : State) (L : Nat) (t : Tgt) (fl : Flags) : (s.out L t fl).cur.rrb = s.cur.rrb := rfl
@[simp] theorem State.out_cur_efr (s : State) (L : Nat) (t : Tgt) (fl : Flags) : (s.out L t fl).cur.efr = s.cur.efr := rfl
@[simp] theorem State.out_cur_fewaitlim (s : State) (L : Nat) (t : Tgt) (fl : Flags) : (s.out L t fl).cur.fewaitlim = s.cur.fewaitlim := rfl
@[simp] theorem State.out_cur_latcnt (s : State) (L : Nat) (t : Tgt) (fl : Flags) : (s.out L t fl).cur.latcnt = s.cur.latcnt := rfl
@[simp] theorem State.out_cur_trappc (s : State) (L : Nat) (t : Tgt) (fl : Flags) : (s.out L t fl).cur.trappc = s.cur.trappc := rfl
@[simp] theorem State.out_cur_trapcause (s : State) (L : Nat) (t : Tgt) (fl : Flags) : (s.out L t fl).cur.trapcause = s.cur.trapcause := rfl
@[simp] theorem State.out_cur_trapaddr (s : State) (L : Nat) (t : Tgt) (fl : Flags) : (s.out L t fl).cur.trapaddr = s.cur.trapaddr := rfl
@[simp] theorem State.out_cur_trapinfo (s : State) (L : Nat) (t : Tgt) (fl : Flags) : (s.out L t fl).cur.trapinfo = s.cur.trapinfo := rfl
@[simp] theorem State.out_cur_tvec (s : State) (L : Nat) (t : Tgt) (fl : Flags) : (s.out L t fl).cur.tvec = s.cur.tvec := rfl
@[simp] theorem State.out_cur_dpb (s : State) (L : Nat) (t : Tgt) (fl : Flags) : (s.out L t fl).cur.dpb = s.cur.dpb := rfl
@[simp] theorem State.out_cur_wid (s : State) (L : Nat) (t : Tgt) (fl : Flags) : (s.out L t fl).cur.wid = s.cur.wid := rfl
@[simp] theorem State.out_cur_vrank (s : State) (L : Nat) (t : Tgt) (fl : Flags) : (s.out L t fl).cur.vrank = s.cur.vrank := rfl
@[simp] theorem State.out_cur_ctxid (s : State) (L : Nat) (t : Tgt) (fl : Flags) : (s.out L t fl).cur.ctxid = s.cur.ctxid := rfl
@[simp] theorem State.out_cur_heat (s : State) (L : Nat) (t : Tgt) (fl : Flags) : (s.out L t fl).cur.heat = s.cur.heat := rfl
@[simp] theorem State.out_cur_pc (s : State) (L : Nat) (t : Tgt) (fl : Flags) : (s.out L t fl).cur.pc = s.cur.pc := rfl
@[simp] theorem State.out_cur_npc (s : State) (L : Nat) (t : Tgt) (fl : Flags) : (s.out L t fl).cur.npc = s.cur.npc := rfl
@[simp] theorem State.out_cur_pos (s : State) (L : Nat) (t : Tgt) (fl : Flags) : (s.out L t fl).cur.pos = s.cur.pos := rfl
@[simp] theorem State.out_cur_bundle (s : State) (L : Nat) (t : Tgt) (fl : Flags) : (s.out L t fl).cur.bundle = s.cur.bundle := rfl
@[simp] theorem State.out_cur_pend (s : State) (L : Nat) (t : Tgt) (fl : Flags) : (s.out L t fl).cur.pend = s.cur.pend := rfl
@[simp] theorem State.out_cur_code (s : State) (L : Nat) (t : Tgt) (fl : Flags) : (s.out L t fl).cur.code = s.cur.code := rfl
@[simp] theorem State.out_cur_handler (s : State) (L : Nat) (t : Tgt) (fl : Flags) : (s.out L t fl).cur.handler = s.cur.handler := rfl
@[simp] theorem State.out_cur_async (s : State) (L : Nat) (t : Tgt) (fl : Flags) : (s.out L t fl).cur.async = s.cur.async := rfl
@[simp] theorem State.out_cur_btrap (s : State) (L : Nat) (t : Tgt) (fl : Flags) : (s.out L t fl).cur.btrap = s.cur.btrap := rfl
@[simp] theorem State.out_cur_ending (s : State) (L : Nat) (t : Tgt) (fl : Flags) : (s.out L t fl).cur.ending = s.cur.ending := rfl
@[simp] theorem State.out_cur_mark (s : State) (L : Nat) (t : Tgt) (fl : Flags) : (s.out L t fl).cur.mark = s.cur.mark := rfl
@[simp] theorem State.out_cur_lgran (s : State) (L : Nat) (t : Tgt) (fl : Flags) : (s.out L t fl).cur.lgran = s.cur.lgran := rfl
@[simp] theorem State.out_cur_recv (s : State) (L : Nat) (t : Tgt) (fl : Flags) : (s.out L t fl).cur.recv = s.cur.recv := rfl
@[simp] theorem State.out_cur_rings (s : State) (L : Nat) (t : Tgt) (fl : Flags) : (s.out L t fl).cur.rings = s.cur.rings := rfl
@[simp] theorem State.out_cur_blks (s : State) (L : Nat) (t : Tgt) (fl : Flags) : (s.out L t fl).cur.blks = s.cur.blks := rfl
@[simp] theorem State.out_cur_hold (s : State) (L : Nat) (t : Tgt) (fl : Flags) : (s.out L t fl).cur.hold = s.cur.hold := rfl
@[simp] theorem State.out_cur_winHeld (s : State) (L : Nat) (t : Tgt) (fl : Flags) : (s.out L t fl).cur.winHeld = s.cur.winHeld := rfl
@[simp] theorem State.out_cur_win (s : State) (L : Nat) (t : Tgt) (fl : Flags) : (s.out L t fl).cur.win = s.cur.win := rfl
@[simp] theorem State.out_cur_winAgent (s : State) (L : Nat) (t : Tgt) (fl : Flags) : (s.out L t fl).cur.winAgent = s.cur.winAgent := rfl
@[simp] theorem State.out_cur_flushing (s : State) (L : Nat) (t : Tgt) (fl : Flags) : (s.out L t fl).cur.flushing = s.cur.flushing := rfl
@[simp] theorem State.out_cur_waitCyc (s : State) (L : Nat) (t : Tgt) (fl : Flags) : (s.out L t fl).cur.waitCyc = s.cur.waitCyc := rfl
@[simp] theorem State.out_cur_fixed (s : State) (L : Nat) (t : Tgt) (fl : Flags) : (s.out L t fl).cur.fixed = s.cur.fixed := rfl
@[simp] theorem State.out_cur_refused (s : State) (L : Nat) (t : Tgt) (fl : Flags) : (s.out L t fl).cur.refused = s.cur.refused := rfl
@[simp] theorem State.out_cur_halted (s : State) (L : Nat) (t : Tgt) (fl : Flags) : (s.out L t fl).cur.halted = s.cur.halted := rfl
@[simp] theorem State.out_cur_haltReq (s : State) (L : Nat) (t : Tgt) (fl : Flags) : (s.out L t fl).cur.haltReq = s.cur.haltReq := rfl
@[simp] theorem State.out_cur_stepOne (s : State) (L : Nat) (t : Tgt) (fl : Flags) : (s.out L t fl).cur.stepOne = s.cur.stepOne := rfl
@[simp] theorem State.out_cur_skipBp (s : State) (L : Nat) (t : Tgt) (fl : Flags) : (s.out L t fl).cur.skipBp = s.cur.skipBp := rfl
@[simp] theorem State.out_cur_pre (s : State) (L : Nat) (t : Tgt) (fl : Flags) : (s.out L t fl).cur.pre = s.cur.pre := rfl
@[simp] theorem State.out_cur_preSince (s : State) (L : Nat) (t : Tgt) (fl : Flags) : (s.out L t fl).cur.preSince = s.cur.preSince := rfl
@[simp] theorem State.out_cur_stopped (s : State) (L : Nat) (t : Tgt) (fl : Flags) : (s.out L t fl).cur.stopped = s.cur.stopped := rfl
@[simp] theorem State.out_cur_atDrain (s : State) (L : Nat) (t : Tgt) (fl : Flags) : (s.out L t fl).cur.atDrain = s.cur.atDrain := rfl
@[simp] theorem State.out_cur_stopAt (s : State) (L : Nat) (t : Tgt) (fl : Flags) : (s.out L t fl).cur.stopAt = s.cur.stopAt := rfl
@[simp] theorem State.out_cur_sliceAt (s : State) (L : Nat) (t : Tgt) (fl : Flags) : (s.out L t fl).cur.sliceAt = s.cur.sliceAt := rfl
@[simp] theorem State.out_cur_succ (s : State) (L : Nat) (t : Tgt) (fl : Flags) : (s.out L t fl).cur.succ = s.cur.succ := rfl
@[simp] theorem State.out_cur_starved (s : State) (L : Nat) (t : Tgt) (fl : Flags) : (s.out L t fl).cur.starved = s.cur.starved := rfl
@[simp] theorem State.out_cur_obs (s : State) (L : Nat) (t : Tgt) (fl : Flags) : (s.out L t fl).cur.obs = s.cur.obs := rfl
@[simp] theorem State.out_cur_heard (s : State) (L : Nat) (t : Tgt) (fl : Flags) : (s.out L t fl).cur.heard = s.cur.heard := rfl
@[simp] theorem State.out_cur_fences (s : State) (L : Nat) (t : Tgt) (fl : Flags) : (s.out L t fl).cur.fences = s.cur.fences := rfl

@[simp] theorem State.out_cur_land (s : State) (L : Nat) (t : Tgt) (fl : Flags) :
    (s.out L t fl).cur.land = s.cur.land ++ [⟨s.cur.pos + L, s.slotRank, s.cur.pos, t, fl⟩] := rfl

/-! A scoreboarded result (R111) changes nothing else but the identity it takes. -/

@[simp] theorem State.sb_tick (s : State) (ts : List Tgt) (fl : Flags) (d : List (Nat × Bool)) (r : Option PRead) : (s.sb ts fl d r).tick = s.tick := rfl
@[simp] theorem State.sb_cycle (s : State) (ts : List Tgt) (fl : Flags) (d : List (Nat × Bool)) (r : Option PRead) : (s.sb ts fl d r).cycle = s.cycle := rfl
@[simp] theorem State.sb_late (s : State) (ts : List Tgt) (fl : Flags) (d : List (Nat × Bool)) (r : Option PRead) : (s.sb ts fl d r).late = s.late := rfl
@[simp] theorem State.sb_inbox (s : State) (ts : List Tgt) (fl : Flags) (d : List (Nat × Bool)) (r : Option PRead) : (s.sb ts fl d r).inbox = s.inbox := rfl
@[simp] theorem State.sb_curKey (s : State) (ts : List Tgt) (fl : Flags) (d : List (Nat × Bool)) (r : Option PRead) : (s.sb ts fl d r).curKey = s.curKey := rfl
@[simp] theorem State.sb_curLive (s : State) (ts : List Tgt) (fl : Flags) (d : List (Nat × Bool)) (r : Option PRead) : (s.sb ts fl d r).curLive = s.curLive := rfl
@[simp] theorem State.sb_core (s : State) (ts : List Tgt) (fl : Flags) (d : List (Nat × Bool)) (r : Option PRead) : (s.sb ts fl d r).core = s.core := rfl
@[simp] theorem State.sb_slotRank (s : State) (ts : List Tgt) (fl : Flags) (d : List (Nat × Bool)) (r : Option PRead) : (s.sb ts fl d r).slotRank = s.slotRank := rfl
@[simp] theorem State.sb_view (s : State) (ts : List Tgt) (fl : Flags) (d : List (Nat × Bool)) (r : Option PRead) : (s.sb ts fl d r).view = s.view := rfl
@[simp] theorem State.sb_streams (s : State) (ts : List Tgt) (fl : Flags) (d : List (Nat × Bool)) (r : Option PRead) : (s.sb ts fl d r).streams = s.streams := rfl
@[simp] theorem State.sb_cores (s : State) (ts : List Tgt) (fl : Flags) (d : List (Nat × Bool)) (r : Option PRead) : (s.sb ts fl d r).cores = s.cores := rfl
@[simp] theorem State.sb_mem (s : State) (ts : List Tgt) (fl : Flags) (d : List (Nat × Bool)) (r : Option PRead) : (s.sb ts fl d r).mem = s.mem := rfl
@[simp] theorem State.sb_crews (s : State) (ts : List Tgt) (fl : Flags) (d : List (Nat × Bool)) (r : Option PRead) : (s.sb ts fl d r).crews = s.crews := rfl
@[simp] theorem State.sb_ops (s : State) (ts : List Tgt) (fl : Flags) (d : List (Nat × Bool)) (r : Option PRead) : (s.sb ts fl d r).ops = s.ops := rfl
@[simp] theorem State.sb_slices (s : State) (ts : List Tgt) (fl : Flags) (d : List (Nat × Bool)) (r : Option PRead) : (s.sb ts fl d r).slices = s.slices := rfl
@[simp] theorem State.sb_treqs (s : State) (ts : List Tgt) (fl : Flags) (d : List (Nat × Bool)) (r : Option PRead) : (s.sb ts fl d r).treqs = s.treqs := rfl
@[simp] theorem State.sb_front (s : State) (ts : List Tgt) (fl : Flags) (d : List (Nat × Bool)) (r : Option PRead) : (s.sb ts fl d r).front = s.front := rfl
@[simp] theorem State.sb_mgmt (s : State) (ts : List Tgt) (fl : Flags) (d : List (Nat × Bool)) (r : Option PRead) : (s.sb ts fl d r).mgmt = s.mgmt := rfl
@[simp] theorem State.sb_outs (s : State) (ts : List Tgt) (fl : Flags) (d : List (Nat × Bool)) (r : Option PRead) : (s.sb ts fl d r).outs = s.outs := rfl
@[simp] theorem State.sb_cur_ctx (s : State) (ts : List Tgt) (fl : Flags) (d : List (Nat × Bool)) (r : Option PRead) : (s.sb ts fl d r).cur.ctx = s.cur.ctx := rfl
@[simp] theorem State.sb_cur_slot (s : State) (ts : List Tgt) (fl : Flags) (d : List (Nat × Bool)) (r : Option PRead) : (s.sb ts fl d r).cur.slot = s.cur.slot := rfl
@[simp] theorem State.sb_cur_queue (s : State) (ts : List Tgt) (fl : Flags) (d : List (Nat × Bool)) (r : Option PRead) : (s.sb ts fl d r).cur.queue = s.cur.queue := rfl
@[simp] theorem State.sb_cur_serial (s : State) (ts : List Tgt) (fl : Flags) (d : List (Nat × Bool)) (r : Option PRead) : (s.sb ts fl d r).cur.serial = s.cur.serial := rfl
@[simp] theorem State.sb_cur_lid (s : State) (ts : List Tgt) (fl : Flags) (d : List (Nat × Bool)) (r : Option PRead) : (s.sb ts fl d r).cur.lid = s.cur.lid := rfl
@[simp] theorem State.sb_cur_task (s : State) (ts : List Tgt) (fl : Flags) (d : List (Nat × Bool)) (r : Option PRead) : (s.sb ts fl d r).cur.task = s.cur.task := rfl
@[simp] theorem State.sb_cur_step (s : State) (ts : List Tgt) (fl : Flags) (d : List (Nat × Bool)) (r : Option PRead) : (s.sb ts fl d r).cur.step = s.cur.step := rfl
@[simp] theorem State.sb_cur_tiles4 (s : State) (ts : List Tgt) (fl : Flags) (d : List (Nat × Bool)) (r : Option PRead) : (s.sb ts fl d r).cur.tiles4 = s.cur.tiles4 := rfl
@[simp] theorem State.sb_cur_pair (s : State) (ts : List Tgt) (fl : Flags) (d : List (Nat × Bool)) (r : Option PRead) : (s.sb ts fl d r).cur.pair = s.cur.pair := rfl
@[simp] theorem State.sb_cur_grans (s : State) (ts : List Tgt) (fl : Flags) (d : List (Nat × Bool)) (r : Option PRead) : (s.sb ts fl d r).cur.grans = s.cur.grans := rfl
@[simp] theorem State.sb_cur_widths (s : State) (ts : List Tgt) (fl : Flags) (d : List (Nat × Bool)) (r : Option PRead) : (s.sb ts fl d r).cur.widths = s.cur.widths := rfl
@[simp] theorem State.sb_cur_codebase (s : State) (ts : List Tgt) (fl : Flags) (d : List (Nat × Bool)) (r : Option PRead) : (s.sb ts fl d r).cur.codebase = s.cur.codebase := rfl
@[simp] theorem State.sb_cur_compat (s : State) (ts : List Tgt) (fl : Flags) (d : List (Nat × Bool)) (r : Option PRead) : (s.sb ts fl d r).cur.compat = s.cur.compat := rfl
@[simp] theorem State.sb_cur_sl (s : State) (ts : List Tgt) (fl : Flags) (d : List (Nat × Bool)) (r : Option PRead) : (s.sb ts fl d r).cur.sl = s.cur.sl := rfl
@[simp] theorem State.sb_cur_det (s : State) (ts : List Tgt) (fl : Flags) (d : List (Nat × Bool)) (r : Option PRead) : (s.sb ts fl d r).cur.det = s.cur.det := rfl
@[simp] theorem State.sb_cur_s (s : State) (ts : List Tgt) (fl : Flags) (d : List (Nat × Bool)) (r : Option PRead) : (s.sb ts fl d r).cur.s = s.cur.s := rfl
@[simp] theorem State.sb_cur_p (s : State) (ts : List Tgt) (fl : Flags) (d : List (Nat × Bool)) (r : Option PRead) : (s.sb ts fl d r).cur.p = s.cur.p := rfl
@[simp] theorem State.sb_cur_l (s : State) (ts : List Tgt) (fl : Flags) (d : List (Nat × Bool)) (r : Option PRead) : (s.sb ts fl d r).cur.l = s.cur.l := rfl
@[simp] theorem State.sb_cur_c (s : State) (ts : List Tgt) (fl : Flags) (d : List (Nat × Bool)) (r : Option PRead) : (s.sb ts fl d r).cur.c = s.cur.c := rfl
@[simp] theorem State.sb_cur_z (s : State) (ts : List Tgt) (fl : Flags) (d : List (Nat × Bool)) (r : Option PRead) : (s.sb ts fl d r).cur.z = s.cur.z := rfl
@[simp] theorem State.sb_cur_q (s : State) (ts : List Tgt) (fl : Flags) (d : List (Nat × Bool)) (r : Option PRead) : (s.sb ts fl d r).cur.q = s.cur.q := rfl
@[simp] theorem State.sb_cur_fmode (s : State) (ts : List Tgt) (fl : Flags) (d : List (Nat × Bool)) (r : Option PRead) : (s.sb ts fl d r).cur.fmode = s.cur.fmode := rfl
@[simp] theorem State.sb_cur_flags (s : State) (ts : List Tgt) (fl : Flags) (d : List (Nat × Bool)) (r : Option PRead) : (s.sb ts fl d r).cur.flags = s.cur.flags := rfl
@[simp] theorem State.sb_cur_lc (s : State) (ts : List Tgt) (fl : Flags) (d : List (Nat × Bool)) (r : Option PRead) : (s.sb ts fl d r).cur.lc = s.cur.lc := rfl
@[simp] theorem State.sb_cur_ec (s : State) (ts : List Tgt) (fl : Flags) (d : List (Nat × Bool)) (r : Option PRead) : (s.sb ts fl d r).cur.ec = s.cur.ec := rfl
@[simp] theorem State.sb_cur_rrb (s : State) (ts : List Tgt) (fl : Flags) (d : List (Nat × Bool)) (r : Option PRead) : (s.sb ts fl d r).cur.rrb = s.cur.rrb := rfl
@[simp] theorem State.sb_cur_efr (s : State) (ts : List Tgt) (fl : Flags) (d : List (Nat × Bool)) (r : Option PRead) : (s.sb ts fl d r).cur.efr = s.cur.efr := rfl
@[simp] theorem State.sb_cur_fewaitlim (s : State) (ts : List Tgt) (fl : Flags) (d : List (Nat × Bool)) (r : Option PRead) : (s.sb ts fl d r).cur.fewaitlim = s.cur.fewaitlim := rfl
@[simp] theorem State.sb_cur_latcnt (s : State) (ts : List Tgt) (fl : Flags) (d : List (Nat × Bool)) (r : Option PRead) : (s.sb ts fl d r).cur.latcnt = s.cur.latcnt := rfl
@[simp] theorem State.sb_cur_trappc (s : State) (ts : List Tgt) (fl : Flags) (d : List (Nat × Bool)) (r : Option PRead) : (s.sb ts fl d r).cur.trappc = s.cur.trappc := rfl
@[simp] theorem State.sb_cur_trapcause (s : State) (ts : List Tgt) (fl : Flags) (d : List (Nat × Bool)) (r : Option PRead) : (s.sb ts fl d r).cur.trapcause = s.cur.trapcause := rfl
@[simp] theorem State.sb_cur_trapaddr (s : State) (ts : List Tgt) (fl : Flags) (d : List (Nat × Bool)) (r : Option PRead) : (s.sb ts fl d r).cur.trapaddr = s.cur.trapaddr := rfl
@[simp] theorem State.sb_cur_trapinfo (s : State) (ts : List Tgt) (fl : Flags) (d : List (Nat × Bool)) (r : Option PRead) : (s.sb ts fl d r).cur.trapinfo = s.cur.trapinfo := rfl
@[simp] theorem State.sb_cur_tvec (s : State) (ts : List Tgt) (fl : Flags) (d : List (Nat × Bool)) (r : Option PRead) : (s.sb ts fl d r).cur.tvec = s.cur.tvec := rfl
@[simp] theorem State.sb_cur_dpb (s : State) (ts : List Tgt) (fl : Flags) (d : List (Nat × Bool)) (r : Option PRead) : (s.sb ts fl d r).cur.dpb = s.cur.dpb := rfl
@[simp] theorem State.sb_cur_wid (s : State) (ts : List Tgt) (fl : Flags) (d : List (Nat × Bool)) (r : Option PRead) : (s.sb ts fl d r).cur.wid = s.cur.wid := rfl
@[simp] theorem State.sb_cur_vrank (s : State) (ts : List Tgt) (fl : Flags) (d : List (Nat × Bool)) (r : Option PRead) : (s.sb ts fl d r).cur.vrank = s.cur.vrank := rfl
@[simp] theorem State.sb_cur_ctxid (s : State) (ts : List Tgt) (fl : Flags) (d : List (Nat × Bool)) (r : Option PRead) : (s.sb ts fl d r).cur.ctxid = s.cur.ctxid := rfl
@[simp] theorem State.sb_cur_heat (s : State) (ts : List Tgt) (fl : Flags) (d : List (Nat × Bool)) (r : Option PRead) : (s.sb ts fl d r).cur.heat = s.cur.heat := rfl
@[simp] theorem State.sb_cur_pc (s : State) (ts : List Tgt) (fl : Flags) (d : List (Nat × Bool)) (r : Option PRead) : (s.sb ts fl d r).cur.pc = s.cur.pc := rfl
@[simp] theorem State.sb_cur_npc (s : State) (ts : List Tgt) (fl : Flags) (d : List (Nat × Bool)) (r : Option PRead) : (s.sb ts fl d r).cur.npc = s.cur.npc := rfl
@[simp] theorem State.sb_cur_pos (s : State) (ts : List Tgt) (fl : Flags) (d : List (Nat × Bool)) (r : Option PRead) : (s.sb ts fl d r).cur.pos = s.cur.pos := rfl
@[simp] theorem State.sb_cur_bundle (s : State) (ts : List Tgt) (fl : Flags) (d : List (Nat × Bool)) (r : Option PRead) : (s.sb ts fl d r).cur.bundle = s.cur.bundle := rfl
@[simp] theorem State.sb_cur_land (s : State) (ts : List Tgt) (fl : Flags) (d : List (Nat × Bool)) (r : Option PRead) : (s.sb ts fl d r).cur.land = s.cur.land := rfl
@[simp] theorem State.sb_cur_code (s : State) (ts : List Tgt) (fl : Flags) (d : List (Nat × Bool)) (r : Option PRead) : (s.sb ts fl d r).cur.code = s.cur.code := rfl
@[simp] theorem State.sb_cur_handler (s : State) (ts : List Tgt) (fl : Flags) (d : List (Nat × Bool)) (r : Option PRead) : (s.sb ts fl d r).cur.handler = s.cur.handler := rfl
@[simp] theorem State.sb_cur_async (s : State) (ts : List Tgt) (fl : Flags) (d : List (Nat × Bool)) (r : Option PRead) : (s.sb ts fl d r).cur.async = s.cur.async := rfl
@[simp] theorem State.sb_cur_btrap (s : State) (ts : List Tgt) (fl : Flags) (d : List (Nat × Bool)) (r : Option PRead) : (s.sb ts fl d r).cur.btrap = s.cur.btrap := rfl
@[simp] theorem State.sb_cur_ending (s : State) (ts : List Tgt) (fl : Flags) (d : List (Nat × Bool)) (r : Option PRead) : (s.sb ts fl d r).cur.ending = s.cur.ending := rfl
@[simp] theorem State.sb_cur_mark (s : State) (ts : List Tgt) (fl : Flags) (d : List (Nat × Bool)) (r : Option PRead) : (s.sb ts fl d r).cur.mark = s.cur.mark := rfl
@[simp] theorem State.sb_cur_lgran (s : State) (ts : List Tgt) (fl : Flags) (d : List (Nat × Bool)) (r : Option PRead) : (s.sb ts fl d r).cur.lgran = s.cur.lgran := rfl
@[simp] theorem State.sb_cur_recv (s : State) (ts : List Tgt) (fl : Flags) (d : List (Nat × Bool)) (r : Option PRead) : (s.sb ts fl d r).cur.recv = s.cur.recv := rfl
@[simp] theorem State.sb_cur_rings (s : State) (ts : List Tgt) (fl : Flags) (d : List (Nat × Bool)) (r : Option PRead) : (s.sb ts fl d r).cur.rings = s.cur.rings := rfl
@[simp] theorem State.sb_cur_blks (s : State) (ts : List Tgt) (fl : Flags) (d : List (Nat × Bool)) (r : Option PRead) : (s.sb ts fl d r).cur.blks = s.cur.blks := rfl
@[simp] theorem State.sb_cur_hold (s : State) (ts : List Tgt) (fl : Flags) (d : List (Nat × Bool)) (r : Option PRead) : (s.sb ts fl d r).cur.hold = s.cur.hold := rfl
@[simp] theorem State.sb_cur_winHeld (s : State) (ts : List Tgt) (fl : Flags) (d : List (Nat × Bool)) (r : Option PRead) : (s.sb ts fl d r).cur.winHeld = s.cur.winHeld := rfl
@[simp] theorem State.sb_cur_win (s : State) (ts : List Tgt) (fl : Flags) (d : List (Nat × Bool)) (r : Option PRead) : (s.sb ts fl d r).cur.win = s.cur.win := rfl
@[simp] theorem State.sb_cur_winAgent (s : State) (ts : List Tgt) (fl : Flags) (d : List (Nat × Bool)) (r : Option PRead) : (s.sb ts fl d r).cur.winAgent = s.cur.winAgent := rfl
@[simp] theorem State.sb_cur_flushing (s : State) (ts : List Tgt) (fl : Flags) (d : List (Nat × Bool)) (r : Option PRead) : (s.sb ts fl d r).cur.flushing = s.cur.flushing := rfl
@[simp] theorem State.sb_cur_waitCyc (s : State) (ts : List Tgt) (fl : Flags) (d : List (Nat × Bool)) (r : Option PRead) : (s.sb ts fl d r).cur.waitCyc = s.cur.waitCyc := rfl
@[simp] theorem State.sb_cur_fixed (s : State) (ts : List Tgt) (fl : Flags) (d : List (Nat × Bool)) (r : Option PRead) : (s.sb ts fl d r).cur.fixed = s.cur.fixed := rfl
@[simp] theorem State.sb_cur_refused (s : State) (ts : List Tgt) (fl : Flags) (d : List (Nat × Bool)) (r : Option PRead) : (s.sb ts fl d r).cur.refused = s.cur.refused := rfl
@[simp] theorem State.sb_cur_halted (s : State) (ts : List Tgt) (fl : Flags) (d : List (Nat × Bool)) (r : Option PRead) : (s.sb ts fl d r).cur.halted = s.cur.halted := rfl
@[simp] theorem State.sb_cur_haltReq (s : State) (ts : List Tgt) (fl : Flags) (d : List (Nat × Bool)) (r : Option PRead) : (s.sb ts fl d r).cur.haltReq = s.cur.haltReq := rfl
@[simp] theorem State.sb_cur_stepOne (s : State) (ts : List Tgt) (fl : Flags) (d : List (Nat × Bool)) (r : Option PRead) : (s.sb ts fl d r).cur.stepOne = s.cur.stepOne := rfl
@[simp] theorem State.sb_cur_skipBp (s : State) (ts : List Tgt) (fl : Flags) (d : List (Nat × Bool)) (r : Option PRead) : (s.sb ts fl d r).cur.skipBp = s.cur.skipBp := rfl
@[simp] theorem State.sb_cur_pre (s : State) (ts : List Tgt) (fl : Flags) (d : List (Nat × Bool)) (r : Option PRead) : (s.sb ts fl d r).cur.pre = s.cur.pre := rfl
@[simp] theorem State.sb_cur_preSince (s : State) (ts : List Tgt) (fl : Flags) (d : List (Nat × Bool)) (r : Option PRead) : (s.sb ts fl d r).cur.preSince = s.cur.preSince := rfl
@[simp] theorem State.sb_cur_stopped (s : State) (ts : List Tgt) (fl : Flags) (d : List (Nat × Bool)) (r : Option PRead) : (s.sb ts fl d r).cur.stopped = s.cur.stopped := rfl
@[simp] theorem State.sb_cur_atDrain (s : State) (ts : List Tgt) (fl : Flags) (d : List (Nat × Bool)) (r : Option PRead) : (s.sb ts fl d r).cur.atDrain = s.cur.atDrain := rfl
@[simp] theorem State.sb_cur_stopAt (s : State) (ts : List Tgt) (fl : Flags) (d : List (Nat × Bool)) (r : Option PRead) : (s.sb ts fl d r).cur.stopAt = s.cur.stopAt := rfl
@[simp] theorem State.sb_cur_sliceAt (s : State) (ts : List Tgt) (fl : Flags) (d : List (Nat × Bool)) (r : Option PRead) : (s.sb ts fl d r).cur.sliceAt = s.cur.sliceAt := rfl
@[simp] theorem State.sb_cur_succ (s : State) (ts : List Tgt) (fl : Flags) (d : List (Nat × Bool)) (r : Option PRead) : (s.sb ts fl d r).cur.succ = s.cur.succ := rfl
@[simp] theorem State.sb_cur_starved (s : State) (ts : List Tgt) (fl : Flags) (d : List (Nat × Bool)) (r : Option PRead) : (s.sb ts fl d r).cur.starved = s.cur.starved := rfl
@[simp] theorem State.sb_cur_obs (s : State) (ts : List Tgt) (fl : Flags) (d : List (Nat × Bool)) (r : Option PRead) : (s.sb ts fl d r).cur.obs = s.cur.obs := rfl
@[simp] theorem State.sb_cur_heard (s : State) (ts : List Tgt) (fl : Flags) (d : List (Nat × Bool)) (r : Option PRead) : (s.sb ts fl d r).cur.heard = s.cur.heard := rfl
@[simp] theorem State.sb_cur_fences (s : State) (ts : List Tgt) (fl : Flags) (d : List (Nat × Bool)) (r : Option PRead) : (s.sb ts fl d r).cur.fences = s.cur.fences := rfl

@[simp] theorem State.sb_cur_pend (s : State) (ts : List Tgt) (fl : Flags) (d : List (Nat × Bool)) (r : Option PRead) :
    (s.sb ts fl d r).cur.pend = s.cur.pend ++ [⟨s.nextId, s.cur.pos, ts, fl, d.map (fun q => { pa := q.1, lat := q.2 }), r⟩] := rfl
@[simp] theorem State.sb_nextId (s : State) (ts : List Tgt) (fl : Flags) (d : List (Nat × Bool)) (r : Option PRead) :
    (s.sb ts fl d r).nextId = s.nextId + 1 := rfl

/-! A jump (R148) changes only where the next bundle stands. -/

@[simp] theorem State.jump_tick (s : State) (a : Word64) : (s.jump a).tick = s.tick := rfl
@[simp] theorem State.jump_cycle (s : State) (a : Word64) : (s.jump a).cycle = s.cycle := rfl
@[simp] theorem State.jump_nextId (s : State) (a : Word64) : (s.jump a).nextId = s.nextId := rfl
@[simp] theorem State.jump_late (s : State) (a : Word64) : (s.jump a).late = s.late := rfl
@[simp] theorem State.jump_inbox (s : State) (a : Word64) : (s.jump a).inbox = s.inbox := rfl
@[simp] theorem State.jump_curKey (s : State) (a : Word64) : (s.jump a).curKey = s.curKey := rfl
@[simp] theorem State.jump_curLive (s : State) (a : Word64) : (s.jump a).curLive = s.curLive := rfl
@[simp] theorem State.jump_core (s : State) (a : Word64) : (s.jump a).core = s.core := rfl
@[simp] theorem State.jump_slotRank (s : State) (a : Word64) : (s.jump a).slotRank = s.slotRank := rfl
@[simp] theorem State.jump_view (s : State) (a : Word64) : (s.jump a).view = s.view := rfl
@[simp] theorem State.jump_streams (s : State) (a : Word64) : (s.jump a).streams = s.streams := rfl
@[simp] theorem State.jump_cores (s : State) (a : Word64) : (s.jump a).cores = s.cores := rfl
@[simp] theorem State.jump_mem (s : State) (a : Word64) : (s.jump a).mem = s.mem := rfl
@[simp] theorem State.jump_crews (s : State) (a : Word64) : (s.jump a).crews = s.crews := rfl
@[simp] theorem State.jump_ops (s : State) (a : Word64) : (s.jump a).ops = s.ops := rfl
@[simp] theorem State.jump_slices (s : State) (a : Word64) : (s.jump a).slices = s.slices := rfl
@[simp] theorem State.jump_treqs (s : State) (a : Word64) : (s.jump a).treqs = s.treqs := rfl
@[simp] theorem State.jump_front (s : State) (a : Word64) : (s.jump a).front = s.front := rfl
@[simp] theorem State.jump_mgmt (s : State) (a : Word64) : (s.jump a).mgmt = s.mgmt := rfl
@[simp] theorem State.jump_outs (s : State) (a : Word64) : (s.jump a).outs = s.outs := rfl
@[simp] theorem State.jump_cur_ctx (s : State) (a : Word64) : (s.jump a).cur.ctx = s.cur.ctx := rfl
@[simp] theorem State.jump_cur_slot (s : State) (a : Word64) : (s.jump a).cur.slot = s.cur.slot := rfl
@[simp] theorem State.jump_cur_queue (s : State) (a : Word64) : (s.jump a).cur.queue = s.cur.queue := rfl
@[simp] theorem State.jump_cur_serial (s : State) (a : Word64) : (s.jump a).cur.serial = s.cur.serial := rfl
@[simp] theorem State.jump_cur_lid (s : State) (a : Word64) : (s.jump a).cur.lid = s.cur.lid := rfl
@[simp] theorem State.jump_cur_task (s : State) (a : Word64) : (s.jump a).cur.task = s.cur.task := rfl
@[simp] theorem State.jump_cur_step (s : State) (a : Word64) : (s.jump a).cur.step = s.cur.step := rfl
@[simp] theorem State.jump_cur_tiles4 (s : State) (a : Word64) : (s.jump a).cur.tiles4 = s.cur.tiles4 := rfl
@[simp] theorem State.jump_cur_pair (s : State) (a : Word64) : (s.jump a).cur.pair = s.cur.pair := rfl
@[simp] theorem State.jump_cur_grans (s : State) (a : Word64) : (s.jump a).cur.grans = s.cur.grans := rfl
@[simp] theorem State.jump_cur_widths (s : State) (a : Word64) : (s.jump a).cur.widths = s.cur.widths := rfl
@[simp] theorem State.jump_cur_codebase (s : State) (a : Word64) : (s.jump a).cur.codebase = s.cur.codebase := rfl
@[simp] theorem State.jump_cur_compat (s : State) (a : Word64) : (s.jump a).cur.compat = s.cur.compat := rfl
@[simp] theorem State.jump_cur_sl (s : State) (a : Word64) : (s.jump a).cur.sl = s.cur.sl := rfl
@[simp] theorem State.jump_cur_det (s : State) (a : Word64) : (s.jump a).cur.det = s.cur.det := rfl
@[simp] theorem State.jump_cur_s (s : State) (a : Word64) : (s.jump a).cur.s = s.cur.s := rfl
@[simp] theorem State.jump_cur_p (s : State) (a : Word64) : (s.jump a).cur.p = s.cur.p := rfl
@[simp] theorem State.jump_cur_l (s : State) (a : Word64) : (s.jump a).cur.l = s.cur.l := rfl
@[simp] theorem State.jump_cur_c (s : State) (a : Word64) : (s.jump a).cur.c = s.cur.c := rfl
@[simp] theorem State.jump_cur_z (s : State) (a : Word64) : (s.jump a).cur.z = s.cur.z := rfl
@[simp] theorem State.jump_cur_q (s : State) (a : Word64) : (s.jump a).cur.q = s.cur.q := rfl
@[simp] theorem State.jump_cur_fmode (s : State) (a : Word64) : (s.jump a).cur.fmode = s.cur.fmode := rfl
@[simp] theorem State.jump_cur_flags (s : State) (a : Word64) : (s.jump a).cur.flags = s.cur.flags := rfl
@[simp] theorem State.jump_cur_lc (s : State) (a : Word64) : (s.jump a).cur.lc = s.cur.lc := rfl
@[simp] theorem State.jump_cur_ec (s : State) (a : Word64) : (s.jump a).cur.ec = s.cur.ec := rfl
@[simp] theorem State.jump_cur_rrb (s : State) (a : Word64) : (s.jump a).cur.rrb = s.cur.rrb := rfl
@[simp] theorem State.jump_cur_efr (s : State) (a : Word64) : (s.jump a).cur.efr = s.cur.efr := rfl
@[simp] theorem State.jump_cur_fewaitlim (s : State) (a : Word64) : (s.jump a).cur.fewaitlim = s.cur.fewaitlim := rfl
@[simp] theorem State.jump_cur_latcnt (s : State) (a : Word64) : (s.jump a).cur.latcnt = s.cur.latcnt := rfl
@[simp] theorem State.jump_cur_trappc (s : State) (a : Word64) : (s.jump a).cur.trappc = s.cur.trappc := rfl
@[simp] theorem State.jump_cur_trapcause (s : State) (a : Word64) : (s.jump a).cur.trapcause = s.cur.trapcause := rfl
@[simp] theorem State.jump_cur_trapaddr (s : State) (a : Word64) : (s.jump a).cur.trapaddr = s.cur.trapaddr := rfl
@[simp] theorem State.jump_cur_trapinfo (s : State) (a : Word64) : (s.jump a).cur.trapinfo = s.cur.trapinfo := rfl
@[simp] theorem State.jump_cur_tvec (s : State) (a : Word64) : (s.jump a).cur.tvec = s.cur.tvec := rfl
@[simp] theorem State.jump_cur_dpb (s : State) (a : Word64) : (s.jump a).cur.dpb = s.cur.dpb := rfl
@[simp] theorem State.jump_cur_wid (s : State) (a : Word64) : (s.jump a).cur.wid = s.cur.wid := rfl
@[simp] theorem State.jump_cur_vrank (s : State) (a : Word64) : (s.jump a).cur.vrank = s.cur.vrank := rfl
@[simp] theorem State.jump_cur_ctxid (s : State) (a : Word64) : (s.jump a).cur.ctxid = s.cur.ctxid := rfl
@[simp] theorem State.jump_cur_heat (s : State) (a : Word64) : (s.jump a).cur.heat = s.cur.heat := rfl
@[simp] theorem State.jump_cur_pc (s : State) (a : Word64) : (s.jump a).cur.pc = s.cur.pc := rfl
@[simp] theorem State.jump_cur_pos (s : State) (a : Word64) : (s.jump a).cur.pos = s.cur.pos := rfl
@[simp] theorem State.jump_cur_bundle (s : State) (a : Word64) : (s.jump a).cur.bundle = s.cur.bundle := rfl
@[simp] theorem State.jump_cur_land (s : State) (a : Word64) : (s.jump a).cur.land = s.cur.land := rfl
@[simp] theorem State.jump_cur_pend (s : State) (a : Word64) : (s.jump a).cur.pend = s.cur.pend := rfl
@[simp] theorem State.jump_cur_code (s : State) (a : Word64) : (s.jump a).cur.code = s.cur.code := rfl
@[simp] theorem State.jump_cur_handler (s : State) (a : Word64) : (s.jump a).cur.handler = s.cur.handler := rfl
@[simp] theorem State.jump_cur_async (s : State) (a : Word64) : (s.jump a).cur.async = s.cur.async := rfl
@[simp] theorem State.jump_cur_btrap (s : State) (a : Word64) : (s.jump a).cur.btrap = s.cur.btrap := rfl
@[simp] theorem State.jump_cur_ending (s : State) (a : Word64) : (s.jump a).cur.ending = s.cur.ending := rfl
@[simp] theorem State.jump_cur_mark (s : State) (a : Word64) : (s.jump a).cur.mark = s.cur.mark := rfl
@[simp] theorem State.jump_cur_lgran (s : State) (a : Word64) : (s.jump a).cur.lgran = s.cur.lgran := rfl
@[simp] theorem State.jump_cur_recv (s : State) (a : Word64) : (s.jump a).cur.recv = s.cur.recv := rfl
@[simp] theorem State.jump_cur_rings (s : State) (a : Word64) : (s.jump a).cur.rings = s.cur.rings := rfl
@[simp] theorem State.jump_cur_blks (s : State) (a : Word64) : (s.jump a).cur.blks = s.cur.blks := rfl
@[simp] theorem State.jump_cur_hold (s : State) (a : Word64) : (s.jump a).cur.hold = s.cur.hold := rfl
@[simp] theorem State.jump_cur_winHeld (s : State) (a : Word64) : (s.jump a).cur.winHeld = s.cur.winHeld := rfl
@[simp] theorem State.jump_cur_win (s : State) (a : Word64) : (s.jump a).cur.win = s.cur.win := rfl
@[simp] theorem State.jump_cur_winAgent (s : State) (a : Word64) : (s.jump a).cur.winAgent = s.cur.winAgent := rfl
@[simp] theorem State.jump_cur_flushing (s : State) (a : Word64) : (s.jump a).cur.flushing = s.cur.flushing := rfl
@[simp] theorem State.jump_cur_waitCyc (s : State) (a : Word64) : (s.jump a).cur.waitCyc = s.cur.waitCyc := rfl
@[simp] theorem State.jump_cur_fixed (s : State) (a : Word64) : (s.jump a).cur.fixed = s.cur.fixed := rfl
@[simp] theorem State.jump_cur_refused (s : State) (a : Word64) : (s.jump a).cur.refused = s.cur.refused := rfl
@[simp] theorem State.jump_cur_halted (s : State) (a : Word64) : (s.jump a).cur.halted = s.cur.halted := rfl
@[simp] theorem State.jump_cur_haltReq (s : State) (a : Word64) : (s.jump a).cur.haltReq = s.cur.haltReq := rfl
@[simp] theorem State.jump_cur_stepOne (s : State) (a : Word64) : (s.jump a).cur.stepOne = s.cur.stepOne := rfl
@[simp] theorem State.jump_cur_skipBp (s : State) (a : Word64) : (s.jump a).cur.skipBp = s.cur.skipBp := rfl
@[simp] theorem State.jump_cur_pre (s : State) (a : Word64) : (s.jump a).cur.pre = s.cur.pre := rfl
@[simp] theorem State.jump_cur_preSince (s : State) (a : Word64) : (s.jump a).cur.preSince = s.cur.preSince := rfl
@[simp] theorem State.jump_cur_stopped (s : State) (a : Word64) : (s.jump a).cur.stopped = s.cur.stopped := rfl
@[simp] theorem State.jump_cur_atDrain (s : State) (a : Word64) : (s.jump a).cur.atDrain = s.cur.atDrain := rfl
@[simp] theorem State.jump_cur_stopAt (s : State) (a : Word64) : (s.jump a).cur.stopAt = s.cur.stopAt := rfl
@[simp] theorem State.jump_cur_sliceAt (s : State) (a : Word64) : (s.jump a).cur.sliceAt = s.cur.sliceAt := rfl
@[simp] theorem State.jump_cur_succ (s : State) (a : Word64) : (s.jump a).cur.succ = s.cur.succ := rfl
@[simp] theorem State.jump_cur_starved (s : State) (a : Word64) : (s.jump a).cur.starved = s.cur.starved := rfl
@[simp] theorem State.jump_cur_obs (s : State) (a : Word64) : (s.jump a).cur.obs = s.cur.obs := rfl
@[simp] theorem State.jump_cur_heard (s : State) (a : Word64) : (s.jump a).cur.heard = s.cur.heard := rfl
@[simp] theorem State.jump_cur_fences (s : State) (a : Word64) : (s.jump a).cur.fences = s.cur.fences := rfl

@[simp] theorem State.jump_cur_npc (s : State) (a : Word64) : (s.jump a).cur.npc = a := rfl

/-! Returning from a trap (R155) changes the mode and where the next bundle stands. -/

@[simp] theorem State.leaveTrap_tick (s : State) : (s.leaveTrap).tick = s.tick := rfl
@[simp] theorem State.leaveTrap_cycle (s : State) : (s.leaveTrap).cycle = s.cycle := rfl
@[simp] theorem State.leaveTrap_nextId (s : State) : (s.leaveTrap).nextId = s.nextId := rfl
@[simp] theorem State.leaveTrap_late (s : State) : (s.leaveTrap).late = s.late := rfl
@[simp] theorem State.leaveTrap_inbox (s : State) : (s.leaveTrap).inbox = s.inbox := rfl
@[simp] theorem State.leaveTrap_curKey (s : State) : (s.leaveTrap).curKey = s.curKey := rfl
@[simp] theorem State.leaveTrap_curLive (s : State) : (s.leaveTrap).curLive = s.curLive := rfl
@[simp] theorem State.leaveTrap_core (s : State) : (s.leaveTrap).core = s.core := rfl
@[simp] theorem State.leaveTrap_slotRank (s : State) : (s.leaveTrap).slotRank = s.slotRank := rfl
@[simp] theorem State.leaveTrap_view (s : State) : (s.leaveTrap).view = s.view := rfl
@[simp] theorem State.leaveTrap_streams (s : State) : (s.leaveTrap).streams = s.streams := rfl
@[simp] theorem State.leaveTrap_cores (s : State) : (s.leaveTrap).cores = s.cores := rfl
@[simp] theorem State.leaveTrap_mem (s : State) : (s.leaveTrap).mem = s.mem := rfl
@[simp] theorem State.leaveTrap_crews (s : State) : (s.leaveTrap).crews = s.crews := rfl
@[simp] theorem State.leaveTrap_ops (s : State) : (s.leaveTrap).ops = s.ops := rfl
@[simp] theorem State.leaveTrap_slices (s : State) : (s.leaveTrap).slices = s.slices := rfl
@[simp] theorem State.leaveTrap_treqs (s : State) : (s.leaveTrap).treqs = s.treqs := rfl
@[simp] theorem State.leaveTrap_front (s : State) : (s.leaveTrap).front = s.front := rfl
@[simp] theorem State.leaveTrap_mgmt (s : State) : (s.leaveTrap).mgmt = s.mgmt := rfl
@[simp] theorem State.leaveTrap_outs (s : State) : (s.leaveTrap).outs = s.outs := rfl
@[simp] theorem State.leaveTrap_cur_ctx (s : State) : (s.leaveTrap).cur.ctx = s.cur.ctx := rfl
@[simp] theorem State.leaveTrap_cur_slot (s : State) : (s.leaveTrap).cur.slot = s.cur.slot := rfl
@[simp] theorem State.leaveTrap_cur_queue (s : State) : (s.leaveTrap).cur.queue = s.cur.queue := rfl
@[simp] theorem State.leaveTrap_cur_serial (s : State) : (s.leaveTrap).cur.serial = s.cur.serial := rfl
@[simp] theorem State.leaveTrap_cur_lid (s : State) : (s.leaveTrap).cur.lid = s.cur.lid := rfl
@[simp] theorem State.leaveTrap_cur_task (s : State) : (s.leaveTrap).cur.task = s.cur.task := rfl
@[simp] theorem State.leaveTrap_cur_step (s : State) : (s.leaveTrap).cur.step = s.cur.step := rfl
@[simp] theorem State.leaveTrap_cur_tiles4 (s : State) : (s.leaveTrap).cur.tiles4 = s.cur.tiles4 := rfl
@[simp] theorem State.leaveTrap_cur_pair (s : State) : (s.leaveTrap).cur.pair = s.cur.pair := rfl
@[simp] theorem State.leaveTrap_cur_grans (s : State) : (s.leaveTrap).cur.grans = s.cur.grans := rfl
@[simp] theorem State.leaveTrap_cur_widths (s : State) : (s.leaveTrap).cur.widths = s.cur.widths := rfl
@[simp] theorem State.leaveTrap_cur_codebase (s : State) : (s.leaveTrap).cur.codebase = s.cur.codebase := rfl
@[simp] theorem State.leaveTrap_cur_compat (s : State) : (s.leaveTrap).cur.compat = s.cur.compat := rfl
@[simp] theorem State.leaveTrap_cur_sl (s : State) : (s.leaveTrap).cur.sl = s.cur.sl := rfl
@[simp] theorem State.leaveTrap_cur_det (s : State) : (s.leaveTrap).cur.det = s.cur.det := rfl
@[simp] theorem State.leaveTrap_cur_s (s : State) : (s.leaveTrap).cur.s = s.cur.s := rfl
@[simp] theorem State.leaveTrap_cur_p (s : State) : (s.leaveTrap).cur.p = s.cur.p := rfl
@[simp] theorem State.leaveTrap_cur_l (s : State) : (s.leaveTrap).cur.l = s.cur.l := rfl
@[simp] theorem State.leaveTrap_cur_c (s : State) : (s.leaveTrap).cur.c = s.cur.c := rfl
@[simp] theorem State.leaveTrap_cur_z (s : State) : (s.leaveTrap).cur.z = s.cur.z := rfl
@[simp] theorem State.leaveTrap_cur_q (s : State) : (s.leaveTrap).cur.q = s.cur.q := rfl
@[simp] theorem State.leaveTrap_cur_fmode (s : State) : (s.leaveTrap).cur.fmode = s.cur.fmode := rfl
@[simp] theorem State.leaveTrap_cur_flags (s : State) : (s.leaveTrap).cur.flags = s.cur.flags := rfl
@[simp] theorem State.leaveTrap_cur_lc (s : State) : (s.leaveTrap).cur.lc = s.cur.lc := rfl
@[simp] theorem State.leaveTrap_cur_ec (s : State) : (s.leaveTrap).cur.ec = s.cur.ec := rfl
@[simp] theorem State.leaveTrap_cur_rrb (s : State) : (s.leaveTrap).cur.rrb = s.cur.rrb := rfl
@[simp] theorem State.leaveTrap_cur_efr (s : State) : (s.leaveTrap).cur.efr = s.cur.efr := rfl
@[simp] theorem State.leaveTrap_cur_fewaitlim (s : State) : (s.leaveTrap).cur.fewaitlim = s.cur.fewaitlim := rfl
@[simp] theorem State.leaveTrap_cur_latcnt (s : State) : (s.leaveTrap).cur.latcnt = s.cur.latcnt := rfl
@[simp] theorem State.leaveTrap_cur_trappc (s : State) : (s.leaveTrap).cur.trappc = s.cur.trappc := rfl
@[simp] theorem State.leaveTrap_cur_trapcause (s : State) : (s.leaveTrap).cur.trapcause = s.cur.trapcause := rfl
@[simp] theorem State.leaveTrap_cur_trapaddr (s : State) : (s.leaveTrap).cur.trapaddr = s.cur.trapaddr := rfl
@[simp] theorem State.leaveTrap_cur_trapinfo (s : State) : (s.leaveTrap).cur.trapinfo = s.cur.trapinfo := rfl
@[simp] theorem State.leaveTrap_cur_tvec (s : State) : (s.leaveTrap).cur.tvec = s.cur.tvec := rfl
@[simp] theorem State.leaveTrap_cur_dpb (s : State) : (s.leaveTrap).cur.dpb = s.cur.dpb := rfl
@[simp] theorem State.leaveTrap_cur_wid (s : State) : (s.leaveTrap).cur.wid = s.cur.wid := rfl
@[simp] theorem State.leaveTrap_cur_vrank (s : State) : (s.leaveTrap).cur.vrank = s.cur.vrank := rfl
@[simp] theorem State.leaveTrap_cur_ctxid (s : State) : (s.leaveTrap).cur.ctxid = s.cur.ctxid := rfl
@[simp] theorem State.leaveTrap_cur_heat (s : State) : (s.leaveTrap).cur.heat = s.cur.heat := rfl
@[simp] theorem State.leaveTrap_cur_pc (s : State) : (s.leaveTrap).cur.pc = s.cur.pc := rfl
@[simp] theorem State.leaveTrap_cur_pos (s : State) : (s.leaveTrap).cur.pos = s.cur.pos := rfl
@[simp] theorem State.leaveTrap_cur_bundle (s : State) : (s.leaveTrap).cur.bundle = s.cur.bundle := rfl
@[simp] theorem State.leaveTrap_cur_land (s : State) : (s.leaveTrap).cur.land = s.cur.land := rfl
@[simp] theorem State.leaveTrap_cur_pend (s : State) : (s.leaveTrap).cur.pend = s.cur.pend := rfl
@[simp] theorem State.leaveTrap_cur_code (s : State) : (s.leaveTrap).cur.code = s.cur.code := rfl
@[simp] theorem State.leaveTrap_cur_async (s : State) : (s.leaveTrap).cur.async = s.cur.async := rfl
@[simp] theorem State.leaveTrap_cur_btrap (s : State) : (s.leaveTrap).cur.btrap = s.cur.btrap := rfl
@[simp] theorem State.leaveTrap_cur_ending (s : State) : (s.leaveTrap).cur.ending = s.cur.ending := rfl
@[simp] theorem State.leaveTrap_cur_mark (s : State) : (s.leaveTrap).cur.mark = s.cur.mark := rfl
@[simp] theorem State.leaveTrap_cur_lgran (s : State) : (s.leaveTrap).cur.lgran = s.cur.lgran := rfl
@[simp] theorem State.leaveTrap_cur_recv (s : State) : (s.leaveTrap).cur.recv = s.cur.recv := rfl
@[simp] theorem State.leaveTrap_cur_rings (s : State) : (s.leaveTrap).cur.rings = s.cur.rings := rfl
@[simp] theorem State.leaveTrap_cur_blks (s : State) : (s.leaveTrap).cur.blks = s.cur.blks := rfl
@[simp] theorem State.leaveTrap_cur_hold (s : State) : (s.leaveTrap).cur.hold = s.cur.hold := rfl
@[simp] theorem State.leaveTrap_cur_winHeld (s : State) : (s.leaveTrap).cur.winHeld = s.cur.winHeld := rfl
@[simp] theorem State.leaveTrap_cur_win (s : State) : (s.leaveTrap).cur.win = s.cur.win := rfl
@[simp] theorem State.leaveTrap_cur_winAgent (s : State) : (s.leaveTrap).cur.winAgent = s.cur.winAgent := rfl
@[simp] theorem State.leaveTrap_cur_flushing (s : State) : (s.leaveTrap).cur.flushing = s.cur.flushing := rfl
@[simp] theorem State.leaveTrap_cur_waitCyc (s : State) : (s.leaveTrap).cur.waitCyc = s.cur.waitCyc := rfl
@[simp] theorem State.leaveTrap_cur_fixed (s : State) : (s.leaveTrap).cur.fixed = s.cur.fixed := rfl
@[simp] theorem State.leaveTrap_cur_refused (s : State) : (s.leaveTrap).cur.refused = s.cur.refused := rfl
@[simp] theorem State.leaveTrap_cur_halted (s : State) : (s.leaveTrap).cur.halted = s.cur.halted := rfl
@[simp] theorem State.leaveTrap_cur_haltReq (s : State) : (s.leaveTrap).cur.haltReq = s.cur.haltReq := rfl
@[simp] theorem State.leaveTrap_cur_stepOne (s : State) : (s.leaveTrap).cur.stepOne = s.cur.stepOne := rfl
@[simp] theorem State.leaveTrap_cur_skipBp (s : State) : (s.leaveTrap).cur.skipBp = s.cur.skipBp := rfl
@[simp] theorem State.leaveTrap_cur_pre (s : State) : (s.leaveTrap).cur.pre = s.cur.pre := rfl
@[simp] theorem State.leaveTrap_cur_preSince (s : State) : (s.leaveTrap).cur.preSince = s.cur.preSince := rfl
@[simp] theorem State.leaveTrap_cur_stopped (s : State) : (s.leaveTrap).cur.stopped = s.cur.stopped := rfl
@[simp] theorem State.leaveTrap_cur_atDrain (s : State) : (s.leaveTrap).cur.atDrain = s.cur.atDrain := rfl
@[simp] theorem State.leaveTrap_cur_stopAt (s : State) : (s.leaveTrap).cur.stopAt = s.cur.stopAt := rfl
@[simp] theorem State.leaveTrap_cur_sliceAt (s : State) : (s.leaveTrap).cur.sliceAt = s.cur.sliceAt := rfl
@[simp] theorem State.leaveTrap_cur_succ (s : State) : (s.leaveTrap).cur.succ = s.cur.succ := rfl
@[simp] theorem State.leaveTrap_cur_starved (s : State) : (s.leaveTrap).cur.starved = s.cur.starved := rfl
@[simp] theorem State.leaveTrap_cur_obs (s : State) : (s.leaveTrap).cur.obs = s.cur.obs := rfl
@[simp] theorem State.leaveTrap_cur_heard (s : State) : (s.leaveTrap).cur.heard = s.cur.heard := rfl
@[simp] theorem State.leaveTrap_cur_fences (s : State) : (s.leaveTrap).cur.fences = s.cur.fences := rfl

@[simp] theorem State.leaveTrap_cur_npc (s : State) : s.leaveTrap.cur.npc = s.cur.trappc.setWidth 64 := rfl
@[simp] theorem State.leaveTrap_cur_handler (s : State) : s.leaveTrap.cur.handler = false := rfl

end Sys2Proof.Machine
end

