-- ==== Sys2Proof/Laws/Ops.lean ====
section
/-! SUPPORT. What the shared operations can do, each said once. -/

namespace Sys2Proof.Machine

/-- A slot's issue never faults and never refuses: it answers a next state. -/
theorem finish_next (s : State) (r : Res) : ∃ t, finish s r = .next t := by
  cases r <;> exact ⟨_, rfl⟩

@[simp] theorem finish_ok (s t : State) : finish s (.ok t) = .next t := rfl

@[simp] theorem finish_trap (s : State) (t : TrapRec) : finish s (.trap t) = .next (s.enterTrap t s.cur.pc) := rfl

@[simp] theorem orTrap_ok {α : Type} (a : α) (f : α → Res) : orTrap (.ok a) f = f a := rfl

@[simp] theorem orTrap_error {α : Type} (t : TrapRec) (f : α → Res) : orTrap (.error t) f = .trap t := rfl

/-- Outside a hold a C-slot instruction goes on (R289). -/
theorem State.unheldAt_free (s : State) (a : Word64) (r : Res) (h : s.inHold = false) : s.unheldAt a r = r := by
  simp [State.unheldAt, h]

/-- In a hold it raises BKLOCK with SUB 0x60 at its address (R289). -/
theorem State.unheldAt_held (s : State) (a : Word64) (r : Res) (h : s.inHold = true) : s.unheldAt a r = .trap (bkTrap 0x60 a) := by
  simp [State.unheldAt, h]

/-- One without an address, outside a hold. -/
theorem State.unheld_free (s : State) (r : Res) (h : s.inHold = false) : s.unheld r = r := s.unheldAt_free _ r h

/-- One without an address, in a hold. -/
theorem State.unheld_held (s : State) (r : Res) (h : s.inHold = true) : s.unheld r = .trap (bkTrap 0x60 (Config.freeWord s.tick)) :=
  s.unheldAt_held _ r h

/-- Reading cells whose parity stands never traps (R342). -/
theorem State.sound_of_parity (s : State) (keys : List Nat) (r : Res) (h : s.core.parity = []) : s.sound keys r = r := by
  simp [State.sound, State.parityTrap, h]

/-- The focused stream is found under its key. -/
theorem State.stream_cur (s : State) (h : s.curLive = true) : s.stream s.curKey = some s.cur := by
  simp [State.stream, h]

/-- Focusing the focused stream changes nothing. -/
theorem State.focus_cur (s : State) (h : s.curLive = true) : s.focus s.curKey = s := by
  simp [State.focus, h]

end Sys2Proof.Machine
end

