-- ==== Sys2Proof/Laws/PerInstr.lean ====
section
/-! SUPPORT. What holds of every instruction as syntax, one lemma per constructor. -/

namespace Sys2Proof.Laws.OneWord

/-- An instruction has a slot word or a micro-word, never both (R79, R219). -/
def Statement (i : Instr) : Prop := encodeFields i = none ∨ encodeMicro i = none

theorem nop : Statement (.nop) := .inr rfl
theorem add (u w : Bool) (d : SReg) (a b : SOp) : Statement (.add u w d a b) := .inr rfl
theorem sub (u w : Bool) (d : SReg) (a b : SOp) : Statement (.sub u w d a b) := .inr rfl
theorem mul (u w : Bool) (d : SReg) (a b : SOp) : Statement (.mul u w d a b) := .inr rfl
theorem mulh (u w : Bool) (d : SReg) (a b : SOp) : Statement (.mulh u w d a b) := .inr rfl
theorem div (u w : Bool) (d : SReg) (a b : SOp) : Statement (.div u w d a b) := .inr rfl
theorem rem (u w : Bool) (d : SReg) (a b : SOp) : Statement (.rem u w d a b) := .inr rfl
theorem and (u w : Bool) (d : SReg) (a b : SOp) : Statement (.and u w d a b) := .inr rfl
theorem or (u w : Bool) (d : SReg) (a b : SOp) : Statement (.or u w d a b) := .inr rfl
theorem xor (u w : Bool) (d : SReg) (a b : SOp) : Statement (.xor u w d a b) := .inr rfl
theorem shl (u w : Bool) (d : SReg) (a b : SOp) : Statement (.shl u w d a b) := .inr rfl
theorem shr (u w : Bool) (d : SReg) (a b : SOp) : Statement (.shr u w d a b) := .inr rfl
theorem min (u w : Bool) (d : SReg) (a b : SOp) : Statement (.min u w d a b) := .inr rfl
theorem max (u w : Bool) (d : SReg) (a b : SOp) : Statement (.max u w d a b) := .inr rfl
theorem cmp (cond : Cond) (w : Bool) (d : Dst) (a b : SOp) : Statement (.cmp cond w d a b) := .inr rfl
theorem sel (p : PReg) (d : SReg) (a b : SOp) : Statement (.sel p d a b) := .inr rfl
theorem movi (d : SReg) (v : BitVec 18) : Statement (.movi d v) := .inr rfl
theorem movsh (d : SReg) (v : BitVec 18) : Statement (.movsh d v) := .inr rfl
theorem plog (fn : PFun) (d a b : PReg) : Statement (.plog fn d a b) := .inr rfl
theorem bfx (sx : Bool) (d : SReg) (a b : SOp) : Statement (.bfx sx d a b) := .inr rfl
theorem bitc (fn : BFun) (w : Bool) (d : SReg) (a : SOp) : Statement (.bitc fn w d a) := .inr rfl
theorem lea (k : BitVec 3) (d : SReg) (a b : SOp) : Statement (.lea k d a b) := .inr rfl
theorem lix (l : BitVec 2) (a b : SOp) : Statement (.lix l a b) := .inr rfl
theorem lixstep (l : BitVec 2) : Statement (.lixstep l) := .inr rfl
theorem lixstepAll : Statement (.lixstepAll) := .inr rfl
theorem fadd (sub sat : Bool) (d a b : SReg) : Statement (.fadd sub sat d a b) := .inr rfl
theorem fmul (sat : Bool) (d a b : SReg) : Statement (.fmul sat d a b) := .inr rfl
theorem fma (sub sat : Bool) (d a b : SReg) : Statement (.fma sub sat d a b) := .inr rfl
theorem fcmp (cond : FCond) (d : Dst) (a b : SReg) : Statement (.fcmp cond d a b) := .inr rfl
theorem fcvt (dst src : STy) (sat : Bool) (d a : SReg) : Statement (.fcvt dst src sat d a) := .inr rfl
theorem fminmax (max : Bool) (d a b : SReg) : Statement (.fminmax max d a b) := .inr rfl
theorem br (off : BitVec 25) : Statement (.br off) := .inr rfl
theorem brp (neg : Bool) (p : PReg) (off : BitVec 17) : Statement (.brp neg p off) := .inr rfl
theorem bri (a : SReg) : Statement (.bri a) := .inr rfl
theorem call (off : BitVec 25) : Statement (.call off) := .inr rfl
theorem calli (a : SReg) : Statement (.calli a) := .inr rfl
theorem ret : Statement (.ret) := .inr rfl
theorem loop (off : BitVec 25) : Statement (.loop off) := .inr rfl
theorem loopset (a b : SOp) : Statement (.loopset a b) := .inr rfl
theorem srd (d : SReg) (r : SysReg) : Statement (.srd d r) := .inr rfl
theorem swr (r : SysReg) (a : SOp) : Statement (.swr r a) := .inr rfl
theorem trap (code : BitVec 14) : Statement (.trap code) := .inr rfl
theorem eret : Statement (.eret) := .inr rfl
theorem brk (code : BitVec 14) : Statement (.brk code) := .inr rfl
theorem tend : Statement (.tend) := .inr rfl
theorem taskCatch : Statement (.taskCatch) := .inr rfl
theorem isync : Statement (.isync) := .inr rfl
theorem evset (a : SOp) : Statement (.evset a) := .inr rfl
theorem evsetClr (a : SOp) : Statement (.evsetClr a) := .inr rfl
theorem evtest (d : Dst) (a : SOp) : Statement (.evtest d a) := .inr rfl
theorem evtestTake (d : Dst) (a : SOp) : Statement (.evtestTake d a) := .inr rfl
theorem widf (k : BitVec 3) (d : SReg) (a : SOp) : Statement (.widf k d a) := .inr rfl
theorem widfPfx (k : BitVec 3) (d : SReg) (a : SOp) : Statement (.widfPfx k d a) := .inr rfl
theorem widfW (d : SReg) : Statement (.widfW d) := .inr rfl
theorem flagopClr (a : SOp) : Statement (.flagopClr a) := .inr rfl
theorem flagopSet (a : SOp) : Statement (.flagopSet a) := .inr rfl
theorem flagopRdclr (d : SReg) (a : SOp) : Statement (.flagopRdclr d a) := .inr rfl
theorem flagopTst (d : PReg) (a : SOp) : Statement (.flagopTst d a) := .inr rfl
theorem yield : Statement (.yield) := .inr rfl
theorem qlaunch (d a : SReg) (b : SOp) : Statement (.qlaunch d a b) := .inr rfl
theorem vadd (f : Fmt) (sat : Bool) (d : Line) (a b : VSrc) : Statement (.vadd f sat d a b) := .inr rfl
theorem vsub (f : Fmt) (sat : Bool) (d : Line) (a b : VSrc) : Statement (.vsub f sat d a b) := .inr rfl
theorem vmul (f : Fmt) (sat : Bool) (d : Line) (a b : VSrc) : Statement (.vmul f sat d a b) := .inr rfl
theorem vmac (f : Fmt) (sat : Bool) (d : Line) (a b : VSrc) : Statement (.vmac f sat d a b) := .inr rfl
theorem vmsb (f : Fmt) (sat : Bool) (d : Line) (a b : VSrc) : Statement (.vmsb f sat d a b) := .inr rfl
theorem vmin (f : Fmt) (d : Line) (a b : VSrc) : Statement (.vmin f d a b) := .inr rfl
theorem vmax (f : Fmt) (d : Line) (a b : VSrc) : Statement (.vmax f d a b) := .inr rfl
theorem vabs (f : Fmt) (sat : Bool) (d : Line) (a : VSrc) : Statement (.vabs f sat d a) := .inr rfl
theorem vneg (f : Fmt) (sat : Bool) (d : Line) (a : VSrc) : Statement (.vneg f sat d a) := .inr rfl
theorem vcpy (d : Line) (a : VSrc) : Statement (.vcpy d a) := .inr rfl
theorem vsel (f : Fmt) (d : Line) (a b : VSrc) : Statement (.vsel f d a b) := .inr rfl
theorem vceq (f : Fmt) (d : Line) (a b : VSrc) : Statement (.vceq f d a b) := .inr rfl
theorem vclt (f : Fmt) (d : Line) (a b : VSrc) : Statement (.vclt f d a b) := .inr rfl
theorem vcle (f : Fmt) (d : Line) (a b : VSrc) : Statement (.vcle f d a b) := .inr rfl
theorem vcun (f : Fmt) (d : Line) (a b : VSrc) : Statement (.vcun f d a b) := .inr rfl
theorem vand (d : Line) (a b : VSrc) : Statement (.vand d a b) := .inr rfl
theorem vor (d : Line) (a b : VSrc) : Statement (.vor d a b) := .inr rfl
theorem vxor (d : Line) (a b : VSrc) : Statement (.vxor d a b) := .inr rfl
theorem vshl (sat : Bool) (d : Line) (a b : VSrc) : Statement (.vshl sat d a b) := .inr rfl
theorem vshr (arith : Bool) (d : Line) (a b : VSrc) : Statement (.vshr arith d a b) := .inr rfl
theorem vcvt (dst src : Fmt) (sat : Bool) (part : BitVec 3) (d : Line) (a : VSrc) : Statement (.vcvt dst src sat part d a) := .inr rfl
theorem vqnt (f : Fmt) (sat : Bool) (sc : Scale) (d : Line) (a : VSrc) : Statement (.vqnt f sat sc d a) := .inr rfl
theorem vqspt (sat : Bool) (sc : Scale) (d : Line) (a : VSrc) : Statement (.vqspt sat sc d a) := .inr rfl
theorem vdqnt (f : Fmt) (sat : Bool) (sc : Scale) (d : Line) (a : VSrc) : Statement (.vdqnt f sat sc d a) := .inr rfl
theorem vscalb (f : Fmt) (sat : Bool) (d : Line) (a b : VSrc) : Statement (.vscalb f sat d a b) := .inr rfl
theorem vrcp (f : Fmt) (sat : Bool) (d : Line) (a : VSrc) : Statement (.vrcp f sat d a) := .inr rfl
theorem vrsq (f : Fmt) (sat : Bool) (d : Line) (a : VSrc) : Statement (.vrsq f sat d a) := .inr rfl
theorem vsqrt (f : Fmt) (sat : Bool) (d : Line) (a : VSrc) : Statement (.vsqrt f sat d a) := .inr rfl
theorem vexp2 (f : Fmt) (sat : Bool) (d : Line) (a : VSrc) : Statement (.vexp2 f sat d a) := .inr rfl
theorem vlog2 (f : Fmt) (sat : Bool) (d : Line) (a : VSrc) : Statement (.vlog2 f sat d a) := .inr rfl
theorem vtanh (f : Fmt) (sat : Bool) (d : Line) (a : VSrc) : Statement (.vtanh f sat d a) := .inr rfl
theorem verf (f : Fmt) (sat : Bool) (d : Line) (a : VSrc) : Statement (.verf f sat d a) := .inr rfl
theorem vredadd (f : Fmt) (sat : Bool) (d : SReg) (a : VSrc) : Statement (.vredadd f sat d a) := .inr rfl
theorem vredmax (f : Fmt) (d : SReg) (a : VSrc) : Statement (.vredmax f d a) := .inr rfl
theorem vredmin (f : Fmt) (d : SReg) (a : VSrc) : Statement (.vredmin f d a) := .inr rfl
theorem vargmax (f : Fmt) (d : SReg) (a : VSrc) : Statement (.vargmax f d a) := .inr rfl
theorem vrot (d : Line) (a : VSrc) (b : SReg) : Statement (.vrot d a b) := .inr rfl
theorem vshuf (d : Line) (a b : VSrc) : Statement (.vshuf d a b) := .inr rfl
theorem vrand (d : Line) (a b : SReg) : Statement (.vrand d a b) := .inr rfl
theorem vgumb (sat : Bool) (d : Line) (a : VSrc) : Statement (.vgumb sat d a) := .inr rfl
theorem vdrop (f : Fmt) (d : Line) (a : VSrc) (c : BitVec 4) : Statement (.vdrop f d a c) := .inr rfl
theorem vnfchk (f : Fmt) (d : SReg) (a : VSrc) : Statement (.vnfchk f d a) := .inr rfl
theorem viota (d : Line) (a : SReg) : Statement (.viota d a) := .inr rfl
theorem radd (f : Fmt) (sat : Bool) (d : Line) (a b : VSrc) : Statement (.radd f sat d a b) := .inr rfl
theorem rsub (f : Fmt) (sat : Bool) (d : Line) (a b : VSrc) : Statement (.rsub f sat d a b) := .inr rfl
theorem rmul (f : Fmt) (sat : Bool) (d : Line) (a b : VSrc) : Statement (.rmul f sat d a b) := .inr rfl
theorem rnarw (f : Fmt) (sat : Bool) (part : BitVec 1) (d : Line) (a : VSrc) : Statement (.rnarw f sat part d a) := .inr rfl
theorem rrelu (f : Fmt) (d : Line) (a : VSrc) : Statement (.rrelu f d a) := .inr rfl
theorem rscalb (f : Fmt) (sat : Bool) (d : Line) (a b : VSrc) : Statement (.rscalb f sat d a b) := .inr rfl
theorem rshr (arith : Bool) (d : Line) (a b : VSrc) : Statement (.rshr arith d a b) := .inr rfl
theorem uadd (f : Fmt) (d : Line) (y b : VSrc) : Statement (.uadd f d y b) := .inr rfl
theorem usub (f : Fmt) (d : Line) (y b : VSrc) : Statement (.usub f d y b) := .inr rfl
theorem umul (f : Fmt) (d : Line) (y b : VSrc) : Statement (.umul f d y b) := .inr rfl
theorem unarw (f : Fmt) (part : BitVec 1) (d : Line) (y : VSrc) : Statement (.unarw f part d y) := .inr rfl
theorem urelu (f : Fmt) (d : Line) (y : VSrc) : Statement (.urelu f d y) := .inr rfl
theorem uscalb (f : Fmt) (d : Line) (y b : VSrc) : Statement (.uscalb f d y b) := .inr rfl
theorem ushr (d : Line) (y b : VSrc) : Statement (.ushr d y b) := .inr rfl
theorem ld (sz : Sz) (sx : Bool) (d a : SReg) (b : SOp) : Statement (.ld sz sx d a b) := .inr rfl
theorem st (sz : Sz) (v a : SReg) (b : SOp) : Statement (.st sz v a b) := .inr rfl
theorem ldln (d : Line) (a : SReg) (b : SOp) : Statement (.ldln d a b) := .inr rfl
theorem stln (v : Line) (a : SReg) (b : SOp) : Statement (.stln v a b) := .inr rfl
theorem lda (scope : BitVec 3) (w : Bool) (d a : SReg) (b : SOp) : Statement (.lda scope w d a b) := .inr rfl
theorem strel (scope : BitVec 3) (w : Bool) (v a : SReg) (b : SOp) : Statement (.strel scope w v a b) := .inr rfl
theorem ldw (dbl consume : Bool) (d a : SReg) (b : SOp) : Statement (.ldw dbl consume d a b) := .inr rfl
theorem stw (dbl : Bool) (v a : SReg) (b : SOp) : Statement (.stw dbl v a b) := .inr rfl
theorem feclr (a : SReg) (b : SOp) : Statement (.feclr a b) := .inr rfl
theorem feset (a : SReg) (b : SOp) : Statement (.feset a b) := .inr rfl
theorem fepoll (d : PReg) (a : SReg) (b : SOp) : Statement (.fepoll d a b) := .inr rfl
theorem aadd (sz : Sz) (ord : Bool) (d a : SReg) (b : SOp) : Statement (.aadd sz ord d a b) := .inr rfl
theorem amin (sx : Bool) (sz : Sz) (ord : Bool) (d a : SReg) (b : SOp) : Statement (.amin sx sz ord d a b) := .inr rfl
theorem amax (sx : Bool) (sz : Sz) (ord : Bool) (d a : SReg) (b : SOp) : Statement (.amax sx sz ord d a b) := .inr rfl
theorem aand (sz : ASz) (ord : Bool) (d a : SReg) (b : SOp) : Statement (.aand sz ord d a b) := .inr rfl
theorem aor (sz : ASz) (ord : Bool) (d a : SReg) (b : SOp) : Statement (.aor sz ord d a b) := .inr rfl
theorem axor (sz : ASz) (ord : Bool) (d a : SReg) (b : SOp) : Statement (.axor sz ord d a b) := .inr rfl
theorem aswap (sz : ASz) (ord : Bool) (d a : SReg) (b : SOp) : Statement (.aswap sz ord d a b) := .inr rfl
theorem acas (sz : ASz) (ord : Bool) (d a : SReg) (b : SOp) : Statement (.acas sz ord d a b) := .inr rfl
theorem afadd (f32 : Bool) (ord : Bool) (d a : SReg) (b : SOp) : Statement (.afadd f32 ord d a b) := .inr rfl
theorem dqpush (d : PReg) (a : SReg) (b : SOp) : Statement (.dqpush d a b) := .inr rfl
theorem dqpop (d : SReg) (p : PReg) (b : SOp) : Statement (.dqpop d p b) := .inr rfl
theorem dqsteal (d : SReg) (p : PReg) (b : SOp) : Statement (.dqsteal d p b) := .inr rfl
theorem bklock (mask : BitVec 16) (n : BitVec 4) : Statement (.bklock mask n) := .inr rfl
theorem lblk (a : SReg) (b : SOp) : Statement (.lblk a b) := .inr rfl
theorem probe (k : BitVec 3) (d a : SReg) (b : SOp) : Statement (.probe k d a b) := .inr rfl
theorem evict (mode : EvMode) (b : SOp) : Statement (.evict mode b) := .inr rfl
theorem cpy (a : SReg) : Statement (.cpy a) := .inr rfl
theorem cpyt (f : Fmt) (tr : Bool) (d a b : SReg) : Statement (.cpyt f tr d a b) := .inr rfl
theorem rgdef (r : BitVec 4) (a : SReg) : Statement (.rgdef r a) := .inr rfl
theorem rgadvt (r : BitVec 4) (b : SOp) : Statement (.rgadvt r b) := .inr rfl
theorem rgadvh (r : BitVec 4) (b : SOp) : Statement (.rgadvh r b) := .inr rfl
theorem rgwaitf (r : BitVec 4) (b : SOp) : Statement (.rgwaitf r b) := .inr rfl
theorem rgwaite (r : BitVec 4) (b : SOp) : Statement (.rgwaite r b) := .inr rfl
theorem owngive (a : SReg) (b : SOp) : Statement (.owngive a b) := .inr rfl
theorem ownqry (byAddr : Bool) (d : SReg) (a : SOp) : Statement (.ownqry byAddr d a) := .inr rfl
theorem tdep (r a : SReg) (b : SOp) : Statement (.tdep r a b) := .inr rfl
theorem tcpy (nowait : Bool) (r a : SReg) (b : SOp) : Statement (.tcpy nowait r a b) := .inr rfl
theorem ttak (nowait : Bool) (r a : SReg) (b : SOp) : Statement (.ttak nowait r a b) := .inr rfl
theorem tcan (r : SReg) : Statement (.tcan r) := .inr rfl
theorem chsend (r a : SReg) (b : SOp) : Statement (.chsend r a b) := .inr rfl
theorem chrecv (r a : SReg) (b : SOp) : Statement (.chrecv r a b) := .inr rfl
theorem coll (a : SReg) : Statement (.coll a) := .inr rfl
theorem bkarm (a : SReg) (b : SOp) : Statement (.bkarm a b) := .inr rfl
theorem nmop (a : SReg) : Statement (.nmop a) := .inr rfl
theorem fenceAcq (n : BitVec 3) : Statement (.fenceAcq n) := .inr rfl
theorem fenceRel (n : BitVec 3) : Statement (.fenceRel n) := .inr rfl
theorem fenceFull (n : BitVec 3) : Statement (.fenceFull n) := .inr rfl
theorem fenceJoin (n : BitVec 3) : Statement (.fenceJoin n) := .inr rfl
theorem icinv (n : BitVec 3) (a : SReg) (b : SOp) : Statement (.icinv n a b) := .inr rfl
theorem tkdec (a b : SOp) : Statement (.tkdec a b) := .inr rfl
theorem rsmark (a : SOp) : Statement (.rsmark a) := .inr rfl
theorem rsdrop (a : SOp) : Statement (.rsdrop a) := .inr rfl
theorem rsdropMark (d : SReg) : Statement (.rsdropMark d) := .inr rfl
theorem rssync : Statement (.rssync) := .inr rfl
theorem rssyncFlush : Statement (.rssyncFlush) := .inr rfl
theorem pref (replica : Bool) (a : SReg) (b : SOp) : Statement (.pref replica a b) := .inr rfl
theorem mcall (fa fb : MFmt) (ovw : Bool) (n : BitVec 7) (a : SOp) : Statement (.mcall fa fb ovw n a) := .inr rfl
theorem mpset (q : BitVec 3) (a : SOp) : Statement (.mpset q a) := .inr rfl
theorem mpget (d : SReg) (q : BitVec 3) : Statement (.mpget d q) := .inr rfl
theorem mwait : Statement (.mwait) := .inr rfl
theorem mload (a : SReg) (b : SOp) : Statement (.mload a b) := .inr rfl
theorem mzero (t : BitVec 3) : Statement (.mzero t) := .inr rfl
theorem mtran (t : BitVec 3) : Statement (.mtran t) := .inr rfl
theorem kld (f : KFmt) (c : BitVec 4) (a : SReg) (b : SOp) : Statement (.kld f c a b) := .inr rfl
theorem kldz (bf16 : Bool) (z : BitVec 2) (a : SReg) (b : SOp) : Statement (.kldz bf16 z a b) := .inr rfl
theorem kmovCFromOp (c : BitVec 4) (a : SOp) : Statement (.kmovCFromOp c a) := .inr rfl
theorem kmovSFromC (d : SReg) (c : BitVec 4) : Statement (.kmovSFromC d c) := .inr rfl
theorem kmovCFromC (d c : BitVec 4) : Statement (.kmovCFromC d c) := .inr rfl
theorem kmovCFromZ (c : BitVec 4) (z : BitVec 2) (b : SOp) : Statement (.kmovCFromZ c z b) := .inr rfl
theorem kmovZFromC (z : BitVec 2) (c : BitVec 4) (b : SOp) : Statement (.kmovZFromC z c b) := .inr rfl
theorem kst (c : BitVec 4) (a : SReg) (b : SOp) : Statement (.kst c a b) := .inr rfl
theorem kstZ (z : BitVec 2) (a : SReg) (b : SOp) : Statement (.kstZ z a b) := .inr rfl
theorem ksetef (a : SOp) : Statement (.ksetef a) := .inr rfl
theorem kgetef (d : SReg) : Statement (.kgetef d) := .inr rfl
theorem unop : Statement (.unop) := .inl rfl
theorem mac (ra rb : BitVec 4) (k0 kn : BitVec 10) : Statement (.mac ra rb k0 kn) := .inl rfl
theorem macs (ra rb : BitVec 4) (k0 kn : BitVec 10) (rm : BitVec 4) (ns : BitVec 2) : Statement (.macs ra rb k0 kn rm ns) := .inl rfl
theorem macw (ra rb : BitVec 4) (k0 kn : BitVec 10) : Statement (.macw ra rb k0 kn) := .inl rfl
theorem mact (rb : BitVec 4) (k0 kn : BitVec 10) (tile : BitVec 3) (dir : Bool) : Statement (.mact rb k0 kn tile dir) := .inl rfl
theorem macg (ra rb : BitVec 4) (k0 kn : BitVec 10) (g : Bool) (q : BitVec 3) : Statement (.macg ra rb k0 kn g q) := .inl rfl
theorem ringadv (ring count : BitVec 4) : Statement (.ringadv ring count) := .inl rfl
theorem waitring (ring : BitVec 4) (count : Byte) : Statement (.waitring ring count) := .inl rfl
theorem setc (q : BitVec 3) : Statement (.setc q) := .inl rfl
theorem accscl (z : Bool) (reg : BitVec 4) (dir : Bool) : Statement (.accscl z reg dir) := .inl rfl
theorem cvtout (ring : BitVec 4) (fmt : BitVec 3) (sat tr : Bool) : Statement (.cvtout ring fmt sat tr) := .inl rfl
theorem microLoop (ctr : BitVec 2) (q : BitVec 3) (target : BitVec 11) : Statement (.microLoop ctr q target) := .inl rfl
theorem exit : Statement (.exit) := .inl rfl
theorem launchMessage (ctx queue : Nat) (words : List Word64) : Statement (.launchMessage ctx queue words) := .inl rfl
theorem eventSetMessage (ctx queue : Nat) (words : List Word64) : Statement (.eventSetMessage ctx queue words) := .inl rfl
theorem eventClearMessage (ctx queue : Nat) (words : List Word64) : Statement (.eventClearMessage ctx queue words) := .inl rfl
theorem completionHeadMessage (ctx queue : Nat) (words : List Word64) : Statement (.completionHeadMessage ctx queue words) := .inl rfl
theorem unrecognisedMessage (ctx queue len : Nat) (words : List Word64) : Statement (.unrecognisedMessage ctx queue len words) := .inl rfl
theorem unboundQpRequest (qp : Nat) : Statement (.unboundQpRequest qp) := .inl rfl
theorem completionRecordWrite (ctx : Nat) : Statement (.completionRecordWrite ctx) := .inl rfl
theorem launchHead (ctx queue : Nat) : Statement (.launchHead ctx queue) := .inl rfl
theorem taskStart (ctx queue serial slot task : Nat) : Statement (.taskStart ctx queue serial slot task) := .inl rfl
theorem predecessorDecrement (id : Nat) : Statement (.predecessorDecrement id) := .inl rfl
theorem taskRetire (key : Nat) : Statement (.taskRetire key) := .inl rfl
theorem sliceEnd (key : Nat) : Statement (.sliceEnd key) := .inl rfl
theorem launchRetire (ctx queue serial : Nat) : Statement (.launchRetire ctx queue serial) := .inl rfl
theorem starvationHold (core : Nat) : Statement (.starvationHold core) := .inl rfl
theorem bundleFetch (key : Nat) : Statement (.bundleFetch key) := .inl rfl
theorem scoreboardResultLands (key id : Nat) : Statement (.scoreboardResultLands key id) := .inl rfl
theorem pageWalk (core slot : Nat) (va : Word64) : Statement (.pageWalk core slot va) := .inl rfl
theorem shootdownAck (id : Nat) : Statement (.shootdownAck id) := .inl rfl
theorem hbmUncorrectableError (key : Option Nat) (slot : Nat) (va : Word64) (kind : BitVec 4) : Statement (.hbmUncorrectableError key slot va kind) := .inl rfl
theorem softError (e : SoftErr) : Statement (.softError e) := .inl rfl
theorem bumpComplete (ctx : Nat) (buf : BitVec 24) : Statement (.bumpComplete ctx buf) := .inl rfl
theorem evictionStart (slot : Nat) : Statement (.evictionStart slot) := .inl rfl
theorem evictionComplete (slot : Nat) : Statement (.evictionComplete slot) := .inl rfl
theorem recallStart (slot : Nat) : Statement (.recallStart slot) := .inl rfl
theorem recallComplete (slot : Nat) : Statement (.recallComplete slot) := .inl rfl
theorem packetHold (id : Nat) : Statement (.packetHold id) := .inl rfl
theorem heldPacketRelease (id : Nat) : Statement (.heldPacketRelease id) := .inl rfl
theorem spill (key : Nat) : Statement (.spill key) := .inl rfl
theorem fill (key : Nat) : Statement (.fill key) := .inl rfl
theorem spillFillComplete (key : Nat) : Statement (.spillFillComplete key) := .inl rfl
theorem matrixCallStart (core : Nat) : Statement (.matrixCallStart core) := .inl rfl
theorem matrixCallComplete (core : Nat) : Statement (.matrixCallComplete core) := .inl rfl
theorem callCycleLimit (core : Nat) : Statement (.callCycleLimit core) := .inl rfl
theorem copyComplete (id : Nat) : Statement (.copyComplete id) := .inl rfl
theorem loadBlockFillComplete (id : Nat) : Statement (.loadBlockFillComplete id) := .inl rfl
theorem loadBlockEvictComplete (id : Nat) : Statement (.loadBlockEvictComplete id) := .inl rfl
theorem nmopComplete (id : Nat) : Statement (.nmopComplete id) := .inl rfl
theorem refreshDue (stack pc bank : Nat) : Statement (.refreshDue stack pc bank) := .inl rfl
theorem owedRefreshPayment (stack pc : Nat) : Statement (.owedRefreshPayment stack pc) := .inl rfl
theorem refreshEnd (stack pc bank : Nat) : Statement (.refreshEnd stack pc bank) := .inl rfl
theorem fewait (key : Nat) : Statement (.fewait key) := .inl rfl
theorem bklockHoldEnd (key : Nat) : Statement (.bklockHoldEnd key) := .inl rfl
theorem granuleDelivery (id : Nat) : Statement (.granuleDelivery id) := .inl rfl
theorem tulleDepositProcess (id : Nat) : Statement (.tulleDepositProcess id) := .inl rfl
theorem tulleMatchProcess (id : Nat) : Statement (.tulleMatchProcess id) := .inl rfl
theorem tulleCancelProcess (id : Nat) : Statement (.tulleCancelProcess id) := .inl rfl
theorem tulleWithdrawal (id : Nat) : Statement (.tulleWithdrawal id) := .inl rfl
theorem detachedGranuleDelivery (slot gran : Nat) : Statement (.detachedGranuleDelivery slot gran) := .inl rfl
theorem channelArrival (id : Nat) : Statement (.channelArrival id) := .inl rfl
theorem sendAcceptance (id : Nat) : Statement (.sendAcceptance id) := .inl rfl
theorem heldArrivalRetry (slot : Nat) : Statement (.heldArrivalRetry slot) := .inl rfl
theorem collectiveContribution (id : Nat) : Statement (.collectiveContribution id) := .inl rfl
theorem switchLateForward (id : Nat) : Statement (.switchLateForward id) := .inl rfl
theorem collectiveComplete (slot : Nat) (cid : Word32) : Statement (.collectiveComplete slot cid) := .inl rfl
theorem bucketFire (slot bucket : Nat) : Statement (.bucketFire slot bucket) := .inl rfl
theorem heatCommit (ctx queue serial slot : Nat) : Statement (.heatCommit ctx queue serial slot) := .inl rfl
theorem nextHeatStart (ctx queue serial slot : Nat) : Statement (.nextHeatStart ctx queue serial slot) := .inl rfl
theorem caughtMessage (job step : Word32) (count : Nat) : Statement (.caughtMessage job step count) := .inl rfl
theorem commitMessage (job step : Word32) : Statement (.commitMessage job step) := .inl rfl
theorem deferralEnd (slot : Nat) : Statement (.deferralEnd slot) := .inl rfl
theorem migrationWaitExpiry (slot : Nat) : Statement (.migrationWaitExpiry slot) := .inl rfl
theorem migrationTransfer (slot : Nat) : Statement (.migrationTransfer slot) := .inl rfl
theorem mapupd (job : Word32) (rank node : Nat) (coord : Option Nat) : Statement (.mapupd job rank node coord) := .inl rfl
theorem migrationComplete (slot : Nat) : Statement (.migrationComplete slot) := .inl rfl
theorem preemptionRequest (key : Nat) (full : Bool) : Statement (.preemptionRequest key full) := .inl rfl
theorem preemptionStop (key : Nat) : Statement (.preemptionStop key) := .inl rfl
theorem dpbExpiry (key : Nat) : Statement (.dpbExpiry key) := .inl rfl
theorem drainlimExpiry (key : Nat) : Statement (.drainlimExpiry key) := .inl rfl
theorem contextSave (key : Nat) : Statement (.contextSave key) := .inl rfl
theorem contextRestore (ctx area key : Nat) : Statement (.contextRestore ctx area key) := .inl rfl
theorem asyncTrapDelivery (key : Nat) : Statement (.asyncTrapDelivery key) := .inl rfl
theorem abortLaunch (c : Cmd) (ctx queue serial : Nat) : Statement (.abortLaunch c ctx queue serial) := .inl rfl
theorem debugHalt (key : Nat) : Statement (.debugHalt key) := .inl rfl
theorem debugStep (key : Nat) : Statement (.debugStep key) := .inl rfl
theorem debugCont (key : Nat) : Statement (.debugCont key) := .inl rfl
theorem weigh : Statement (.weigh) := .inl rfl
theorem scanReadout : Statement (.scanReadout) := .inl rfl
theorem weighResume : Statement (.weighResume) := .inl rfl
theorem moduleReset : Statement (.moduleReset) := .inl rfl
theorem setPlimit (watts : Nat) : Statement (.setPlimit watts) := .inl rfl
theorem readTelemetry : Statement (.readTelemetry) := .inl rfl
theorem fenceUnit (c : Cmd) (u : FUnit) : Statement (.fenceUnit c u) := .inl rfl
theorem errorCountFence (u : FUnit) (count cycles : Nat) (control : Bool) : Statement (.errorCountFence u count cycles control) := .inl rfl
theorem writeRankRecord (c : Cmd) (slot : Nat) (w : List Word64) : Statement (.writeRankRecord c slot w) := .inl rfl
theorem writeSchedulingRecord (c : Cmd) (ctx : Nat) (x : List Word64) : Statement (.writeSchedulingRecord c ctx x) := .inl rfl
theorem writeJobRecord (c : Cmd) (idx : Nat) (jb : List Word64) : Statement (.writeJobRecord c idx jb) := .inl rfl
theorem writeChannelRow (c : Cmd) (slot n : Nat) (h : List Word64) : Statement (.writeChannelRow c slot n h) := .inl rfl
theorem writeTulleRegion (c : Cmd) (ctx handle : Nat) (u : Word64) : Statement (.writeTulleRegion c ctx handle u) := .inl rfl
theorem writeStreamRegister (c : Cmd) (slot handle : Nat) (j : List Word64) : Statement (.writeStreamRegister c slot handle j) := .inl rfl
theorem writeDebugComparator (c : Cmd) (ctx idx : Nat) (w : Word64) : Statement (.writeDebugComparator c ctx idx w) := .inl rfl
theorem readRankRecord (c : Cmd) (slot : Nat) : Statement (.readRankRecord c slot) := .inl rfl
theorem readSchedulingRecord (c : Cmd) (ctx : Nat) : Statement (.readSchedulingRecord c ctx) := .inl rfl
theorem readJobRecord (c : Cmd) (idx : Nat) : Statement (.readJobRecord c idx) := .inl rfl
theorem readChannelRow (c : Cmd) (slot n : Nat) : Statement (.readChannelRow c slot n) := .inl rfl
theorem readTulleRegion (c : Cmd) (ctx handle : Nat) : Statement (.readTulleRegion c ctx handle) := .inl rfl
theorem readStreamRegister (c : Cmd) (slot handle : Nat) : Statement (.readStreamRegister c slot handle) := .inl rfl
theorem readDebugComparator (c : Cmd) (ctx idx : Nat) : Statement (.readDebugComparator c ctx idx) := .inl rfl
theorem shootdown (c : Cmd) (s0 s1 : Word64) : Statement (.shootdown c s0 s1) := .inl rfl
theorem evictRank (c : Cmd) (slot : Nat) : Statement (.evictRank c slot) := .inl rfl
theorem recallRank (c : Cmd) (slot : Nat) : Statement (.recallRank c slot) := .inl rfl
theorem migrationOrder (c : Cmd) (mo0 mo1 mo2 : Word64) : Statement (.migrationOrder c mo0 mo1 mo2) := .inl rfl
theorem versionBump (c : Cmd) (ctx : Nat) (buf : BitVec 24) : Statement (.versionBump c ctx buf) := .inl rfl
theorem installContextKeys (c : Cmd) (ctx : Nat) (blob : List Word64) : Statement (.installContextKeys c ctx blob) := .inl rfl
theorem installRank (c : Cmd) (m1 : Word64) : Statement (.installRank c m1) := .inl rfl
theorem removeRank (c : Cmd) (m1 : Word64) : Statement (.removeRank c m1) := .inl rfl
theorem createContext (c : Cmd) (m1 m2 m3 m4 : Word64) : Statement (.createContext c m1 m2 m3 m4) := .inl rfl
theorem destroyContext (c : Cmd) (m1 : Word64) : Statement (.destroyContext c m1) := .inl rfl
theorem readAndClearCounter (c : Cmd) (m1 : Word64) : Statement (.readAndClearCounter c m1) := .inl rfl
theorem readSaveAreaDescriptor (c : Cmd) : Statement (.readSaveAreaDescriptor c) := .inl rfl
theorem unknownCommand (c : Cmd) (code : CmdCode) : Statement (.unknownCommand c code) := .inl rfl
theorem attestationRequest (nonce : List Word64) : Statement (.attestationRequest nonce) := .inl rfl
theorem standbyPowerOn (f : FwImage) (key sig : List Byte) : Statement (.standbyPowerOn f key sig) := .inl rfl
theorem mainPowerOn (l4 l5 l6 : Byte) : Statement (.mainPowerOn l4 l5 l6) := .inl rfl
theorem finserLinkTraining (port gen : Nat) (node : BitVec 20) : Statement (.finserLinkTraining port gen node) := .inl rfl
theorem ethernetLinkChange (port : Nat) (rate : Option Nat) : Statement (.ethernetLinkChange port rate) := .inl rfl
theorem thermalReport (die : Nat) (celsius : Int) : Statement (.thermalReport die celsius) := .inl rfl
theorem powerWindow (watts : Nat) : Statement (.powerWindow watts) := .inl rfl
theorem writePerformed (id : Nat) : Statement (.writePerformed id) := .inl rfl
theorem incomingWriteApply (id : Nat) : Statement (.incomingWriteApply id) := .inl rfl
theorem bklockStallLimit (key : Nat) : Statement (.bklockStallLimit key) := .inl rfl
theorem queuePairBind (c : Cmd) (ctx queue : Nat) : Statement (.queuePairBind c ctx queue) := .inl rfl
theorem poisonFilterRemove (c : Cmd) (die frame : Nat) : Statement (.poisonFilterRemove c die frame) := .inl rfl
theorem debuggerWrite (key : Nat) (w : DbgWrite) : Statement (.debuggerWrite key w) := .inl rfl

end Sys2Proof.Laws.OneWord
end

