-- ==== Sys2Proof/Tests/Slice0.lean ====
section
/-! SUPPORT. The model's own tests: what the well-formedness check refuses, words of the spec decoded, single instructions on small states
with results worked out by hand from the rules, and for every obligation with hypotheses a state and operands that meet them. -/

namespace Sys2Proof.Tests

open Sys2Proof Sys2Proof.Machine

/-! Well-formedness: an ill-formed term for each check. -/

theorem test_wf_scalar : ∀ i ∈ [Instr.fcvt .i32 .i64 false 1 2, .widf 6 1 (.reg 2), .widfPfx 7 1 (.reg 2)], i.wf = false := by decide

theorem test_wf_vector : ∀ i ∈ [
    Instr.vcun .i32 ⟨.row, 0, 0⟩ (.bc 1) (.bc 2), .vqnt .bf16 false (.line 0 1) ⟨.row, 0, 0⟩ (.bc 1), .vqspt false (.line 0 1) ⟨.row, 0, 0⟩ (.bc 1),
    .vdqnt .ni false (.line 0 1) ⟨.row, 0, 0⟩ (.bc 1), .vscalb .i32 false ⟨.row, 0, 0⟩ (.bc 1) (.bc 2), .vrcp .e4m3 false ⟨.row, 0, 0⟩ (.bc 1),
    .vrsq .e5m2 false ⟨.row, 0, 0⟩ (.bc 1), .vsqrt .e2m1 false ⟨.row, 0, 0⟩ (.bc 1), .vexp2 .i32 false ⟨.row, 0, 0⟩ (.bc 1),
    .vlog2 .ni false ⟨.row, 0, 0⟩ (.bc 1), .vtanh .e4m3 false ⟨.row, 0, 0⟩ (.bc 1), .verf .i32 false ⟨.row, 0, 0⟩ (.bc 1),
    .vredadd .ni false 1 (.bc 2), .vargmax .bf16 1 (.bc 2), .vdrop .e5m2 ⟨.row, 0, 0⟩ (.bc 1) 2, .vnfchk .i32 1 (.bc 2)], i.wf = false := by decide

theorem test_wf_reversible : ∀ i ∈ [
    Instr.radd .e4m3 false ⟨.row, 0, 0⟩ (.bc 1) (.bc 2), .rsub .ni false ⟨.row, 0, 0⟩ (.bc 1) (.bc 2), .rmul .i32 false ⟨.row, 0, 0⟩ (.bc 1) (.bc 2),
    .rnarw .f32 false 0 ⟨.row, 0, 0⟩ (.bc 1), .rrelu .i32 ⟨.row, 0, 0⟩ (.bc 1), .rscalb .i32 false ⟨.row, 0, 0⟩ (.bc 1) (.bc 2),
    .uadd .e4m3 ⟨.row, 0, 0⟩ (.bc 1) (.bc 2), .usub .ni ⟨.row, 0, 0⟩ (.bc 1) (.bc 2), .umul .i32 ⟨.row, 0, 0⟩ (.bc 1) (.bc 2),
    .unarw .i32 1 ⟨.row, 0, 0⟩ (.bc 1), .urelu .ni ⟨.row, 0, 0⟩ (.bc 1), .uscalb .i32 ⟨.row, 0, 0⟩ (.bc 1) (.bc 2)], i.wf = false := by decide

theorem test_wf_memory : ∀ i ∈ [
    Instr.ld .b8 true 1 2 (.imm 0), .aand .b16 false 3 2 (.reg 4), .aor .b16 false 2 2 (.reg 5), .axor .b16 false 2 2 (.imm 4),
    .aswap .b16 true 1 2 (.reg 4), .acas .b16 true 2 2 (.reg 1), .bklock 0 1, .bklock 1 0, .cpyt .ni false 1 2 3], i.wf = false := by decide

theorem test_wf_matrix : ∀ i ∈ [
    Instr.mcall .spt .f32 false 0 (.imm 1), .mcall .f32 .spt false 0 (.imm 1), .mcall .ni .f32 false 0 (.imm 1), .mcall .e5m2 .spt false 0 (.imm 1),
    .macs 0 1 0 1 0 3, .ringadv 0 0, .waitring 0 0, .accscl true 4 false, .accscl false 4 true, .cvtout 0 6 false false], i.wf = false := by decide

theorem test_wf_accepts : ∀ i ∈ [
    Instr.fcvt .f32 .i64 false 1 2, .widf 5 1 (.reg 2), .ld .b8 false 1 2 (.imm 0), .aand .b16 false 2 2 (.reg 4), .mcall .e4m3 .spt false 0 (.imm 1),
    .mcall .ni .ni false 0 (.imm 1), .vargmax .i32 1 (.bc 2), .rnarw .bf16 false 0 ⟨.row, 0, 0⟩ (.bc 1)], i.wf = true := by decide

/-! Decoding: words written out from the encodings of the spec (R79-R83, the opcode tables of R92-R96, R219), at least one a family. -/

theorem test_decode_integer : decodeSlot .s 0x02054AA1 = .ok (.add false false 21 (.reg 21) (.imm 1)) ∧
    decodeSlot .s 0xA001C278 = .ok (.movi 7 0x278) ∧ decodeSlot .s 0xA3A1F79B = .ok (.movsh 7 0x3779B) := by decide

theorem test_decode_control : decodeSlot .s 0xC1FFFFF0 = .ok (.br 0x1FFFFF0) ∧ decodeSlot .s 0xC3E0FFF4 = .ok (.brp true 3 (-12)) := by decide

theorem test_decode_system : decodeSlot .s 0xE0001280 = .ok (.evset (.imm 5)) ∧ decodeSlot .s 0xE230C280 = .ok (.evtestTake (.pred 3) (.reg 5)) ∧
    decodeSlot .s 0xE4818080 = .ok (.widf 2 6 (.reg 1)) ∧ decodeSlot .s 0xEA024322 = .ok (.qlaunch 9 6 (.imm 2)) := by decide

theorem test_decode_vector : decodeSlot .v 0xC2198680 = .ok (.vredadd .f32 false 6 (.line ⟨.row, 3, 1⟩)) ∧
    decodeSlot .v 0xAA420208 = .ok (.vcvt .bf16 .f32 false 1 ⟨.row, 2, 0⟩ (.line ⟨.row, 1, 0⟩)) := by decide

theorem test_decode_reversible : decodeSlot .v 0xD8000008 = .ok (.radd .f32 false ⟨.row, 0, 0⟩ (.line ⟨.row, 0, 0⟩) (.line ⟨.row, 2, 0⟩)) := by decide

theorem test_decode_loads : decodeSlot .c 0x82814224 = .ok (.ld .b4 false 5 4 (.imm 4)) ∧
    decodeSlot .c 0x8E83C5A0 = .ok (.ldw false false 15 11 (.imm 0)) := by decide

theorem test_decode_atomics : decodeSlot .c 0x98C00687 = .ok (.aadd .b8 false 0 13 (.reg 7)) ∧ decodeSlot .c 0x30008003 = .ok (.bklock 3 2) := by decide

theorem test_decode_tulle : decodeSlot .c 0xCE02C50C = .ok (.ttak false 11 10 (.reg 12)) ∧ decodeSlot .c 0xCA06050C = .ok (.tdep 24 10 (.reg 12)) := by
  decide

theorem test_decode_channels : decodeSlot .c 0xD2050AA3 = .ok (.chsend 20 21 (.imm 3)) ∧ decodeSlot .c 0xD4058B98 = .ok (.chrecv 22 23 (.reg 24)) := by
  decide

theorem test_decode_engines : decodeSlot .c 0xD6000500 = .ok (.coll 10) ∧ decodeSlot .c 0xD800050B = .ok (.bkarm 10 (.reg 11)) ∧
    decodeSlot .c 0xDA000500 = .ok (.nmop 10) := by decide

theorem test_decode_fences : decodeSlot .c 0xDEC04000 = .ok (.fenceRel 3) ∧ decodeSlot .c 0xDEA00000 = .ok (.fenceFull 2) ∧
    decodeSlot .c 0xE0C00205 = .ok (.icinv 3 4 (.reg 5)) := by decide

theorem test_decode_stack : decodeSlot .c 0xE2000221 = .ok (.tkdec (.reg 4) (.imm 1)) ∧ decodeSlot .c 0xE4001380 = .ok (.rsmark (.imm 7)) := by decide

theorem test_decode_matrix : decodeSlot .m 0x82615781 = .ok (.mcall .bf16 .bf16 true 5 (.imm 15)) := by decide

theorem test_decode_kslot : decodeSlot .k 0x8200C220 = .ok (.kld .f32 3 4 (.imm 0)) := by decide

theorem test_decode_micro : decodeMicro 0x4400000000000000 = some .exit := by decide

/-- A word of no row and a nonzero unused field are refused (R82, R84 step 7). -/
theorem test_decode_refuses : (decodeSlot .s 0xFC000000).isOk = false ∧ (decodeSlot .s 0x00000001).isOk = false := by decide


/-! A small state: core 0's primary stream in focus, in context 0 on rank slot 0, holding granules 0 and 1, one data page at 0x10000. -/

/-- The window's first address. -/
abbrev win0 : Word64 := 0x00FFFFFFFFE00000

/-- A page of context 0's rank slot, home class 01. -/
abbrev page : Tlb := { slot := 0, vbase := 0x10000, size := 65536, pa := 0x10000, home := 1, w := true, x := true }

/-- s3 the window's base, s4 the page, s5 a misaligned window address, s6 the end of the held granules, s7 and s8 numbers. -/
abbrev stream0 : Stream :=
  { lgran := [(0, 0), (1, 1)], pc := 0x10100, npc := 0x10100, tvec := 0x10200, codebase := 0x10000,
    s := [(3, win0), (4, 0x10000), (5, win0 + 1), (6, win0 + 0x20000), (7, 7), (8, 0xFFFFFFFFFFFFFFFF), (9, 0x10001)] }

abbrev base : State :=
  { curLive := true, cur := stream0, core := { tlb := [page] }, mgmt := { power := .on },
    front := { ctxs := [(0, {})], ranks := [(0, { state := .active, stkbase := 0x11000, stkptr := 0x11000, stklim := 0x18000 })] } }

/-- What lies in granules 0 and 1 lies in granules that the stream holds. -/
theorem held_inGrans (x : Stream) (core a n : Nat) (hg : x.lgran = [(0, 0), (1, 1)]) (h : Config.spwbase ≤ a) (hn : a + n ≤ Config.spwbase + 131072) :
    x.inGrans core a n := by
  have hs : Config.spwbase = 72057594035830784 := rfl
  generalize Config.spwbase = B at hs h hn
  intro b hb hbn
  have hw : inWindow b = true := by
    have : Config.spwbase = B := hs.symm
    simp only [inWindow, this, Bool.and_eq_true, decide_eq_true_eq]
    omega
  refine ⟨hw, ?_⟩
  have hB : Config.spwbase = B := hs.symm
  have h1 : b - B < 2 ^ 20 := by omega
  have hq : (b - B) / 65536 = 0 ∨ (b - B) / 65536 = 1 := by omega
  unfold Stream.winKey
  simp only [hB, hg, if_pos h1]
  rcases hq with hq | hq <;> rw [hq] <;> exact ⟨_, rfl⟩

/-- No stream holds banks and every word of the scratchpads is sound; each kind of access on the page, or on a page of HOME = 00 in the crew's TLB. -/
theorem witness_conditions :
    base.calm ∧ base.cur.inGrans 0 win0.toNat 131072 ∧ (∀ k ∈ [AKind.fetch, .load, .store, .atomic], base.mapped 0x10000 4096 k page) ∧
    (∀ k ∈ [AKind.eread, .ewrite], ({ base with crews := [(0, { tlb := [page] })] } : State).mapped 0x10000 4096 k page) ∧
    (∀ k, base.reaches win0.toNat 131072 k) ∧ base.reaches 0x10000 64 .load ∧ base.holdsAt (base.cur.readS 3) 64 64 ∧ base.mayRead (base.cur.readS 4) 64 64 := by
  have hg : base.cur.inGrans 0 win0.toNat 131072 := held_inGrans _ _ _ _ rfl (by decide) (by decide)
  have hc : base.calm := ⟨by decide, rfl⟩
  have hr : base.reaches 0x10000 64 .load := .inr (fun r hr => ⟨page, by
    have : r = (0x10000, 64) := by revert hr; simp [cut, chunks]
    subst this; unfold State.mapped; decide⟩)
  exact ⟨hc, hg, by unfold State.mapped; decide, by unfold State.mapped; decide, fun _ => .inl hg, hr, ⟨by decide, by decide, hc, held_inGrans _ _ _ _ rfl (by decide) (by decide)⟩,
    ⟨by decide, by decide, hc, fun _ => rfl, hr⟩⟩

/-- The base state with another value in a scalar register. -/
abbrev withS (r : Nat) (v : Word64) (s : State := base) : State := { s with cur := { s.cur with s := s.cur.s.set r v } }

/-- The base state with words at the window's first address. -/
abbrev withWords (ws : List Word64) (s : State := base) : State :=
  { s with mem := { s.mem with spad := s.mem.spad.put 0 ((ws.map (fun w => leBytes w.toNat 8)).flatten) } }

/-- The base state within a BKLOCK hold. -/
abbrev held : State := { base with cur := { stream0 with hold := some { mask := 1, left := 2 } } }

/-- The base state beside a stream of the same core that holds every bank. -/
abbrev beside : State := { base with streams := [(1, { hold := some { mask := 0xFFFF, left := 2 } })] }

/-- The base state with its page, of HOME = 00, in the crew's TLB too, as agents and walks find it. -/
abbrev crewed : State := { base with crews := [(0, { tlb := [{ page with home := 0 }] })] }

/-- The base state in handler mode. -/
abbrev inHandler : State := { base with cur := { stream0 with handler := true, trappc := 0x10104 } }

/-- What a next state shows, if there is one. -/
abbrev shown {α : Type} (o : Host.Outcome State Fault Refusal) (f : State → α) : Option α :=
  match o with
  | .next t => some (f t)
  | _ => none

/-- The result on its way of an instruction that leaves one. -/
abbrev landing (i : Instr) (s : State) : Option (List (Nat × Tgt × BitVec 7)) := shown (exec i s) (fun t => t.cur.land.map (fun e => (e.due, e.tgt, e.flags)))

/-- The cause, the address and the information of the trap that an instruction raises. -/
abbrev trapping (i : Instr) (s : State) : Option (Byte × Word64 × Word64) :=
  shown (exec i s) (fun t => (t.cur.trapcause, t.cur.trapaddr, t.cur.trapinfo))

/-! One instruction on a small state; each result is worked out by hand from the rule named. -/

/-- 2^64 - 1 + 1 is 0 (R139). -/
theorem test_add_wraps : landing (.add false false 1 (.reg 8) (.imm 1)) base = some [(1, .s 1 0, 0)] := by decide

/-- 7 - 8 at 32 bits, sign-extended (R139). -/
theorem test_sub_signed : landing (.sub false true 1 (.reg 7) (.imm 8)) base = some [(1, .s 1 0xFFFFFFFFFFFFFFFF, 0)] := by decide

/-- (2^64 - 1)² has the high half 2^64 - 2, signed (-1)² has 0 (R139). -/
theorem test_mulh : landing (.mulh true false 1 (.reg 8) (.reg 8)) base = some [(3, .s 1 0xFFFFFFFFFFFFFFFE, 0)] ∧
    landing (.mulh false false 1 (.reg 8) (.reg 8)) base = some [(3, .s 1 0, 0)] := by decide

/-- A zero divisor (R139). -/
theorem test_div_zero : landing (.div false false 1 (.reg 7) (.imm 0)) base = some [(8, .s 1 0xFFFFFFFFFFFFFFFF, 0)] ∧
    landing (.rem false false 1 (.reg 7) (.imm 0)) base = some [(8, .s 1 7, 0)] := by decide

/-- -1 shifted right by 4, logically and arithmetically, at 32 bits (R139). -/
theorem test_shr : landing (.shr true true 1 (.reg 8) (.imm 4)) base = some [(1, .s 1 0x0FFFFFFF, 0)] ∧
    landing (.shr false true 1 (.reg 8) (.imm 4)) base = some [(1, .s 1 0xFFFFFFFFFFFFFFFF, 0)] := by decide

/-- 7 < -1 unsigned, not signed (R140). -/
theorem test_cmp : landing (.cmp .ltu false (.pred 2) (.reg 7) (.reg 8)) base = some [(1, .p 2 true, 0)] ∧
    landing (.cmp .lt false (.reg 2) (.reg 7) (.reg 8)) base = some [(1, .s 2 0, 0)] := by decide

/-- Bits 2 to 1 of 7, sign-extended: 11 is -1; 61 leading zeros (R143). -/
theorem test_bits : landing (.bfx true 1 (.reg 7) (.reg 2)) (withS 2 0x81) = some [(1, .s 1 0xFFFFFFFFFFFFFFFF, 0)] ∧
    landing (.bitc .clz false 1 (.reg 7)) base = some [(1, .s 1 61, 0)] := by decide

/-- 1.5 + 2.25 = 3.75 in FP32 (R145). -/
theorem test_fadd : landing (.fadd false false 1 2 10) (withS 10 0x40100000 (withS 2 0x3FC00000)) = some [(4, .s 1 0x40700000, 0)] := by decide

/-- 1.0 to BF16 is 0x3F80; 2^31 to I32 saturates with .SAT (R147). -/
theorem test_fcvt : landing (.fcvt .bf16 .f32 false 1 2) (withS 2 0x3F800000) = some [(4, .s 1 0x3F80, 0)] ∧
    (landing (.fcvt .i32 .f32 true 1 2) (withS 2 0x4F000000)).map (fun l => l.map (fun e => e.2.1)) = some [.s 1 0x7FFFFFFF] := by decide

/-- The branch target is the header's address plus four times the offset (R83, R148). -/
theorem test_br : shown (exec (.br 0x1FFFFFF) base) (fun t => t.cur.npc) = some 0x100FC := by decide

/-- A register target with bit 0 set raises MISBRANCH (R148). -/
theorem test_bri_misaligned : (trapping (.bri 9) base).map (fun x => (x.1, x.2.1)) = some (0x03, 0x10001) := by decide

/-- LC = 1 counts down to 0 and branches no more when EC = 0 (R150). -/
theorem test_loop : shown (exec (.loop 4) { base with cur := { stream0 with lc := 1 } }) (fun t => t.cur.npc) = some 0x10100 ∧
    shown (exec (.loop 4) { base with cur := { stream0 with lc := 2 } }) (fun t => t.cur.npc) = some 0x10110 := by decide

/-- ERET returns to TRAPPC and leaves handler mode; outside it raises ILLOP (R155). -/
theorem test_eret : shown (exec .eret inHandler) (fun t => (t.cur.npc, t.cur.handler)) = some (0x10104, false) ∧
    (trapping .eret base).map (fun x => x.1) = some 0x02 := by decide

/-- A trap saves the header address and goes to TVEC in handler mode (R320). -/
theorem test_trap_entry : shown (exec (.bri 9) base) (fun t => (t.cur.trappc, t.cur.pc, t.cur.handler)) = some (0x10100, 0x10200, true) := by decide

/-- The sum of 1.0 and 1.0 in every lane is 2.0 (R164). -/
theorem test_vadd : shown (exec (.vadd .f32 false ⟨.row, 0, 0⟩ (.bc 2) (.bc 2)) (withS 2 0x3F800000))
    (fun t => t.cur.land.map (fun e => match e.tgt with | .cells l => (e.due, l.length, l.getLast?) | _ => (0, 0, none))) =
    some [(4, 64, some (63, 0x40000000))] := by decide

/-- A column write of tile 1 lands at rows 0 to 63 of its column (R80). -/
theorem test_viota_column : shown (exec (.viota ⟨.col, 1, 0⟩ 7) base) (fun t => t.cur.land.map (fun e => match e.tgt with | .cells l => l.take 3 | _ => [])) =
    some [[(4096, 7), (4160, 8), (4224, 9)]] := by decide

set_option maxRecDepth 20000 in
/-- 64 ones add up to 64, as an integer (R175). -/
theorem test_vredadd : landing (.vredadd .i32 false 1 (.bc 2)) (withS 2 1) = some [(6, .s 1 64, 0)] := by decide

/-- An undo on an empty remainder stack raises RVSTACK with SUB 0x09 (R195). -/
theorem test_ushr_empty : (trapping (.ushr ⟨.row, 0, 0⟩ (.bc 2) (.bc 2)) { base with cur := { stream0 with winHeld := true } }).map
    (fun x => (x.1, x.2.1, x.2.2 &&& 0xFF)) = some (0x0C, 0x11000, 0x09) := by decide

/-- KLD takes four bytes at the window's first address (R184). -/
theorem test_kld : landing (.kld .f32 3 3 (.imm 0)) (withWords [0x3F800000]) = some [(4, .c 3 0x3F800000, 0)] := by decide

/-- A granule the stream does not hold is OWNERSHIP with SUB 0x40 (R231). -/
theorem test_kld_ownership : (trapping (.kld .f32 3 6 (.imm 0)) base).map (fun x => (x.1, x.2.1, x.2.2 &&& 0xFF)) =
    some (0x07, win0 + 0x20000, 0x40) := by decide

/-- A store of four bytes, little-endian (R3, R238). -/
theorem test_st : shown (exec (.st .b4 8 3 (.imm 1)) base) (fun t => ((List.range 10).map t.mem.spad.get)) =
    some [0, 0, 0, 0, 0xFF, 0xFF, 0xFF, 0xFF, 0, 0] := by decide

/-- LDW of an empty word waits; of a full one returns it and .E empties it (R278). -/
theorem test_ldw : (shown (exec (.ldw false true 1 3 (.imm 0)) base) (fun t => t.cur.mark)).map (fun m => m != .none) = some true ∧
    shown (exec (.ldw false true 1 3 (.imm 0)) { withWords [5] with mem := { spad := [(0, 5)], fe := [(0, 1)] } })
      (fun t => (t.cur.pend.map (fun p => p.tgts), t.mem.fe.get 0)) = some ([[.s 1 5]], 0) := by decide

/-- A push on an empty deque and a pop return the value (R285). -/
theorem test_deque : shown (exec (.dqpop 1 2 (.imm 0)) { base with crews := [(0, { deques := [(0, { elems := [(4, 9)], n := 1, bottom := 5, top := 4 })] })] })
    (fun t => (t.cur.pend.map (fun p => p.tgts))) = some [[.s 1 9, .p 2 true]] := by decide

/-- RGADVT moves the tail modulo COUNT (R244). -/
theorem test_rgadvt : shown (exec (.rgadvt 0 (.imm 2)) { base with cur := { stream0 with rings := [(0, { base := 0, slot := 128, count := 4, tail := 3, head := 1, filled := 2 })] } })
    (fun t => (t.cur.rings.find 0).map (fun g => (g.tail, g.filled))) = some (some (1, 4)) := by decide

/-- TEND stops the stream's issue (R156). -/
theorem test_tend : shown (exec .tend base) (fun t => t.cur.ending) = some 1 := by decide

/-- RSMARK pushes a marker of A (R204). -/
theorem test_rsmark : shown (exec (.rsmark (.imm 7)) { base with cur := { stream0 with winHeld := true } }) (fun t => t.cur.win.map (fun r => (r.mark, r.mtag))) =
    some [(true, 7)] := by decide

/-! For every obligation with hypotheses: states and operands that meet them, clause by clause. -/

/-- Well-formed and encodable with operands at the ends of their ranges; a word that decodes. -/
theorem witness_SlotWordsAgree :
    (Instr.add true false 31 (.imm 31) (.reg 0)).wf = true ∧ (encodeFields (.add true false 31 (.imm 31) (.reg 0))).isSome = true ∧
    (Instr.bklock 0xFFFF 15).wf = true ∧ (encodeFields (.bklock 0xFFFF 15)).isSome = true ∧ (decodeSlot .m 0x82615781).isOk = true := by decide

theorem witness_MicroWordsAgree :
    (Instr.mac 15 0 1023 1).wf = true ∧ (encodeMicro (.mac 15 0 1023 1)).isSome = true ∧ (decodeMicro 0x4400000000000000).isSome = true := by decide

/-- The module with one S-slot word where the next step fetches it. -/
abbrev placed : State := State.reset.withFetchWord 32 0x02054AA1

abbrev placedF : State := { placed.advance with late := [] }

abbrev placed1 : State := { placedF with cur := { placedF.cur with mark := .none } }

abbrev placed2 : State := match placed1.fetchBundle with | .ok (_, v) => v | .error _ => placed1

/-- A header for the S slot alone, ADD s21, s21, 1 after it, and nothing that stands in the way of the core's turn. -/
theorem witness_StepRunsDecoded :
    placed.advance.acts = [.core 0] ∧ placedF.curLive = true ∧ placedF.curKey = 0 ∧ placedF.stream 1 = none ∧
    placedF.cur.ready = true ∧ placedF.cur.haltReq = false ∧ placedF.cur.hold = none ∧ placedF.cur.starved = false ∧
    placedF.cur.async = [] ∧ placedF.cur.pre = 0 ∧ placedF.cur.bundle = none ∧
    placedF.dbgMatch 0 placedF.cur = false ∧
    (placed1.fetchWords placed1.cur.pc.toNat 1).toOption.map (fun r => r.1) = some [0x7A000000] ∧ isHeader 0x7A000000 = true ∧
    headerFault 0x7A000000 = none ∧ present 0x7A000000 = [.s] ∧
    (placed2.fetchWords (placed1.cur.pc.toNat + 4) 1).toOption.map (fun r => r.1) = some [0x82054AA1] ∧ isHeader 0x82054AA1 = false ∧
    decodeSlot .s 0x82054AA1 = .ok (.add false false 21 (.reg 21) (.imm 1)) ∧
    (Instr.add false false 21 (.reg 21) (.imm 1)).tilesOk false = true ∧ (Instr.add false false 21 (.reg 21) (.imm 1)).lines ≤ allot 0x7A000000 .s ∧
    accesses .s (.add false false 21 (.reg 21) (.imm 1)) = false ∧ accesses .c0 (.ld .b4 false 5 4 (.imm 4)) = true := by
  decide

/-- The same bundle issues: its guard is on and nothing blocks it. -/
theorem witness_StepRunsDecoded_issue :
    let b : Bundle := { addr := placed1.cur.pc, header := 0x7A000000, slots := [(.s, .add false false 21 (.reg 21) (.imm 1))], succ := placed1.cur.pc + 8 }
    let g0 : State := { placed2 with cur := { placed2.cur with bundle := some b, npc := placed1.cur.pc + 8, mark := .none } }
    (g0.preJoin b true).cur.hold = none ∧ g0.cur.guardOn b = true ∧ (g0.preJoin b true).blocked b true = none := by decide

/-- A weighed module with a launch message waiting, and a module without power to which a command comes. -/
theorem witness_StandingModule :
    (∀ i ∈ [Instr.launchMessage 0 0 []], isMgmt i = false) ∧
    State.Unpowered State.reset { State.reset with inbox := [.versionBump ⟨1, 0, true⟩ 0 0] } := by
  constructor
  · decide
  · exact ⟨by decide, by decide, rfl, rfl, rfl, rfl, rfl, rfl, rfl, rfl, rfl, rfl, rfl, rfl, rfl, rfl⟩

/-- A stream at an address whose code line is held ahead of issue. -/
abbrev fetching (pc : Word64) (h w : Word32) : State :=
  { base with cur := { stream0 with pc := pc, code := [(pc.toNat / 128 * 128, List.replicate (pc.toNat % 128 / 4) 0 ++ h :: w :: List.replicate 30 0)] } }

abbrev fetchedWord (s : State) : Option (Option Word32) :=
  match s.fetchWord s.cur.pc.toNat with
  | .word w _ => some (some w)
  | .trap _ => some none
  | .wait => none

/-- A breakpoint; an address without a page; a line under a bump; no header; a bad header; a bundle that runs out of its page; a bad and a good slot. -/
theorem witness_BundleFetch :
    (let s : State := { base with front := { ctxs := [(0, { dbgen := true, dbg := [(0, 0xA000000000010100)] })] } }
     s.dbgMatch 0 s.cur = true ∧ s.cur.skipBp = false) ∧
    base.dbgMatch 0 base.cur = false ∧
    fetchedWord { base with cur := { stream0 with pc := 0x20000 } } = some none ∧
    fetchedWord { base with front := { ctxs := [(0, { bumps := [0] })] } } = none ∧
    fetchedWord (fetching 0x10100 0x82054AA1 0) = some (some 0x82054AA1) ∧ isHeader 0x82054AA1 = false ∧
    headerFault 0x7A000001 = some 0x02 ∧ isHeader 0x7A000001 = true ∧
    fetchedWord (fetching 0x1FFFC 0x7A000000 0) = some (some 0x7A000000) ∧
    (match (fetching 0x1FFFC 0x7A000000 0).fetchWords 0x20000 1 with | .error (some _) => true | _ => false) = true ∧
    fetchedWord (fetching 0x10100 0x7A000000 0x82054AA1) = some (some 0x7A000000) ∧
    (checkSlots stream0 0x10100 0x7A000000 1 0 false [(.s, 0x02054AA1)]).isOk = false ∧
    (checkSlots stream0 0x10100 0x7A000000 1 0 false [(.s, 0x82054AA1)]).isOk = true := by decide

/-- No result due; one due between two that are not; two of one register at one boundary, by slot and by order of issue; a stop with one left. -/
theorem witness_ResultsLand :
    (let s : State := { base with cur := { stream0 with land := [⟨3, 1, 0, .s 1 5, 0⟩] } }
     (∀ f ∈ s.cur.land, f.due ≠ s.cur.pos + 1) ∧ ∀ e ∈ s.cur.land, s.cur.pos ≤ e.due) ∧
    (let e : Land := ⟨1, 1, 0, .p 15 true, 1⟩
     let s : State := { base with cur := { stream0 with land := [⟨2, 1, 0, .s 1 5, 0⟩] ++ e :: [⟨8, 1, 0, .s 1 6, 0⟩] } }
     e.due = s.cur.pos + 1 ∧ ∀ f ∈ [(⟨2, 1, 0, .s 1 5, 0⟩ : Land)] ++ [⟨8, 1, 0, .s 1 6, 0⟩], f.due ≠ s.cur.pos + 1) ∧
    (let a : Land := ⟨1, 1, 0, .s 2 5, 1⟩
     let b : Land := ⟨1, 6, 0, .s 2 6, 2⟩
     let c : Land := ⟨1, 1, 7, .s 2 6, 2⟩
     (a.rank < b.rank ∨ a.rank = b.rank ∧ a.pos < b.pos) ∧ (a.rank < c.rank ∨ a.rank = c.rank ∧ a.pos < c.pos) ∧ stream0.s.wf = true) := by decide

theorem witness_NarrowingIsExact : (1 : Nat) ≠ 0 ∧ (fp32.value 0x7F7FFFFF).isFin = true ∧ (fp32.value 0x00000001).isFin = true := by decide

/-- A NaN and no NaN. -/
theorem witness_ScalarFloat :
    (fp32.value 0x7FC00000).isNan = true ∧ ((fp32.value 0x3F800000).isNan || (fp32.value 0xFF800000).isNan) = false := by decide

theorem witness_ControlFlow :
    base.cur.readP 0 = !false ∧ base.cur.readP 0 = true ∧ base.cur.readS 4 &&& 3 = 0 ∧ base.cur.readS 9 &&& 3 ≠ 0 ∧
    (withS 31 0x10104).cur.readS 31 &&& 3 = 0 ∧ (withS 31 0x10102).cur.readS 31 &&& 3 ≠ 0 ∧ base.cur.lc = 0 ∧ base.cur.ec = 0 := by decide

theorem witness_SystemRegisters : SysReg.csasize ∈ [SysReg.stkptr, .stkbase, .stklim, .dpb, .cycle, .wid, .vrank, .ctxid, .heat, .spwbase, .csasize] ∧
    SysReg.flags ≠ SysReg.fmode ∧ (0x03 : Byte) ∈ [(0x01 : Byte), 0x02, 0x03] ∧ (0x08 : Byte) ∈ [(0x05 : Byte), 0x06, 0x07, 0x08] ∧
    (0x10 : Byte) ∈ [(0x09 : Byte), 0x0D, 0x0E, 0x0F, 0x10] ∧ (0x12 : Byte) ∈ [(0x11 : Byte), 0x12] := by decide

/-- Entry outside and inside handler mode; ERET to an aligned and a misaligned address; a trap and a breakpoint that wait for the boundary. -/
theorem witness_Traps :
    base.cur.handler = false ∧ base.cur.land = [] ∧ inHandler.cur.handler = true ∧ inHandler.cur.land = [] ∧
    (inHandler.cur.trappc.setWidth 64 : Word64) &&& 3 = 0 ∧ ((0x10102 : BitVec 56).setWidth 64 : Word64) &&& 3 ≠ 0 ∧
    ({ cause := 0x12 } : TrapRec).cause ≠ 0x11 ∧ base.debugged base.cur = false := by decide

/-- A step launch and none, of a rank that has executed CATCH and of one that has not; a stream that ends, at its boundary; a cause of each layout. -/
theorem witness_TaskControl :
    ({ stream0 with sl := true } : Stream).sl = true ∧ stream0.sl = false ∧ (5 : BitVec 3).toNat ≤ 5 ∧ (base.rank 0).caughtExec = false ∧
    ({ caughtExec := true } : Rank).caughtExec = true ∧
    (let s : State := { base with cur := { stream0 with ending := 2 } }
     s.curLive = true ∧ s.cur.hold = none ∧ s.cur.btrap = none ∧ s.cur.stepOne = false ∧ s.cur.ending ≠ 0) := by decide

/-- A message at the window's base, a misaligned address and one in no held granule; a queue above 7, a full queue, and one with space. -/
theorem witness_EventsAndLaunches :
    base.mem.wq = [] ∧ base.mem.rq = [] ∧ base.treqs = [] ∧ base.cur.pend = [] ∧ (base.cur.readS 5).toNat % 64 ≠ 0 ∧ (base.cur.readS 3).toNat % 64 = 0 ∧
    (base.cur.readS 6).toNat % 64 = 0 ∧ (base.cur.winPieces 0 (base.cur.readS 6).toNat 192 .load).isOk = false ∧
    (base.cur.winPieces 0 (base.cur.readS 3).toNat 192 .load).isOk = true ∧ (base.cur.readOp (.reg 8)).toNat / 8 ≠ 0 ∧
    (base.cur.readOp (.reg 7)).toNat / 8 = 0 ∧ 64 ≤ (({ queues := [(7, List.replicate 64 {})] } : Ctx).queues.at 7 []).length ∧
    ((base.ctxAt 0).queues.at 7 []).length < 64 := by decide

theorem witness_VectorArithmetic : base.core.parity = [] := by decide

/-- A floating and an integer format; a clamp above and below. -/
theorem witness_VectorSelectBits : base.core.parity = [] ∧ (Fmt.ff .bf16).isSome = true ∧ Fmt.ff .i32 = none ∧ Fmt.ff .ni = none ∧
    (2 ^ 31 - 1 : Int) < (0x40000000 : Word32).toInt * 2 ^ 1 ∧ (0xBFFFFFFF : Word32).toInt * 2 ^ 1 < -(2 ^ 31) := by decide

/-- As many elements or more in the destination, and fewer. -/
theorem witness_VectorConvert : base.core.parity = [] ∧ 1 * 32 ≤ 32 ∧ 4 * 8 ≤ 32 ∧ 1 ≤ 4 ∧ 1 < 4 ∧
    ∀ o : Option Nat, (match o with | some _ => ((255, 0) : Nat × Flags) | none => (0, 0)).1 < 2 ^ 8 := by
  refine ⟨rfl, by decide, by decide, by decide, by decide, fun o => by cases o <;> simp⟩

/-- An allocated stream register, one that is not, and a handle out of range. -/
theorem witness_VectorFunctions :
    base.core.parity = [] ∧ (({ calico := [(3 * 63 + 2, 0x8000000000000001)] } : Rank).calico.get (3 * 63 + 2)).getLsbD 63 = true ∧
    ((base.rank 0).calico.get 2).getLsbD 63 = false ∧ (63 : Nat) < 64 ∧ 64 ≤ (withS 2 64).cur.readS 2 % 65536 := by decide

theorem witness_VectorReduce : base.core.parity = [] ∧ Fmt.isFW .f16 = true ∧ Fmt.isArg .i32 = true ∧ (Fmt.ff .e4m3).isSome = true ∧ Fmt.ff .i32 = none := by
  decide

/-- The window held with room, and a stack that the next record would pass. -/
theorem witness_ForwardPushes :
    (let s : State := { base with cur := { stream0 with winHeld := true } }
     s.core.parity = [] ∧ ¬(s.rank 0).stklim.toNat < (s.rank 0).stkbase.toNat + 272 * (s.depth + 1) ∧ s.cur.win.length < 480) ∧
    (let s : State := { base with cur := { stream0 with winHeld := true }, front := { ranks := [(0, { stkbase := 0x11000, stkptr := 0x11000, stklim := 0x1110F })] } }
     (s.rank 0).stklim.toNat < (s.rank 0).stkbase.toNat + 272 * (s.depth + 1)) := by decide

/-- The record of RADD on one line of FP32 cells with a CRC. -/
abbrev record (crc : BitVec 16) : RRec := { cells := List.replicate 64 0, t1 := tailWord 0 0 false 0 0x2C crc }

theorem record_t1 (crc : BitVec 16) : (record crc).t1.toNat = 0x2C0000 + crc.toNat := by
  have := crc.isLt
  simp [tailWord]
  omega

/-- The record passes every check of R195 against its own CRC, whatever that is. -/
theorem record_passes (s : State) (crc : BitVec 16) : s.undoCheck (record crc) 0x2C 0 0 false crc = none := by
  have h := record_t1 crc
  have hc := crc.isLt
  have m : (record crc).mark = false := by
    unfold RRec.mark BitVec.getLsbD
    rw [h]
    exact Nat.testBit_lt_two_pow (by omega)
  have f1 : fld (record crc).t1 21 16 = 0x2C := by simp only [fld, h, Nat.shiftRight_eq_div_pow]; omega
  have f2 : fld (record crc).t1 26 24 = 0 := by simp only [fld, h, Nat.shiftRight_eq_div_pow]; omega
  have f3 : fld (record crc).t1 31 29 = 0 := by simp only [fld, h, Nat.shiftRight_eq_div_pow]; omega
  have f4 : fld (record crc).t1 23 22 = 0 := by simp only [fld, h, Nat.shiftRight_eq_div_pow]; omega
  have f5 : fld (record crc).t1 15 0 = crc.toNat := by simp only [fld, h, Nat.shiftRight_eq_div_pow]; omega
  unfold State.undoCheck
  rw [m, f1, f2, f3, f4, f5]
  simp

/-- An empty stack; a top record of RADD, which passes for UADD and fails for USUB. -/
theorem witness_UndoPops :
    (let s : State := { base with cur := { stream0 with winHeld := true } }
     s.core.parity = [] ∧ s.depth = 0) ∧
    (let s : State := { base with cur := { stream0 with winHeld := true, win := [record (lineCrc (base.readSrc (.bc 2)))] } }
     s.cur.win = [record (lineCrc (s.readSrc (.bc 2)))] ∧
     s.undoCheck (record (lineCrc (s.readSrc (.bc 2)))) 0x2C Fmt.f32.bits.toNat 0 false (lineCrc (s.readSrc (.bc 2))) = none) ∧
    (base.undoCheck (record 0) 0x2D 0 0 false 0).isSome = true :=
  ⟨by decide, ⟨rfl, record_passes _ _⟩, by decide⟩

/-- A sum that both formats hold exactly, under tag 0, and one of every class. -/
theorem witness_UndoRestoresInput :
    (fwdAdd .f32 .rne false false 0x3F800000 0x40000000).tag = false ∧ (fwdAdd .f32 .rne false true 0x3F800000 0x40000000).tag = false ∧
    (fwdMul .bf16 .rne false 0x3F80 0x4000).tag = false ∧ (fwdRelu .f16 0xBC00).tag = false ∧ (fwdScalb .f32 .rne false 3 0x3F800000).tag = false ∧
    (fwdNarw .bf16 .rne false 1 0x3F800000 0).2.2.1 = false ∧ 0x3F800000 < 2 ^ Fmt.width .f32 0 ∧ 0x4000 < 2 ^ Fmt.width .bf16 0 := by decide

/-- The base state with the window held by the stream. -/
abbrev windowed (win : List RRec) (agent : Nat := 0) (flushing : Bool := false) (r : Rank := base.rank 0) : State :=
  { base with cur := { stream0 with winHeld := true, win := win, winAgent := agent, flushing := flushing }, front := { ctxs := [(0, {})], ranks := [(0, r)] } }

abbrev marker : RRec := { cells := List.replicate 64 0, t1 := 0x0000000708000000 }

abbrev plain : RRec := { cells := List.replicate 64 0 }

/-- A full and an empty stack, more and fewer records than are held, a marker under a record; the agent idle, spilling, filling; a stack in memory. -/
theorem witness_RemainderStack :
    (windowed []).inHold = false ∧ (windowed []).cur.winHeld = true ∧
    (let r : Rank := { stkbase := 0x11000, stkptr := 0x11000, stklim := 0x1110F }
     r.stklim.toNat < r.stkbase.toNat + 272 * ((windowed [] 0 false r).depth + 1)) ∧
    ¬((windowed []).rank 0).stklim.toNat < ((windowed []).rank 0).stkbase.toNat + 272 * ((windowed []).depth + 1) ∧
    (windowed []).depth < ((windowed []).cur.readOp (.imm 1)).toNat % 2 ^ 16 ∧
    ((windowed [plain]).cur.readOp (.imm 1)).toNat % 2 ^ 16 ≤ (windowed [plain]).cur.win.length ∧
    (let s := windowed [plain] 0 false { stkbase := 0x11000, stkptr := 0x11110, stklim := 0x18000 }
     s.cur.win.length < (s.cur.readOp (.imm 2)).toNat % 2 ^ 16 ∧ (s.cur.readOp (.imm 2)).toNat % 2 ^ 16 ≤ s.depth) ∧
    (∀ m ∈ [plain], m.mark = false) ∧ marker.mark = true ∧ agentNow (windowed [] 3).cur ≠ 1 ∧ agentNow (windowed [] 3).cur ≠ 2 ∧
    (windowed [] 1).cur.winAgent = 1 ∧ (windowed [] 2).cur.winAgent = 2 ∧ [plain, marker].length ≤ [plain, marker].length ∧
    ∀ e ∈ [plain, marker], e.cells.length = 64 := by decide

set_option maxRecDepth 20000 in
/-- Spills of 449 records and of one during a flush; fills of 31 and none of 32; places that an agent's access can reach, and one it cannot. -/
theorem witness_RemainderStack_agent :
    (448 < (windowed (List.replicate 449 {})).cur.win.length) ∧ (windowed [plain] 0 true).cur.flushing = true ∧ (windowed [plain] 0 true).cur.win ≠ [] ∧
    (let s := windowed (List.replicate 31 {}) 0 false { stkbase := 0x11000, stkptr := 0x11110, stklim := 0x18000 }
     s.cur.win.length < 32 ∧ (s.rank 0).stkbase.toNat < (s.rank 0).stkptr.toNat) ∧
    ((windowed [plain] 1).pieces { (windowed [plain] 1).cur with det := false } 0 0x11000 272 .ewrite).isOk = false ∧
    (let s : State := { windowed [plain] 1 with crews := [(0, { tlb := [page] })] }
     (s.pieces { s.cur with det := false } 0 0x11000 272 .ewrite).isOk = true ∧ (s.pieces s.cur 0 0x11000 272 .eread).isOk = true ∧
       cut 4096 0x11000 272 = [(0x11000, 272)] ∧ s.mapped 0x11000 272 .ewrite page ∧ s.mapped 0x11000 272 .eread page) := by
  unfold State.mapped
  decide

/-- Whether n window bytes lie in held granules. -/
abbrev okPieces (s : State) (va n : Nat) (k : AKind) : Bool := (s.cur.winPieces 0 va n k).isOk

/-- Aligned and held, misaligned, not held; an uncorrectable word; a bank that no hold covers, and none of another stream's. -/
theorem witness_KSlot :
    (base.cur.readS 3).toNat % 4 = 0 ∧ (base.cur.readS 5).toNat % 4 ≠ 0 ∧ okPieces base win0.toNat 256 .store = true ∧
    okPieces base (win0.toNat + 0x20000) 4 .load = false ∧ okPieces base (win0.toNat + 0x1FFFC) 4 .load = true ∧
    base.bankHeld 0 [(0, 256)] = false ∧
    (match base.cur.winPieces 0 win0.toNat 4 .load with | .ok ps => ps.any (fun p => p.bad { base.mem with bad := [0] }) | .error _ => false) = true := by
  decide

/-- An access outside a hold to the page, to an address without one, across its end, and to the window in a hold and in none. -/
theorem witness_LoadsAndStores :
    base.inHold = false ∧ held.inHold = true ∧ inWindow 0x10000 = false ∧ inWindow win0.toNat = true ∧ (base.cur.readS 4).toNat % 64 = 0 ∧
    (base.cur.readS 5).toNat % 2 ≠ 0 ∧ (base.pieces base.cur 0 0x10000 256 .load).isOk = true ∧ (base.pieces base.cur 0 0x1FF80 256 .load).isOk = false ∧
    (held.pieces held.cur 0 win0.toNat 8 .store).isOk = true ∧ (base.pieces base.cur 0 0x10000 8 .store).isOk = true ∧
    (base.xlat 0 0 0x10000 .load).isOk = true ∧ (base.xlat 0 0 0x20000 .load).isOk = false ∧ page.home = 1 ∧ base.core.parity = [] := by decide

/-- The frame that a load's translation fault names, if it faults. -/
abbrev faultFrame (s : State) (va : Nat) : Option (Option (Nat × Nat)) :=
  match s.xlat 0 0 va .load with
  | .error t => some t.frame
  | .ok _ => none

/-- A page whose home is another die, for a replica; one pinned in its slice; a fault that names no frame and one that does; a load on its way. -/
theorem witness_LoadsAndStores_pref :
    (let e : Tlb := { page with home := 0, pa := 2 ^ 39 }
     paDie (e.phys 0x10000 / 128 * 128) ≠ coreDie 0) ∧
    faultFrame base 0x20000 = some none ∧ faultFrame { base with core := { tlb := [{ page with pa := 2 ^ 37 - 65536 }] } } 0x10000 = some (some (0x1FFFFF0, 0x10000)) ∧
    (let p : Pend := ⟨2, 0, [.s 5 0], 0, [], some ⟨[(⟨0x10000, 4, .glob 0x10000 page⟩ : Piece)].map (fun q => q.part []), .scalar 5 4 false⟩⟩
     p.rd.isSome = true ∧ ∀ q ∈ [(⟨0x10000, 4, .glob 0x10000 page⟩ : Piece)], q.pl = .glob 0x10000 page) ∧ (∀ q ∈ base.cur.pend, q.rd = none) ∧ paDie ({ page with home := 0 }.phys 0x10000 / 128 * 128) = coreDie 0 ∧
    ({ page with home := 2 } : Tlb).home = 2 := by decide

/-- A byte stored, its neighbours, its word and the next one. -/
theorem witness_StoreChangesItsBytes : State.reset.Canon ∧ 4 ≤ 4 ∧ 4 < 4 + [(1 : Byte)].length ∧ 5 / 4 = 1 ∧ page.home ≠ 3 :=
  ⟨⟨rfl, rfl, rfl, rfl⟩, by decide, by decide, by decide, by decide⟩

/-- Empty words, the second of two not full, both full; outside the window, across its end, in no held granule; a wait that has lasted FEWAITLIM cycles. -/
theorem witness_FullEmptyAndHolds :
    base.Canon ∧ (base.cur.readS 3).toNat % 8 = 0 ∧ (base.cur.readS 5).toNat % 4 ≠ 0 ∧ inWindow (base.cur.readS 4).toNat = false ∧
    win0.toNat + 8 ≤ 2 ^ 56 ∧ okPieces base win0.toNat 8 .load = true ∧ okPieces base (win0.toNat + 0x20000) 4 .load = false ∧
    (match base.cur.winPieces 0 win0.toNat 8 .load with | .ok ps => (feWords ps).map (fun w => w.1) == [0, 1] | .error _ => false) = true ∧
    base.vfe.get 0 ≠ 1 ∧ ({ base with mem := { fe := [(0, 1)] } } : State).vfe.get 0 = 1 ∧ ({ base with mem := { fe := [(0, 1)] } } : State).vfe.get 1 ≠ 1 ∧
    (withS 2 0x10000).cur.readS 2 % 2 ^ 17 = 65536 ∧ (withS 2 0x10001).cur.readS 2 % 2 ^ 17 = 65537 ∧ stream0.fixed < (513 + 511) / 512 - 1 ∧ ¬stream0.fixed < (512 + 511) / 512 - 1 ∧
    (let s : State := { base with cur := { stream0 with mark := .stalled true (some { cause := 0x09 }) .nothing, fewaitlim := 4, waitCyc := 4 } }
     s.cur.fewaitlim ≠ 0 ∧ s.cur.fewaitlim.toNat ≤ s.cur.waitCyc) ∧
    held.inHold = true ∧ ([(2 ^ 20, 8)] : List (Nat × Nat)).any (fun e => e.1 / 2 ^ 20 != held.curKey / 2) = true :=
  ⟨⟨rfl, rfl, rfl, rfl⟩, by decide⟩

/-- No hold and a hold; one with bundles left and used up; a stall for the ninth cycle. -/
theorem witness_FullEmptyAndHolds_hold :
    base.cur.hold = none ∧ held.cur.hold = some { mask := 1, left := 2 } ∧ ({ mask := 1, left := 0 } : Hold).left = 0 ∧
    8 ≤ ({ mask := 1, left := 1, stalls := 8 } : Hold).stalls ∧ ({ mask := 1, left := 1, stalls := 7 } : Hold).stalls < 8 ∧ base.curLive = true := by decide

/-- An address above the space, in the window, misaligned, without a page, and in the page; a hold. -/
theorem witness_Atomics :
    (2 ^ 56 ≤ (base.cur.readS 8).toNat) ∧ (Config.spwbase ≤ (base.cur.readS 3).toNat ∧ (base.cur.readS 3).toNat < 2 ^ 56) ∧
    (base.cur.readS 9).toNat % 4 ≠ 0 ∧ (base.cur.readS 4).toNat < Config.spwbase ∧ (base.cur.readS 4).toNat % 16 = 0 ∧
    (base.xlat 0 0 0x10000 .atomic).isOk = true ∧ (base.xlat 0 0 0x20000 .atomic).isOk = false ∧ (base.ctxAt 0).bumps.contains 0 = false ∧
    held.inHold = true ∧ base.inHold = false ∧ base.pendingOn 0 0x10000 8 = [] ∧ paDie 0x10000 = coreDie 0 ∧ page.home = 1 := by decide

/-- A deque that is full, another rank's, its own and empty; a granule held, received, misaligned, outside the window, not held, and busy. -/
theorem witness_DequesAndGranules :
    (let q : Deque := { n := 256, ctx := 0, rank := 0 }
     q.n = 256) ∧ (let q : Deque := { n := 1, ctx := 1 }; q.n ≠ 0 ∧ ¬(q.ctx = base.cur.ctx ∧ q.rank = base.cur.vrank.toNat)) ∧
    (let q : Deque := { n := 255, ctx := 0, rank := 0 }; q.n ≠ 256 ∧ q.ctx = base.cur.ctx ∧ q.rank = base.cur.vrank.toNat) ∧ ({} : Deque).n = 0 ∧
    (base.cur.readS 5).toNat % 65536 ≠ 0 ∧ (base.cur.readS 3).toNat % 65536 = 0 ∧ inWindow (base.cur.readS 4).toNat = false ∧
    (base.cur.readS 4).toNat % 65536 = 0 ∧ (base.cur.winKey 0 (base.cur.readS 3).toNat).isOk = true ∧
    (base.cur.winKey 0 (base.cur.readS 6).toNat).isOk = false ∧ base.granBusy win0.toNat = false := by decide

abbrev ring : Ring := { base := 0x8000, slot := 128, count := 4, head := 1, tail := 3, filled := 2 }

/-- A ring outside a half stream's, none defined; a count of 0, above COUNT, above the free and above the filled slots, and at the limit of each; a
descriptor with a reserved bit, with a misaligned base, and a good one of 256 slots of 1 MiB. -/
theorem witness_Rings :
    (({ stream0 with tiles4 := true } : Stream).tiles4 = true ∧ 8 ≤ (8 : BitVec 4).toNat) ∧ base.cur.rings.find 0 = none ∧ base.vrings.find 0 = none ∧
    ({ stream0 with rings := [(0, ring)] } : Stream).rings.find 0 = some ring ∧ (withS 2 512).cur.readS 2 % 512 = 0 ∧ ring.count < 5 ∧
    ring.count - ring.filled < 3 ∧ 2 ≤ ring.count - ring.filled ∧ ring.filled < 3 ∧ 2 ≤ ring.filled ∧ ring.filled ≤ ring.count ∧
    base.ownCalls 0 = [] ∧ okPieces base win0.toNat 16 .load = true ∧
    ((2 ^ 41 : Nat) / 2 ^ 41 ≠ 0) ∧ (2 ^ 40 + 2 ^ 20) / 2 ^ 41 = 0 ∧ (2 ^ 40 + 2 ^ 20) / 2 ^ 32 % 512 = 256 ∧ (2 ^ 40 + 2 ^ 20) % 2 ^ 32 = 1048576 ∧ (64 : Nat) % 128 ≠ 0 := by
  decide

/-- A load on its way and none, a write on its way, an operation that has not completed; code to invalidate: none, 2^24 bytes, up to the window,
into it, in the page and without one. -/
theorem witness_Fences :
    base.cur.pend = [] ∧ (({ stream0 with pend := [⟨0, 0, [], 0, [], none⟩] } : Stream).pend ≠ []) ∧ base.mem.wq = [] ∧ base.mem.rq = [] ∧
    (∃ w ∈ [({ id := 0, key := 0, va := 0, pa := 0, bytes := [] } : PWrite)], ¬w.key ≠ base.curKey) ∧ base.joined 0 = true ∧
    ({ base with ops := [{ id := 0, key := 0, kind := .copy {} }] } : State).joined 0 = false ∧
    2 ^ 24 ≤ (withS 2 (2 ^ 24)).cur.readS 2 % 2 ^ 32 ∧ (withS 2 (2 ^ 32)).cur.readS 2 % 2 ^ 32 = 0 ∧
    Config.spwbase < win0.toNat + 1 ∧ win0.toNat - 1 + 1 ≤ Config.spwbase ∧ 2 ^ 56 ≤ (base.cur.readS 8).toNat ∧
    base.view = none ∧ base.cur.fixed < 32 + 1 / 16 ∧ 32 + 1 / 16 ≤ ({ stream0 with fixed := 32 } : Stream).fixed ∧
    (base.icinvPages 0 0 (cut 4096 0x10000 8)).isOk = true ∧ (base.icinvPages 0 0 (cut 4096 0x20000 8)).isOk = false := by decide

/-- The words of a descriptor at the window's first address that any access may read (R237). -/
abbrev descr (s : State) (n : Nat) : Option (List Word64) :=
  match s.pieces s.cur 0 win0.toNat n .load with
  | .error _ => none
  | .ok (ps, u) =>
    if u.inHold || ps.any (fun p => p.bad u.mem) || ps.any (u.bumping u.cur.ctx) || u.bankHeld u.curKey (winKeys ps) then none
    else some (words64 (u.readPieces u.vspad u.curKey u.cur.slot u.cur.ctx ps).1)

/-- The words of a descriptor there that must lie in held granules (R248). -/
abbrev heldWords (s : State) (n : Nat) : Option (List Word64) :=
  match s.cur.winPieces 0 win0.toNat n .load with
  | .error _ => none
  | .ok ps => if ps.any (fun p => p.bad s.mem) then none else some (words64 (winBytes s.vspad ps))

/-- Entry 63, and 32 of a half stream; an entry not recorded, a hit at its last byte, a miss of 2 lines and one of 3, an invalid entry; descriptors
with a reserved bit, with each field misaligned, and a good one. -/
theorem witness_LoadBlocks :
    ({ stream0 with tiles4 := true } : Stream).tiles4 = true ∧ (withS 2 32).cur.readS 2 % 64 = 32 ∧ base.cur.blks.find 63 = none ∧
    (let q : LBlk := { tag := 0x10000, slot := win0.toNat, few := win0.toNat + 0x200, lines := 2, valid := true }
     ({ stream0 with blks := [(63, q)] } : Stream).blks.find 63 = some q ∧ q.tag ≤ 0x100FF ∧ 0x100FF < q.tag + 128 * q.lines ∧
       ¬0x10100 < q.tag + 128 * q.lines ∧ q.lines = 2 ^ 1 ∧ ∀ m, m < 7 → 3 ≠ 2 ^ m) ∧ ({} : LBlk).valid = false ∧
    ({ valid := true, evicting := true } : LBlk).evicting = true ∧ base.fillHeld 0 (win0.toNat + 0x200) 4 = false ∧ beside.fillHeld 0 (win0.toNat + 0x200) 4 = true ∧
    descr (withWords [0x0400000000010000, win0, win0 + 0x200]) 24 = some [0x0400000000010000, win0, win0 + 0x200] ∧
    wbits [0x0400000000010000, win0, win0 + 0x200] 0 63 58 = 1 ∧ wbits [0x0400000000010000, win0, win0 + 0x200] 0 57 56 = 0 ∧
    wbits [0x0100000000010000] 0 57 56 ≠ 0 ∧ (win0 + 64).toNat % 128 ≠ 0 ∧ 0x10001 % 128 ≠ 0 ∧ (win0 + 0x201).toNat % 4 ≠ 0 ∧
    okPieces base win0.toNat 256 .ewrite = true ∧ okPieces base (win0.toNat + 0x200) 4 .ewrite = true ∧
    (base.ops.filter (fun o => o.key == base.curKey && o.queued)).length < 32 := by decide

/-- Registers misaligned one after the other and none; a transposing copy out of the window and one out of the page; a copy descriptor that is bad, one
with a misaligned completion word, a good one; a near-memory command that is bad, with a misaligned base, a misaligned status word, and a good one. -/
theorem witness_CopiesAndNearMemory :
    (base.cur.readS 9).toNat % 128 ≠ 0 ∧ (base.cur.readS 4).toNat % 128 = 0 ∧ (base.cur.readS 5).toNat % 128 ≠ 0 ∧ (base.cur.readS 3).toNat % 128 = 0 ∧
    (base.cur.readS 5).toNat % 4 ≠ 0 ∧ inWindow (base.cur.readS 3).toNat = true ∧ inWindow (base.cur.readS 4).toNat = false ∧
    okPieces base win0.toNat 4 .ewrite = true ∧ (base.cur.readS 5).toNat % 8 ≠ 0 ∧ (base.cur.readS 3).toNat % 64 = 0 ∧
    (let w : List Word64 := [0x10000, win0 + 0x1000, 0, 0x0001000040000000, 0x4000004000000000]
     heldWords (withWords w) 40 = some w ∧ wbits w 3 63 48 = 1 ∧ wbits w 3 47 24 = 64 ∧ wbits w 3 23 22 = 0 ∧ wbits w 4 61 53 = 0 ∧ wbits w 3 19 0 = 0 ∧
       (wordAt w 4).getLsbD 62 = true ∧ (Config.spwbase + wbits w 4 52 32) % 4 = 0 ∧ okPieces base (Config.spwbase + wbits w 4 52 32) 4 .ewrite = true) ∧
    (let w : List Word64 := [0x10000, win0 + 0x1000, 0, 0x0000000040000000, 0x4000004100000000]
     heldWords (withWords w) 40 = some w ∧ wbits w 3 63 48 = 0 ∧ (Config.spwbase + wbits w 4 52 32) % 4 ≠ 0) ∧
    (let w : List Word64 := [0x1000000000010000, 0x10080, 0x0000000400000000, 0, win0 + 0x40, 0, 0, 0]
     heldWords (withWords w) 64 = some w ∧ wbits w 0 63 60 = 1 ∧ wbits w 2 63 32 = 4 ∧ wbits w 0 55 0 % 128 = 0 ∧ wbits w 4 55 0 % 8 = 0 ∧
       wbits w 0 58 56 = 0 ∧ wbits w 1 63 56 = 0 ∧ wbits w 2 31 0 = 0 ∧ okPieces base (win0.toNat + 0x40) 8 .ewrite = true) ∧
    wbits [0x5000000000010000] 0 63 60 = 5 ∧ wbits [0x1000000000010001] 0 55 0 % 128 ≠ 0 ∧ (win0.toNat + 0x41) % 8 ≠ 0 := by decide

set_option maxRecDepth 20000 in
/-- A result area and a block misaligned and not; a region of 4 tuples, a keyed one, none, and a handle out of range; a block for a deposit and for a
copy, each good and bad; an area in use; a request to cancel behind a deposit. -/
theorem witness_TulleRequests :
    (base.cur.readS 5).toNat % 8 ≠ 0 ∧ (base.cur.readS 3).toNat % 64 = 0 ∧ (withS 2 0x10020).cur.readS 2 % 64 ≠ 0 ∧
    (let s : State := { withWords [5, 0, 0, 0, 0, 0, 0, 0] with front := { ctxs := [(0, { tulle := [(1023, 0x8000000000000004)] })] } }
     heldWords s 64 = some [5, 0, 0, 0, 0, 0, 0, 0] ∧ ¬((s.ctxAt 0).tulle.get 1023).toNat / 2 ^ 63 = 0 ∧ ((s.ctxAt 0).tulle.get 0).toNat / 2 ^ 63 = 0 ∧
       ¬((s.ctxAt 0).tulle.get 1023).toNat / 2 ^ 62 % 2 = 1 ∧ wbits [5, 0] 0 44 32 = 0 ∧ wbits [5, 0] 0 47 45 = 0 ∧
       (s.treqs.filter (fun t => t.key == s.curKey)).length < 16) ∧ 1024 ≤ 1024 ∧ (0xC000000000000004 : Word64).toNat / 2 ^ 62 % 2 = 1 ∧
    (let w : List Word64 := [0, 1, 0, 0, 0, 0, 0, 0, 0, 0, 0, 0, 0, 0, 0, 0]
     heldWords (withWords w) 128 = some w ∧ wbits w 1 1 0 = 1 ∧ wbits w 1 31 15 = 0 ∧ ∀ i, i < 7 → wbits w 1 (2 * i + 1) (2 * i) ≠ 3) ∧
    wbits [0, 3] 1 1 0 = 3 ∧ wbits [0, 0x8000] 1 31 15 ≠ 0 ∧ wbits [0x100000000] 0 44 32 ≠ 0 ∧ okPieces base (win0.toNat + 0x100) 72 .ewrite = true ∧
    (let t : TReq := { id := 0, key := 0, ctx := 0, slot := 0, handle := 0, kind := .take, home := 0, words := [], res := win0.toNat + 0x100, place := [] }
     let d : TReq := { t with id := 1, kind := .dep }
     t.key = base.curKey ∧ t.res < win0.toNat + 0x100 + 8 ∧ win0.toNat + 0x100 < t.res + t.kind.size ∧ t.kind ≠ .dep ∧
       ¬(d.key = base.curKey ∧ d.res = win0.toNat + 0x100 ∧ d.kind ≠ .dep)) := by decide

/-- The base state with channel 255 of rank 0 to peer 1, its list's control block and nodes in the page, which the crew's TLB holds too. -/
abbrev chan (row : Row) : State :=
  { base with
    crews := [(0, { tlb := [page] })],
    mem := { hbm := [(0x12018, 0x80), (0x12019, 0x20), (0x1201A, 0x01), (0x12021, 0x40), (0x12022, 0x01)], enc := [(0x12000 / 128, {})] },
    front := { ctxs := [(0, {})], ranks := [(0, { state := .active, ovfhead := 0x12000, rows := [(255, row)] })] } }

/-- Registers misaligned and not; reserved bits; no row; a send at the depth and under it; a message listed and none, 15 receives posted and 16. -/
theorem witness_ChannelInstructions :
    (base.cur.readS 5).toNat % 8 ≠ 0 ∧ (base.cur.readS 9).toNat % 4 ≠ 0 ∧ (base.cur.readS 4).toNat % 4 = 0 ∧ 256 / 2 ^ 8 ≠ 0 ∧
    2 ^ 48 / 2 ^ 48 % 2 ^ 15 ≠ 0 ∧ (base.rank 0).rows.find 255 = none ∧ okPieces base win0.toNat 8 .ewrite = true ∧ inWindow (base.cur.readS 4).toNat = false ∧
    (let s := chan { valid := true, bytes := 4, peer := 1, depth := 1, sseq := 0, ackseq := 0xFFFFFFFF }
     (s.rank 0).row 255 = some { valid := true, bytes := 4, peer := 1, depth := 1, sseq := 0, ackseq := 0xFFFFFFFF } ∧ (s.rank 0).chanStop = false) ∧
    ({ rows := [(255, { peer := 1 })] } : Rank).row 255 = none ∧ ({ chanStop := true } : Rank).chanStop = true ∧
    base.windowPosts 0 0 < 16 ∧
    1 ≤ ((0 : Word32) - 0xFFFFFFFF).toNat ∧ ((0 : Word32) - 0).toNat < 1 ∧
    ((chan { valid := true, bytes := 4, peer := 1, depth := 1 }).listTake 0 255 0).toOption.map (fun r => r.1) = some none ∧
    (List.replicate 15 ({ seq := 0, buf := 0, stat := none, tref := none, key := 0, window := false } : Post)).length < 16 := by decide

/-- An empty list whose control block lies in a page of HOME = 00 that the crew's TLB holds. -/
theorem witness_ChannelInstructions_empty :
    (let s := chan { valid := true, bytes := 4, peer := 1, depth := 1 }
     ({ s with crews := [(0, { tlb := [{ page with home := 0 }] })] } : State).listEmpty) :=
  ⟨{ page with home := 0 }, by unfold State.rankPage; decide, by decide⟩

/-- A message of the row's next sequence number on the list, and its delivery. -/
theorem witness_ChannelInstructions_listed :
    (match (chan { valid := true, bytes := 4, peer := 1, depth := 1 }).listAppend 0 255 0 [1, 2, 3, 4] with
     | .ok (true, s) => ((s.listTake 0 255 0).toOption.map (fun r => r.1.isSome))
     | _ => none) = some true ∧
    ((chan { valid := true, bytes := 4, peer := 1, depth := 1 }).receive 0 { seq := 0, buf := 0x10000, stat := none, tref := none, key := 0, window := false } [1, 2, 3, 4]).isSome = true := by
  decide +kernel

/-- An amount of 0 and of 1, 15 commands queued and 16. -/
theorem witness_ChannelInstructions_tkdec :
    (base.cur.readOp (.imm 0)).toNat % 2 ^ 16 = 0 ∧ (base.cur.readOp (.imm 1)).toNat % 2 ^ 16 ≠ 0 ∧
    (let o : Op := { id := 0, key := 0, kind := .dec {} 1 (some 0) }
     ((List.replicate 15 o).filter (fun o => match o.kind with | .dec _ _ (some c) => c == 0 | _ => false)).length < 16 ∧
     ¬((List.replicate 16 o).filter (fun o => match o.kind with | .dec _ _ (some c) => c == 0 | _ => false)).length < 16) := by decide

/-- The base state as rank 0 of a job of two ranks. -/
abbrev jobbed (ws : List Word64) : State :=
  { withWords ws with front := { ctxs := [(0, {})], jobs := [(0, { job := 1, ctx := 0, v := 2, coord := 0 })], ranks := [(0, { state := .active, job := 1 })] } }

/-- A sum over ranks 0 and 1 of 4 FP32 values with a status word; each field misaligned; a reserved bit; a group that leaves this rank out; a CID used. -/
theorem witness_CollectiveInstructions :
    (let w : List Word64 := [0x10000, 0x10100, 0x700000000, 0x0000000100000000, 0x1000004, win0 + 0x40, 0, 0]
     descr (jobbed w) 64 = some w ∧
     (let d := collOf (jobbed w) w
      d.src % d.size = 0 ∧ d.dst % d.size = 0 ∧ d.stat = some (win0.toNat + 0x40) ∧ d.kind = 0 ∧ d.fmt = 0 ∧ d.count = 4 ∧ d.op = 0 ∧ d.first = 0 ∧ d.last = 1 ∧
        inWindow d.src = false ∧ inWindow d.dst = false ∧ ¬(d.count * d.size < 1) ∧ ((jobbed w).rank 0).cids.contains d.cid = false) ∧
     okPieces base (win0.toNat + 0x40) 16 .ewrite = true ∧ (((jobbed w).jobOf 0 1).map (fun e => e.2.v)) = some 2 ∧ ((jobbed w).rank 0).buckets.length < 16) ∧
    (win0.toNat + 0x44) % 8 ≠ 0 ∧ 0x10002 % (collOf base [0x10002]).size ≠ 0 ∧ wordAt [0, 0, 0, 0, 0, 0, 0, 1] 7 ≠ 0 ∧
    (collOf base [0, 0, 0, 0x0001000100010000]).first = 1 ∧ [(7 : Word32)].contains 7 = true := by decide

/-- A call of routine 0 with tile 0 that runs at micro address 0, and rings 0 and 1 with a filled slot of 64 FP32 k each, ring 2 with an empty one. -/
abbrev running (fa fb : MFmt) (mask : List Nat := [0]) : State :=
  { base with
    cur := { stream0 with rings := [(0, { base := win0.toNat, slot := 16384, count := 1, filled := 1 }),
                                    (1, { base := win0.toNat + 0x4000, slot := 16384, count := 1, filled := 1 }),
                                    (2, { base := win0.toNat + 0x8000, slot := 16384, count := 1 })] },
    core := { tlb := [page], calls := [{ key := 0, kind := .routine 0, fa := fa, fb := fb, mask := mask, tiles := [0, 1, 2, 3, 4, 5, 6, 7], running := true }] } }

/-- The state, the stream and the call with which a micro-op begins. -/
abbrev begun (s : State) (i : Instr) : Option (State × Stream × Call) :=
  match s.runCall with
  | none => none
  | some c =>
    let r := s.decodeAhead c i
    if (s.stream c.key).isSome && decide (c.cycles < 2048) then (r.1.stream r.2.key).map (fun x => (r.1.setCall r.2, x, r.2)) else none

/-- A call that may enter, one whose tile is in flight, loading, or not granted, a full queue; routine 64 of a half stream; MLOAD misaligned, of no word,
past the part, of the last word, out of the granules; a head that is due and one that is not; MZERO, MTRAN and a routine at its EXIT. -/
theorem witness_MatrixCalls :
    base.ownCalls 0 = [] ∧ (running .f32 .f32).ownCalls 0 ≠ [] ∧ base.core.calls.length < 2 ∧
    base.cur.shadows [0] = false ∧ base.loadsLine [0] = false ∧ base.cur.loading [0] = false ∧
    ({ stream0 with land := [⟨2, 1, 0, .cells [(5, 0)], 0⟩] } : Stream).shadows [0] = true ∧
    ({ stream0 with pend := [⟨0, 0, [.cells [(5, 0)]], 0, [], none⟩] } : Stream).loading [0] = true ∧
    (({ stream0 with tiles4 := true } : Stream).tiles4 = true ∧ 64 ≤ (64 : BitVec 7).toNat) ∧
    (base.cur.readS 5).toNat % 8 ≠ 0 ∧ (base.cur.readS 3).toNat % 8 = 0 ∧ 2048 < 2047 + 2 ∧ 2047 + 1 ≤ 2048 ∧ okPieces base win0.toNat 8 .load = true ∧
    okPieces base (win0.toNat + 0x20000) 8 .load = false ∧ base.core.store.wf = true ∧ base.core.mrf.wf = true ∧
    (let c : Call := { kind := .mzero, issued := 0 }
     c.issued + 4 ≤ (4 : Word64).toNat ∧ ¬c.issued + 4 ≤ (3 : Word64).toNat ∧ c.running = false ∧ ∀ x, base.stream 0 = some x → x.halted = false) ∧
    (let s : State := { running .f32 .f32 with core := { (running .f32 .f32).core with store := [(0, 0x4400000000000000)] } }
     (s.runCall.map (fun c => decodeMicro (s.microWord c))) = some (some .exit)) ∧
    (let x : Stream := { stream0 with fixed := 1 }
     stream0.fixed < (8 * 1 + 2047) / 2048 ∧ (8 * 1 + 2047) / 2048 ≤ x.fixed) := by decide

/-- The call has made its copies. -/
abbrev copied : State :=
  { running .f32 .f32 with core := { (running .f32 .f32).core with calls := (running .f32 .f32).core.calls.map (fun c => { c with fetched := true }) } }

/-- The call stands at a micro-op whose next word asks for no copy; its rings' slots lie in granules held; a head slot in held banks and not. -/
theorem witness_MatrixMultiplies_starts :
    (∀ i : Instr, copied.core.calls.head?.isSome = true ∧ ∀ c ∈ copied.core.calls, c.follow i < 2048 →
      decodeMicro (copied.microWord { c with upc := c.follow i }) = none → copied.atWord i copied.cur c) ∧
    (running .f32 .f32).microWord { upc := 1 } = 0 ∧ decodeMicro 0 = none ∧ ({ upc := 0 } : Call).follow (.mac 0 1 63 1) = 1 ∧
    ((running .f32 .f32).cur.inGrans 0 win0.toNat 0xC000) ∧
    (running .f32 .f32).ringHeld (running .f32 .f32).cur 0 [(win0.toNat, 16384)] = false ∧
    ({ running .f32 .f32 with streams := beside.streams } : State).ringHeld (running .f32 .f32).cur 0 [(win0.toNat, 16384)] = true := by
  refine ⟨fun i => ⟨rfl, ?_⟩, by decide, by decide, by decide, held_inGrans _ _ _ _ rfl (by decide) (by decide), by decide, by decide⟩
  intro c hc hf hd
  simp only [List.map_cons, List.map_nil, List.mem_singleton] at hc
  subst hc
  refine ⟨rfl, rfl, rfl, by decide, .inl rfl, .inr (.inr ?_)⟩
  rw [hd]
  intros
  exact fun h => nomatch h

/-- A product of one k; undefined rings; formats the micro-op does not take; a tile not held; an extent of 0 and one past the panels; an empty slot. -/
theorem witness_MatrixMultiplies :
    ((begun (running .f32 .f32) (.mac 0 1 63 1)).map (fun b =>
      decide (b.2.2.fb ≠ .spt) && b.2.2.mask.contains b.2.2.accTile && decide (b.1.core.parity = []) && b.1.core.mrf.wf && b.2.2.rate == 1 &&
      (match b.2.1.rings.find 0, b.2.1.rings.find 1 with
       | some p, some q => decide (p.filled ≠ 0) && decide (q.filled ≠ 0) && decide (63 + 1 ≤ min (slotDepth p.slot .f32 0) (slotDepth q.slot .f32 0)) &&
           (b.1.headPanel b.2.1 0 p .f32 0 (64 * 63) 64).isOk && (b.1.headPanel b.2.1 0 q .f32 0 (64 * 63) 64).isOk
       | _, _ => false))) = some true ∧
    ((begun (running .f32 .f32) (.mac 0 3 63 1)).map (fun b => b.2.1.rings.find 3)) = some none ∧
    ((begun (running .e4m3 .spt) (.mac 0 1 0 16)).map (fun b => b.2.2.fb)) = some .spt ∧
    ((begun (running .e4m3 .spt) (.macw 0 1 0 16)).map (fun b => decide (b.2.2.fa = .e4m3 ∧ b.2.2.fb = .spt) && b.2.2.rate == 16)) = some true ∧
    ((begun (running .f32 .f32 [1]) (.mac 0 1 0 1)).map (fun b => b.2.2.mask.contains b.2.2.accTile)) = some false ∧
    (0 : BitVec 10).toNat = 0 ∧ ¬64 + 1 ≤ slotDepth 16384 .f32 0 ∧ ((running .f32 .f32).cur.rings.find 2).map (fun g => g.filled) = some 0 ∧
    ((begun (running .f32 .f32 [0, 1]) (.mact 1 0 1 1 true)).map (fun b => b.2.2.mask.contains (b.2.2.tiles.getD 1 255) && b.2.2.mask.contains b.2.2.accTile)) = some true ∧
    ((begun (running .f32 .f32) (.macg 2 1 0 1 false 0)).map (fun b => b.2.2.fetched)) = some false := by decide

set_option maxRecDepth 20000 in
/-- A structured-sparse product of 48 k, 6 of them stored, whose positions rise from 0 to 5 in every column. -/
theorem witness_MatrixMultiplies_sparse :
    let bytes : List Byte := ((List.range 6).map (fun n => List.replicate 64 (BitVec.ofNat 8 n))).flatten
    bytes.length = 384 ∧ ∀ n, n < 6 → ∀ j, j < 64 →
      (bytes.getD (64 * n + j) 255).toNat < 48 ∧ (n + 1 < 6 → (bytes.getD (64 * n + j) 255).toNat < (bytes.getD (64 * (n + 1) + j) 255).toNat) := by decide

/-- Each micro-op on a call that holds its accumulator; a ring undefined, short of slots, and with enough; an undefined scale form, the reserved format. -/
theorem witness_MicroOps :
    (∀ i ∈ [Instr.unop, .setc 1, .exit, .microLoop 0 0 5, .waitring 0 1, .ringadv 0 1, .accscl true 3 true, .accscl false 15 false, .cvtout 2 0 false false],
      (begun (running .f32 .f32) i).map (fun b => decide (b.1.core.parity = []) && b.1.core.mrf.wf && b.2.2.mask.contains b.2.2.accTile) = some true) ∧
    (running .f32 .f32).cur.rings.find 3 = none ∧ ((running .f32 .f32).cur.rings.find 0).map (fun g => decide (g.filled < 2) && decide (1 ≤ g.filled)) = some true ∧
    (true = true ∧ 4 ≤ (4 : BitVec 4).toNat) ∧ (6 : BitVec 3) = 6 ∧ 16384 / 4 * Fmt.count .f32 0 = 4096 ∧ 16380 / 4 * Fmt.count .f32 0 < 4096 ∧
    ((running .f32 .f32).cur.rings.find 2).map (fun g => decide (g.filled < g.count)) = some true ∧
    (match (running .f32 .f32).cur.winPieces 0 (win0.toNat + 0x8000) 16384 .ewrite with
     | .ok ps => base.bankHeld 0 (winKeys ps) == false && beside.bankHeld 0 (winKeys ps)
     | .error _ => false) = true ∧
    ((running .f32 .f32).cur.rings.find 0).map (fun g => decide (g.count ≤ g.filled)) = some true ∧ okPieces base (win0.toNat + 0x8000) 16384 .ewrite = true := by
  decide

/-- An operation of each kind, done and not; a later fill of its entry and none; results that may land and one that may not. -/
theorem witness_Completions :
    (let o : Op := { id := 3, key := 0, kind := .copy { fe := some win0.toNat }, status := some 0 }
     let s : State := { base with ops := [{ id := 1, key := 0, kind := .copy {} }, o] }
     s.ops = [{ id := 1, key := 0, kind := .copy {} }] ++ o :: [] ∧ ∀ p ∈ [({ id := 1, key := 0, kind := .copy {} } : Op)], p.id ≠ o.id) ∧
    ({ id := 1, key := 0, kind := .copy {} } : Op).status = none ∧
    (let o : Op := { id := 3, key := 0, kind := .fill 63 {} none, status := some 0 }
     let s : State := { base with ops := [o, { id := 4, key := 0, kind := .fill 63 {} (some {}) }] }
     (∃ p ∈ (s.dropOp 3).ops, p.key = o.key ∧ ∃ b old, p.kind = .fill 63 b old) ∧ ¬∃ p ∈ (s.dropOp 4).ops.tail, p.key = o.key) ∧
    (let p : Pend := ⟨2, 0, [.s 5 9], 1, [], none⟩
     let s : State := { base with cur := { stream0 with pend := [⟨1, 0, [.s 6 9], 0, [], none⟩, p] } }
     s.landable s.cur p = true ∧ p.dram = [] ∧ p.id ≠ 1) ∧
    (let p : Pend := ⟨2, 0, [.s 5 9], 1, [], none⟩
     let s : State := { base with cur := { stream0 with pend := [⟨1, 0, [.s 5 8], 0, [], none⟩, p] } }
     s.landable s.cur p = false) ∧
    (base.fillHeld 0 win0.toNat 4 = false ∧ beside.fillHeld 0 win0.toNat 4 = true ∧ ∀ e ∈ base.allStreams, e.2.hold = none) := by
  refine ⟨⟨rfl, by decide⟩, rfl, ⟨⟨{ id := 4, key := 0, kind := .fill 63 {} (some {}) }, by decide, rfl, _, _, rfl⟩, by decide⟩, by decide, by decide,
    by decide⟩

/-- A write behind another to its bytes and one behind none, at home on its own die and on another; an incoming write whose turn it is, and one whose
turn it is not; a bank with a latency-critical request and without, 7 and 8 owed, the debt due after 400 cycles and before. -/
theorem witness_WritesAndRefresh :
    (let v : PWrite := { id := 1, key := 0, va := 0x10000, pa := 0x10000, bytes := [1] }
     let w : PWrite := { id := 2, key := 0, va := 0x10000, pa := 0x10000, bytes := [2] }
     (∃ z ∈ ([v] : List PWrite), z.key = w.key ∧ z.pa < w.pa + w.bytes.length ∧ w.pa < z.pa + z.bytes.length) ∧
       ¬(v.sent = true ∨ ∃ z ∈ ([] : List PWrite), z.key = v.key) ∧ coreDie (v.key / 2) = paDie v.pa ∧ coreDie 0 ≠ paDie (2 ^ 39)) ∧
    (let q : RWrite := { id := 5, src := 1, dst := 0, clock := [0, 1, 0, 0] }
     base.mem.mayApply q = true ∧ base.mem.mayApply { q with clock := [0, 2, 0, 0] } = false ∧ base.mem.mayApply { q with clock := [0, 1, 1, 0] } = false) ∧
    base.mem.rq.length < 2 ^ 30 ∧ base.mem.chans = [] ∧ base.mem.maySend 0 = true ∧
    (let c : PChan := { busy := [dramBank 0x10000] }
     ({ base with mem := { chans := [(dramChan 0x10000, c)] } } : State).refreshing 0x10000 = true) ∧
    base.latReq 0 (some 0) = false ∧ base.latReq 0 none = false ∧
    ({ base with cur := { stream0 with pend := [⟨0, 0, [], 0, [⟨0, true, 1⟩], none⟩] } } : State).latReq 0 none = true ∧
    (List.range 7).length < 8 ∧ 8 ≤ (List.range 8).length ∧ 0 + 400 ≤ (400 : Word64).toNat ∧ (399 : Word64).toNat < 0 + 400 := by decide +kernel

/-- The words of a launch of one task at 0x13000 in the step 1 of job 1, with SL = 1. -/
abbrev launchWords : List Word64 :=
  [0x0100000000010000, 0x13000, 0, 0x0001000000000008, 0x1000000008000000, 0x100000000, 0x180000000, 0] ++ List.replicate 16 0

abbrev launch1 : Launch := { d := launchWords, serial := 127 }

/-- Context 0 with a weight of 1 in queue 0, a bound queue pair, job 1 of one rank at step 1, and its table of one entry of 8 tiles. -/
abbrev cox (ls : List Launch) : State :=
  { base with
    curLive := false, cur := {}, crews := [(0, { tlb := [page] })], mem := { hbm := [(0x13010, 8)] },
    front := { ctxs := [(0, { qweight := 1, qps := [0], queues := [(0, ls)], serials := [(0, 127)] })], jobs := [(0, { job := 1, ctx := 0, v := 1, next := 1 })],
               ranks := [(0, { state := .active, job := 1 })] } }

/-- A bound and an unbound queue pair; each message well formed and not; 63 launches and 64; a ring with space and full; a held record of a launch. -/
theorem witness_HostQueues :
    (cox []).bound 0 0 = true ∧ base.bound 0 0 = false ∧ launchWords.length = 24 ∧ (wordAt launchWords 0).toNat / 2 ^ 56 = 1 ∧
    (∃ e ∈ (cox []).front.jobs, e.2.ctx = 0 ∧ e.2.v ≠ 0) ∧ base.front.jobs = [] ∧ ¬((wordAt [0] 0).toNat / 2 ^ 56 = 1) ∧
    64 ≤ (((cox (List.replicate 64 {})).ctxAt 0).queues.at 0 []).length ∧ (((cox (List.replicate 63 {})).ctxAt 0).queues.at 0 []).length < 64 ∧
    wordAt [0x0200000000000000, 1, 0, 0, 0x8000000000000000, 0, 0, 0] 0 = BitVec.ofNat 64 (2 * 2 ^ 56) ∧
    wordAt [0x0300000000000000, 1, 0, 0, 0, 0, 0, 0] 0 = BitVec.ofNat 64 (3 * 2 ^ 56) ∧
    (wordAt [0x0400000000000000, 0xFFFFFFFF, 0, 0, 0, 0, 0, 0] 1).toNat < 2 ^ 32 ∧
    (0 + 2 ^ 32 - 0xFFFFFE00 % 2 ^ 32) % 2 ^ 32 ≤ 2 ^ (9 : BitVec 5).toNat ∧ ¬(0 + 2 ^ 32 - 0xFFFFFDFF % 2 ^ 32) % 2 ^ 32 ≤ 2 ^ (9 : BitVec 5).toNat ∧
    (let x : Ctx := { cqWritten := 512, cqConsumed := 0, cqHeld := [[0, 0, 0]] }
     2 ^ x.cqlog.toNat ≤ (x.cqWritten + 2 ^ 32 - x.cqConsumed.toNat) % 2 ^ 32) ∧
    (let x : Ctx := { cqWritten := 512, cqConsumed := 1, cqHeld := [[0, 0, 0]], queues := [(0, [{ serial := 0, done := true }])] }
     (x.cqWritten + 2 ^ 32 - x.cqConsumed.toNat) % 2 ^ 32 < 2 ^ x.cqlog.toNat ∧ ((x.queues.at 0 []).find? (fun l => l.serial == 0)).map (fun l => l.done) = some true) := by
  decide

/-- A head unchecked, with a fault, stale and evaluated; its NEEDMASK met and not; a startable task on a free core; a faulty entry. -/
theorem witness_LaunchesAndTasks :
    headOf [] = none ∧ headOf [launch1] = some launch1 ∧ (cox [launch1]).checkLaunch 0 launch1 = 0 ∧ (cox [launch1]).checkLaunch 0 {} ≠ 0 ∧
    (cox [launch1]).stale 0 launch1 = false ∧ ({ cox [launch1] with front := { (cox [launch1]).front with jobs := [(0, { job := 1, v := 1, next := 2 })] } } : State).stale 0 launch1 = true ∧
    ((cox [launch1]).ctxAt 0).weight 0 ≠ 0 ∧ (cox [launch1]).headWaits 0 launch1 = false ∧ ((cox [launch1]).ctxAt 0).ev &&& launch1.mask 8 = launch1.mask 8 ∧
    (let l : Launch := { d := launchWords.take 8 ++ [1] ++ List.replicate 15 0 }
     ((cox [l]).ctxAt 0).ev &&& l.mask 8 ≠ l.mask 8) ∧ (cox [launch1]).startable 0 0 = [] ∧
    (let l : Launch := { launch1 with checked := true, started := true, ranks := [{ slot := 0 }] }
     ((cox [l]).startable 0 0).map (fun t => (t.2.2.1, match t.2.2.2 with | .good e => (cox [l]).chooseCore 0 0 t.1 t.2.1.slot e | _ => none)) = [(0, some 0)] ∧
       (cox [l]).winner 0 0 = true ∧ (cox [l]).resumable (0, 0) = false ∧
       (({ cox [l] with mem := { hbm := [(0x13010, 9)] } } : State).startable 0 0).map (fun t => match t.2.2.2 with | .bad _ => true | _ => false) = [true]) := by
  decide

/-- A queue with less virtual time that also has a startable task: queue 0 is then not the one served. -/
theorem witness_LaunchesAndTasks_contender :
    (let l : Launch := { launch1 with checked := true, started := true, ranks := [{ slot := 0 }] }
     let s : State := { cox [l] with front := { (cox [l]).front with ctxs := [(0, { qweight := 0x0101, queues := [(0, [l]), (1, [l])], vt := [(0, 5)] })] } }
     s.winner 0 0 = false ∧ (s.startable 0 0).isEmpty = false) := by decide

/-- A launch whose one task may start: its entry lies in a page of HOME = 00 of the home die, and core 0 is free. -/
theorem witness_LaunchesAndTasks_starts :
    (let r : LRank := { slot := 0 }
     let l : Launch := { launch1 with checked := true, started := true, ranks := [r] }
     ({ cox [l] with crews := [(0, { tlb := [{ page with home := 0 }] })] } : State).mayStart 0 0 l r 0 { tiles := 8 }) := by
  repeat' apply And.intro
  all_goals first
    | decide
    | exact ⟨0, by decide⟩
    | exact ⟨{ page with home := 0 }, by unfold State.rankPage; decide, by decide⟩

/-- A decrement whose target is gone and one whose launch stands; a task at work and done, with and without its window; a launch finished, ended and not. -/
theorem witness_LaunchesAndTasks_end :
    base.refDrop { drop := true } = true ∧
    (let l : Launch := { launch1 with started := true, ranks := [{ slot := 0 }] }
     (cox [l]).refDrop { ctx := 0, queue := 0, slot := 0, task := 0 } = false ∧
       ((cox [l]).refLaunch { ctx := 0, queue := 0, slot := 0, task := 0 }).isSome = true) ∧
    base.workDone 0 { stream0 with ending := 1 } = true ∧ stream0.ending = 0 ∧ base.parkedOpen 0 = false ∧
    ({ base with treqs := [{ id := 0, key := 0, ctx := 0, slot := 0, handle := 0, kind := .take, home := 0, words := [], res := 0, place := [], state := 1 }] } : State).parkedOpen 0 = true ∧
    (windowed [plain]).cur.winHeld = true ∧ (windowed [plain]).cur.winAgent ≠ 3 ∧ (windowed [plain] 3).cur.winAgent = 3 ∧
    ((windowed [plain] 3 true).cur.flushing = true ∧ (windowed []).cur.win = [] ∧ stream0.winHeld = false ∧ base.treqs = []) ∧
    (launch1.det = false ∧ (cox []).heatsOpen launch1 = false) ∧
    (let l : Launch := { launch1 with started := true, ranks := [{ slot := 0, started := [0], retired := [0] }] }
     l.finished = true ∧ l.done = false) ∧ launch1.finished = false := by decide

/-- A granule for a running task with a free slot and one for a task that is gone; a heat whose tasks have all retired and one still at work; a slice
at its end; a primary beside a stream refused 256 times; the coordinator of the current step, another step, a job that commits by itself. -/
theorem witness_HeatsSlicesSteps :
    (let l : Launch := { launch1 with started := true, ranks := [{ slot := 0, started := [0] }] }
     let t : TaskRef := { ctx := 0, queue := 0, slot := 0, task := 0 }
     let s : State := { cox [l] with streams := [(0, { serial := 127 })] }
     s.refDrop t = false ∧ ((s.allStreams.find? (fun e => s.isTask e.2 t)).map (fun e => e.1)) = some 0 ∧ ({} : Stream).recvSlot = some 0 ∧
       ((cox [l]).allStreams.find? (fun e => (cox [l]).isTask e.2 t)).isNone = true) ∧
    (let l : Launch := { d := [0x0100000000010000, 0x13000, 0, 0x0001000000000008, 0x5000000008000000, 0x100000000, 0x180000000], serial := 127, started := true, ranks := [{ slot := 0, retired := [0] }] }
     let s := cox [l]
     l.det = true ∧ (s.launch 0 0 127).isSome = true ∧ s.heats l 0 = some [(0, 0)] ∧ (∀ e ∈ [((0, 0) : Nat × Nat)], e.2 ≤ 0 → e.1 ∈ [0]) ∧
       least (([(0, 0), (1, 3)].map (fun e : Nat × Nat => e.2)).filter (fun h => decide (0 < h))) = some 3) ∧
    (let x : Stream := {}
     x.halted = false ∧ x.stopped = false ∧ x.sliceAt + 4096 * 1024 ≤ (4194304 : Word64).toNat ∧ ¬x.sliceAt + 4096 * 1024 ≤ (4194303 : Word64).toNat) ∧
    256 ≤ ({ refused := 256 } : Stream).refused ∧ ¬256 ≤ ({ refused := 255 } : Stream).refused ∧
    (cox []).jobNo 2 = none ∧ ((cox []).jobNo 1).map (fun e => e.1) = some 0 ∧ (0 : BitVec 20) = (cox []).mgmt.node ∧ (cox []).jobSlots 0 1 = [0] := by decide

/-- The base state with one request that has arrived at slice 0. -/
abbrev atSlice (t : TReq) (h : Slice) : State := { base with treqs := [t], slices := [(0, { h with arrived := [0] })] }

abbrev request (k : TKind) (nowait : Bool := false) : TReq :=
  { id := 0, key := 0, ctx := 0, slot := 0, handle := 0, cap := 4, kind := k, nowait := nowait, home := 0, words := [5, 0], res := win0.toNat, place := [], state := 2 }

set_option maxRecDepth 20000 in
/-- A deposit and a match next at their home; a partition of the capacity and one below; a stored tuple that matches and none; 255 and 256 parked; a
parked request cancelled, withdrawn and neither; a waiting granule with an open detached request and without. -/
theorem witness_TulleHome :
    (atSlice (request .dep) {}).tulleNext (request .dep) = true ∧ (atSlice (request .take) {}).tulleNext (request .take) = true ∧
    ({ base with treqs := [request .take] } : State).tulleNext (request .take) = false ∧
    4 ≤ (List.replicate 4 ({ ctx := 0, slot := 0, handle := 0, seq := 0, f := [] } : Tup)).length ∧
    ((request .take).same 0 0 none 0 && tulleMatch (request .take).words [5, 0, 0, 0, 0, 0, 0, 0]) = true ∧
    ([({ ctx := 0, slot := 1, handle := 0, seq := 0, f := [] } : Tup)].find? (fun v => (request .take).same v.ctx v.slot v.job v.handle)) = none ∧
    256 ≤ (List.replicate 256 0).length ∧ (List.replicate 255 0).length < 256 ∧ (request .take true).nowait = true ∧
    ({ request .take with cancel := some 1, state := 1 }).cancel = some 1 ∧ ({ request .take with withdraw := true, state := 1 }).withdraw = true ∧
    ¬((request .take).cancel ≠ none ∧ (request .take).state = 1) ∧
    (let t : TReq := { request .take with cancel := some 1, state := 1 }
     let s : State := { base with treqs := [t] }
     s.cancelNext t = true ∧ s.answerHeld t = false ∧ base.cancelNext (request .take) = false ∧
       ({ base with treqs := [t, { request .dep with id := 0, state := 0 }] } : State).cancelNext t = false ∧ t.org = none) ∧
    (base.stream 0).map (fun x => x.stopped) = some false ∧
    ({ base with cur := { stream0 with stopped := true } } : State).stream 0 = some { stream0 with stopped := true } ∧
    (let w : WGran := { core := 3, gran := 15, giver := 2 }
     ([w].find? (fun w => w.core * 16 + w.gran == 63)) = some w) ∧
    (∃ t ∈ [{ request .take with detach := true, state := 1, place := [(3 * 2 ^ 20 + 15 * 65536, 72)] }], t.detach = true ∧ t.inGran 3 15 = true) := by
  decide

/-- The base state as rank 0 of a job of two ranks that both lie here, with a row on channel 7 from rank 1. -/
abbrev traffic (row : Row) (p : Pkt) : State :=
  { base with
    crews := [(0, { tlb := [page] })],
    mem := { hbm := [(0x12018, 0x80), (0x12019, 0x20), (0x1201A, 0x01), (0x12021, 0x40), (0x12022, 0x01), (0x18003, 0x80), (0x18007, 0x80)] },
    front := { ctxs := [(0, {})], pkts := [p], jobs := [(0, { job := 1, ctx := 0, v := 2, mapbase := 0x18000 })],
               ranks := [(0, { state := .active, job := 1, ovfhead := 0x12000, rows := [(7, row)] }), (1, { state := .active, job := 1, vrank := 1 })] } }

abbrev msg (bytes : List Byte) : Pkt := { id := 9, ctx := 0, job := 1, rank := 0, kind := .msg 1 7 0 bytes 4 }

/-- A message for a rank here and for one that is not, held, refused before for want of room, behind a held one; a rank with no row, a row not VALID,
another peer, another size, and handling stopped. -/
theorem witness_ChannelTraffic :
    (let s := traffic { valid := true, bytes := 4, peer := 1, depth := 1 } (msg [1, 2, 3, 4])
     s.pkt 9 = some (msg [1, 2, 3, 4]) ∧ s.deliverP (msg [1, 2, 3, 4]) = some 0 ∧ s.deliverP { msg [] with rank := 2 } = none ∧
       s.heldBefore (msg [1, 2, 3, 4]) = false ∧ (msg []).held = false ∧ (msg []).full = false ∧ (s.rank 0).rows.find 6 = none ∧
       ((s.rank 0).row 7).map (fun w => (w.peer, w.bytes)) = some (1, 4) ∧ (s.rank 0).chanStop = false ∧ (s.ops.find? (fun o => o.id == 4)) = none) ∧
    (let p : Pkt := { msg [] with id := 8, held := true }
     let s : State := { base with front := { pkts := [p, msg []] } }
     s.heldBefore (msg []) = true) ∧ (((traffic { bytes := 4 } (msg [])).rank 0).rows.find 7).map (fun w => w.valid) = some false ∧
    (2 : Nat) ≠ 1 ∧ 4 ≠ [(1 : Byte)].length ∧ ({ chanStop := true } : Rank).chanStop = true := by decide

/-- The base state with an answer to a send of rank 0 to itself, whose status word is asked for or not. -/
abbrev answered (stat : Option Nat) (n : Nat := 1) : State :=
  { traffic { valid := true, bytes := 4, peer := 0 } { id := 9, ctx := 0, job := 1, rank := 0, kind := .ack 7 0 4 0 4 } with
    ops := [{ id := 4, key := 0, kind := .send 7 0 0x10000 stat, moved := 1 }], nextId := n }

/-- What becomes of a status word. -/
abbrev told (s : State) (stat : Option Nat) : Bool := (s.chanStatus 0 0 0 none 0 stat 0x400).isSome

/-- An answer to a send that stands, and to one that is gone; no status word, one in the window in free and in held banks, one in the page, and one
under a bump; a send behind a release and in front of one. -/
theorem witness_ChannelTraffic_answers :
    (answered none).slotOfRank 0 1 0 = some 0 ∧ (answered none).slotOfRank 0 1 2 = none ∧
    (let v (s : State) : State := (s.dropPkt 9).modRow 0 7 (fun w => { w with ackseq := w.ackseq + 1 })
     ((v (answered none)).ops.find? (fun p => p.id == 4)).map (fun o => o.kind) = some (.send 7 0 0x10000 none) ∧
       (v { answered none with ops := [] }).ops.find? (fun p => p.id == 4) = none ∧
       told (v (answered none)) none = true ∧ told (v (answered none)) (some 0x10008) = true ∧
       ((v (answered none)).relAll 0 7).fillHeld 0 win0.toNat 8 = false ∧ told beside (some win0.toNat) = false) ∧
    (let o : Op := { id := 4, key := 0, kind := .send 7 0 0x10000 none }
     let s : State := { base with ops := [{ id := 3, key := 0, kind := .send 7 0 0x10000 none, rel := 4 }, o] }
     s.relBehind o = true ∧ ({ base with ops := [o] } : State).relBehind o = false) := by decide

/-- A posted receive of the message's sequence number, delivered, and an arrival listed. -/
theorem witness_ChannelTraffic_delivered :
    (let q : Post := { seq := 0, buf := 0x10000, stat := none, tref := none, key := 0, window := false }
     let s := traffic { valid := true, bytes := 4, peer := 1, depth := 1, posted := [q] } (msg [1, 2, 3, 4])
     [q].find? (fun q => q.seq == 0) = some q ∧
       ((s.modRow 0 7 (fun w => { w with posted := w.posted.filter (fun v => v != q) })).receive 0 q [1, 2, 3, 4]).isSome = true) ∧
    (((traffic { valid := true, bytes := 4, peer := 1, depth := 1 } (msg [1, 2, 3, 4])).listAppend 0 7 0 [1, 2, 3, 4]).toOption.map (fun r => r.1)) = some true := by
  decide +kernel

/-- A collective of rank 0 of the job on FP32 values, its operation, and its engine record with rank 0's part. -/
abbrev collD : CollD := { cid := 5, dst := 0x10000, last := 1, count := 1 }

abbrev collOp : Op := { id := 4, key := 0, kind := .coll collD }

abbrev collAt : Coll := { ctx := 0, job := 1, d := collD, parts := [(0, 0)], result := some [7] }

abbrev nodePkt : Pkt := { id := 9, ctx := 0, job := 1, rank := 0, kind := .node collD {} 0 false }

abbrev gathered (o : Op) (c : List Coll) (p : Pkt := nodePkt) : State :=
  { traffic {} p with ops := [o], front := { (traffic {} p).front with colls := c } }

/-- What becomes of the write of the result to DST: done, waiting, stopped by a fault. -/
abbrev destWrite (s : State) (dst : Nat) : Nat :=
  match (s.agentWrite { core := 0, slot := 0, by_ := 0 } dst (collD.bytes [7])).2 with
  | none => 0
  | some .wait => 1
  | some (.stop _ _) => 2

set_option maxRecDepth 20000 in
/-- A contribution that goes out, one already out, one behind a release, one without room; a node packet for a rank here, held, behind a held one, without
room; a packet of no node. -/
theorem witness_Collectives :
    (let s := gathered collOp []
     s.ops.find? (fun o => o.id == 4) = some collOp ∧ collOp.moved = 0 ∧ s.relBehind collOp = false ∧ s.collRoom 0 1 collD 0 = true ∧
       (s.ops.find? (fun o => o.id == 9)) = none ∧ s.pkt 9 = some nodePkt ∧ (s.deliverP nodePkt).isSome = true ∧ s.heldBefore nodePkt = false ∧
       nodePkt.held = false) ∧ ({ collOp with moved := 1 } : Op).moved ≠ 0 ∧
    (let s : State := { base with ops := [{ id := 3, key := 0, kind := .send 7 0 0x10000 none, rel := 4 }, collOp] }
     s.relBehind collOp = true) ∧
    (gathered collOp ((List.range 32).map (fun k =>
       ({ ctx := 0, job := 1, d := { collD with cid := BitVec.ofNat 32 (6 + k) }, nodes := (List.range 32).map (fun i => { piece := i }) } : Coll)))).collRoom 0 1 collD 0 = false ∧
    (let p : Pkt := { nodePkt with id := 8, held := true }
     let s : State := { gathered collOp [] with front := { (gathered collOp []).front with pkts := [p, nodePkt] } }
     s.heldBefore nodePkt = true) ∧ (gathered collOp []).deliverP { nodePkt with rank := 2 } = none := by decide +kernel

set_option maxRecDepth 20000 in
/-- A rank without its part, with it, of a collective that failed, another rank's reduce; the result there and not, to a page, one under a bump, none;
written by this rank and by every rank; the status word in held banks and free; a bucket full, not full, none. -/
theorem witness_Collectives_done :
    (let s := gathered collOp [collAt]
     (s.ops.find? (fun o => o.slot == 0 && (match o.kind with | .coll d => d.cid == 5 | _ => false))) = some collOp ∧ s.coll 0 1 5 = some collAt ∧
       collAt.parts.find? (fun e => e.1 == 0) = some (0, 0) ∧ collAt.parts.find? (fun e => e.1 == 1) = none ∧ collAt.status = 0 ∧
       ({ collAt with status := 0x31 } : Coll).status ≠ 0 ∧ ({ collAt with result := none } : Coll).result = none ∧ collOp.piece = 0 ∧
       ({ collOp with piece := 1 } : Op).piece ≠ 0 ∧ ({ collAt with final := true } : Coll).final = true ∧ collAt.final = false ∧
       destWrite s 0x10000 = 0 ∧ destWrite s 0x20000 = 2 ∧
       destWrite { s with front := { s.front with ctxs := [(0, { bumps := [0] })] } } 0x10000 = 1) ∧
    (({ kind := 1, root := 1 } : CollD).kind = 1 ∧ (0 : BitVec 16).toNat ≠ 1) ∧ collD.stat = none ∧
    (base.fillHeld 0 win0.toNat 8 = false ∧ beside.fillHeld 0 win0.toNat 8 = true) ∧
    (let r : Rank := { buckets := [(3, { full := true, d := { stat := some win0.toNat } })] }
     (r.buckets.find 3).map (fun k => (k.full, k.d.stat)) = some (true, some win0.toNat) ∧ r.buckets.find 4 = none ∧ ({} : Bucket).full = false ∧
       ({} : Bucket).d.stat = none) ∧ ({ fmt := 2, op := 2 } : CollD).fmt = 2 := by decide

abbrev cmd : Cmd := ⟨1, 0, true⟩

/-- Each way a command is turned away and the way it is served; for each record a write within its limits and one beyond, of a record that exists. -/
theorem witness_PrivilegedRecords :
    State.reset.mgmt.power ≠ .on ∧ base.mgmt.power = .on ∧ (⟨1, 0, false⟩ : Cmd).signed = false ∧ (⟨1, 1, true⟩ : Cmd).rsv ≠ 0 ∧
    (let s : State := { base with mgmt := { power := .on, anySeq := true, lastSeq := 1 } }
     s.mgmt.anySeq = true ∧ (1 : BitVec 32).toNat ≤ s.mgmt.lastSeq.toNat) ∧ 0x15 ≤ (0x15 : Byte).toNat ∧
    (base.rank 1087).state = .free ∧ ¬1088 < 1088 ∧ base.front.ctxs.has 0 = true ∧ base.front.ctxs.has 1 = false ∧
    (let w : List Word64 := [0x0010000000000001, 0x20000, 0x11000, 0x18000, 0x11000, 0, 0, 0]
     wbits w 0 51 48 = 0 ∧ wbits w 1 51 0 % 8192 = 0 ∧ wordAt w 7 = 0 ∧ (wordAt w 2).toNat ≤ (wordAt w 3).toNat) ∧
    (let w : List Word64 := [1, 0x100000000000, 0, 16, 0, 0x0000000000002000, 0]
     wbits w 1 63 45 = 0 ∧ wbits w 1 44 32 = 4096 ∧ wbits w 3 4 0 = 16 ∧ wbits w 5 15 0 = 8192 ∧ wbits w 5 62 48 = 0 ∧ wbits w 6 63 52 = 0) ∧
    (let w : List Word64 := [0x0000000100010000, 0, 0x1000, 0]
     wbits w 0 16 0 = 65536 ∧ wbits w 0 25 17 = 0 ∧ wbits w 2 51 0 % 4096 = 0 ∧ base.jobInH 0 1 = false) ∧
    (let w : List Word64 := [0x8001000000000040, 0, 0, 0]
     wbits w 0 63 63 = 1 ∧ wbits w 0 55 32 = 65536 ∧ wbits w 0 6 0 = 64 ∧ wbits w 0 15 7 = 0) ∧
    wbits [0x8000000000000001] 0 63 63 = 1 ∧ wbits [0x8000000000000001] 0 31 0 ≠ 0 ∧ wbits [0x8000000000000000] 0 31 0 = 0 ∧
    wbits [0, 0, 0x8000000000000000] 2 62 32 = 0 ∧ wbits [0x8000000000000004] 0 60 56 = 0 ∧ wbits [0x8000000000000005] 0 1 0 ≠ 0 := by decide

theorem witness_PrivilegedRecords_accepts : base.accepts cmd := ⟨rfl, rfl, rfl, fun h => absurd h (by decide)⟩

/-- A slot number with a reserved bit; a FREE record that may be installed and one that may not; a rank that may be removed, and one that a launch
names; a context to create, with a misaligned table, one that exists, to destroy, in use; a counter, an unknown one; a queue pair above 7. -/
theorem witness_ContextsAndRanks :
    wbits [0x800] 0 63 11 ≠ 0 ∧ wbits [5] 0 63 11 = 0 ∧
    (let s : State := { base with front := { ctxs := [(0, {})], jobs := [(0, { job := 1, ctx := 0, v := 2 })],
                                             ranks := [(5, { job := 1, stkbase := 0x11000, stkptr := 0x11110, stklim := 0x18000 })] } }
     (s.rank 5).state = .free ∧ (s.front.ranks.filter (fun e => e.2.state.isH)).length < 64 ∧ (s.jobOf 0 1).isSome = true ∧ s.front.ctxs.has 0 = true ∧
       (s.jobOf 0 1).map (fun e => decide ((s.rank 5).vrank.toNat < e.2.v)) = some true ∧ (0x11110 - 0x11000) % 272 = 0 ∧ ∀ i ∈ s.jobSlots 0 1, i ≠ 5 → (s.rank i).vrank ≠ 0) ∧
    (base.rank 0).state ≠ .free ∧ base.named 0 = false ∧ (base.rank 0).waiting = [] ∧ (base.rank 0).state = .active ∧
    ({ state := .cold } : Rank).state = .cold ∧ (cox [{ launch1 with started := true, ranks := [{ slot := 0 }] }]).named 0 = true ∧
    wbits [0x8000000000000001] 0 63 63 = 1 ∧ wbits [0x8000000000000001] 0 62 6 = 0 ∧ wbits [0x8000000000000041] 0 62 6 ≠ 0 ∧ (0x1001 : Word64).toNat % 4096 ≠ 0 ∧
    (∃ e ∈ base.front.ranks, e.2.state ≠ .free ∧ e.2.ctx = 0) ∧ wbits [0x0301] 0 15 8 = 3 ∧ wbits [0x0301] 0 7 6 = 0 ∧ wbits [0x0401] 0 15 8 = 4 ∧
    wbits [0x10000] 0 63 16 ≠ 0 ∧ ¬8 < 8 := by decide

/-- The power phases, ports and rates, temperatures and powers at the edge of each clause. -/
theorem witness_PowerAndPorts :
    State.reset.mgmt.power = .off ∧ base.mgmt.power = .on ∧ ({ power := .standby } : Mgmt).power = .standby ∧ ({ power := .recovery } : Mgmt).power = .recovery ∧
    State.reset.mgmt.rollback ≤ 0 ∧ ({ rollback := 2 } : Mgmt).rollback > 1 ∧ (23 : Nat) < 24 ∧ 24 ≤ 24 ∧ (3 : Nat) < 4 ∧ (114 : Int) < 115 ∧ (115 : Int) ≤ 115 ∧
    (∃ e ∈ ([(0, 105)] : Tbl Int), 105 ≤ e.2) ∧ (∀ e ∈ ([(0, 104)] : Tbl Int), e.2 < 105) ∧ base.mgmt.plimit < 4401 ∧ 4400 ≤ base.mgmt.plimit ∧
    (4 ≤ (4 : Byte).toNat ∧ (4 : Byte).toNat ≤ (5 : Byte).toNat ∧ (0xFE : Byte).toNat ≤ 0xFE) ∧ base.mgmt.weighed = false ∧
    (let m : Mgmt := { power := .on, weighed := true, thermtrip := true, temps := [(2, 95)] }
     m.weighed = true ∧ m.thermtrip = true ∧ (∃ e ∈ m.temps, 95 ≤ e.2) ∧ ∀ e ∈ ([(2, 94)] : Tbl Int), e.2 < 95) := by decide

/-- The base state with rank 0 in a residency state. -/
abbrev resident (r : Rank) (tiers : List Tier := []) (images : List Image := []) : State :=
  { base with front := { ctxs := [(0, { pool := [0x200000] })], ranks := [(0, r)], tiers := tiers, images := images } }

set_option maxRecDepth 20000 in
/-- A rank that may be evicted, one that a launch names, one for which a packet is held; 1,024 cold ranks; a waiting granule; an eviction due, at work
beside three operations and four; a recall due with 63 ranks in H and with 64, a victim and none, room in the making; an image that the pool holds and
one that it does not. -/
theorem witness_TierMoves :
    (let s := resident { state := .active }
     (s.rank 0).state = .active ∧ s.named 0 = false ∧ s.front.pkts = [] ∧ s.jobOf 0 0 = none ∧ (s.rank 0).waiting = [] ∧ s.victim = some 0) ∧
    (cox [{ launch1 with started := true, ranks := [{ slot := 0 }] }]).victim = none ∧
    (∃ p ∈ [{ msg [] with held := true }], p.held = true ∧ p.ctx = 0 ∧ p.job = 1 ∧ p.rank = 0) ∧
    1024 ≤ ((List.replicate 1024 ((0, { state := .cold }) : Nat × Rank)).length) ∧ ({ waiting := [{}] } : Rank).waiting ≠ [] ∧
    (resident { state := .active, evictDue := true }).front.tiers.length < 4 ∧ 4 ≤ (List.replicate 4 ({} : Tier)).length ∧
    (let v : Tier := { slot := 0, base := 128, size := 8320 }
     let s := resident { state := .evicting } [v]
     (s.rank 0).state = .evicting ∧ s.front.tiers.find? (fun t => t.slot == 0) = some v) ∧
    ((resident { state := .cold, recallDue := true }).rank 0).recallDue = true ∧
    ¬64 ≤ ((resident { state := .cold, recallDue := true }).front.ranks.filter (fun e => e.2.state.isH)).length ∧
    64 ≤ ((List.replicate 64 ((0, { state := .active }) : Nat × Rank)).filter (fun e => e.2.state.isH)).length ∧
    (∃ e ∈ (resident { state := .active, evictDue := true }).front.ranks, e.2.evictDue = true ∨ e.2.state = .evicting) ∧
    (let g : Image := { slot := 0 }
     let s := resident { state := .recalling } [{ slot := 0, isRecall := true }] [g]
     s.front.images.find? (fun g => g.slot == 0) = some g ∧ (s.rank 0).state = .recalling ∧ g.lost s.tick = [] ∧ g.leaves = []) := by decide

/-- LP6 with nothing in it has a place for any image that it holds, and one that an image fills has none. -/
theorem lp6Place_empty (s : State) (n : Nat) (h : s.lp6Used = []) (hn : n ≤ lp6Bytes) : (s.lp6Place n).isSome = true := by
  unfold State.lp6Place
  rw [h]
  simp [List.find?_cons, hn]
  split <;> rfl

theorem lp6Place_full (s : State) (n : Nat) (h : s.lp6Used = [(0, lp6Bytes)]) (hn : 0 < n) : s.lp6Place n = none := by
  unfold State.lp6Place
  rw [h, List.find?_eq_none]
  intro b _
  simp
  omega

/-- A rank to evict, with LP6 empty or full of another image. -/
abbrev leaving (gs : List Image) : State := resident { state := .active, evictDue := true } [] gs

/-- A rank whose image finds a place and whose order may go on; one for which LP6 is full. -/
theorem witness_TierMoves_lp6 :
    ((leaving []).lp6Full 0 = false ∧ ((leaving []).lp6Place ((leaving []).imageSize 0)).isSome = true) ∧
    (let s := leaving [{ slot := 1, size := lp6Bytes }]
     s.lp6Full 0 = true ∧ s.lp6Place (s.imageSize 0) = none) := by
  have h : 0 < (leaving []).imageSize 0 ∧ (leaving []).imageSize 0 ≤ lp6Bytes := by decide
  have p := lp6Place_empty (leaving []) _ rfl h.2
  have q := lp6Place_full (leaving [{ slot := 1, size := lp6Bytes }]) ((leaving [{ slot := 1, size := lp6Bytes }]).imageSize 0) rfl h.1
  refine ⟨⟨?_, p⟩, ?_, q⟩
  · unfold State.lp6Full
    simp only [Bool.or_eq_false_iff, decide_eq_false_iff_not, Option.isNone_eq_false_iff]
    exact ⟨by decide, p⟩
  · have : ((leaving [{ slot := 1, size := lp6Bytes }]).lp6Place ((leaving [{ slot := 1, size := lp6Bytes }]).imageSize 0)).isNone = true := by rw [q]; rfl
    unfold State.lp6Full
    exact Bool.or_eq_true_iff.mpr (.inr this)

/-- A page held by the core, by the crew alone, and by neither with a walk that faults; a slot, a range and a whole-slot shootdown, and bad ones; a write
to the range and none; a bump of a version below the last and of the last; a rank that moves. -/
theorem witness_TranslationAndBumps :
    (tlbFind (base.coreOf 0).tlb 0 0x10000).isSome = true ∧ (tlbFind (base.coreOf 0).tlb 0 0x20000) = none ∧
    (let s : State := { base with core := {}, crews := [(0, { tlb := [page] })] }
     tlbFind (s.coreOf 0).tlb 0 0x10000 = none ∧ tlbFind (s.crews.at (0 / 8) {}).tlb 0 0x10000 = some page) ∧
    (base.walk 0 0x20000 .load).isOk = false ∧
    wbits [0x8000000000000000] 0 63 63 = 1 ∧ wbits [0x10000] 0 55 0 % 4096 = 0 ∧ wbits [0x0000043F00000001] 0 42 32 = 1087 ∧ wbits [0x0000044000000001] 0 42 32 = 1088 ∧
    wbits [0x0000043F00000000] 0 31 0 = 0 ∧ wbits [0x10001] 0 55 0 % 4096 ≠ 0 ∧
    (let h : Shoot := { id := 3, slot := 0, va := 0x10000, len := 4096 }
     let w : PWrite := { id := 1, key := 0, va := 0x10FFF, pa := 0x10FFF, bytes := [1] }
     w.slot = h.slot ∧ h.va < w.va + w.bytes.length ∧ w.va < h.va + h.len) ∧
    (let x : Ctx := { vers := [(5, 0xFFFFFFFF)] }
     x.vers.get 5 = 0xFFFFFFFF ∧ x.vers.get 6 ≠ 0xFFFFFFFF) ∧
    [((0, 5, 1) : Nat × Nat × BitVec 32)].find? (fun e => e.1 == 0 && e.2.1 == 5) = some (0, 5, 1) ∧
    (∃ r ∈ [((0, { state := .recalling }) : Nat × Rank)], r.2.ctx = 0 ∧ r.2.state ≠ .free ∧ r.2.state ≠ .active ∧ r.2.state ≠ .cold) := by decide

/-- A walk of four tables, the root at 0x20000, to a 2 MiB page at physical 0x400000 for address 0. -/
abbrev walked : State :=
  { base with
    core := {},
    mem := { hbm := [(0x20000, 1), (0x20001, 0x20), (0x20002, 0x02), (0x22000, 1), (0x22001, 0x40), (0x22002, 0x02), (0x24000, 1), (0x24001, 0x60), (0x24002, 0x02),
                     (0x26000, 9), (0x26001, 6), (0x26002, 0x40), (0x2600F, 0x40)] },
    front := { ctxs := [(0, {})], ranks := [(0, { state := .active, ptroot := 0x20000 })] } }

set_option maxRecDepth 20000 in
/-- The walk finds its leaf; a pending write of a stream to that frame, of a whole line and of a part of one. -/
theorem witness_TranslationAndBumps_walk :
    ((walked.walk 0 0x40 .load).toOption.map (fun r => (r.1.phys 0x40, r.1.size, r.1.home, r.2))) = some (0x400040, 2097152, 1, 0x26000) ∧
    tlbFind (walked.coreOf 0).tlb 0 0x40 = none := by decide

set_option maxRecDepth 20000 in
/-- A write of part of a line that meets an error, of a whole line, which meets none, and a load that meets one before its value returns; a load on its
way to a range shot down. -/
theorem witness_TranslationAndBumps_errors :
    (let w : PWrite := { id := 1, key := 0, va := 0x10004, pa := 0x10004, bytes := [1, 2] }
     let v : PWrite := { w with va := 0x10000, pa := 0x10000, bytes := List.replicate 128 0 }
     let s : State := { base with mem := { wq := [w] } }
     ((s.failing 0 0x10005 2).map (fun f => (f.1.id, f.2))) = some (1, 0x10005) ∧ w.pa / 128 = 0x10005 / 128 ∧ (w.pa + w.bytes.length - 1) / 128 = 0x10005 / 128 ∧
       w.partOf (0x10005 / 128) = true ∧ v.partOf (0x10005 / 128) = false ∧ (s.failing 0 0x10006 2).isNone = true ∧ (s.failing 0 0x10005 3).isNone = true) ∧
    (let q : RPart := { va := 0x10000, pa := 0x10000, n := 8, e := page }
     let p : Pend := ⟨2, 0, [.s 5 0], 0, [], some ⟨[q], .scalar 5 8 false⟩⟩
     let s : State := { base with cur := { stream0 with pend := [p] } }
     (s.failing 0 0x10007 1).isNone = true ∧ s.stream 0 = some s.cur ∧ s.cur.pend = [p] ∧ q.win = none ∧ q.va ≤ 0x10007 ∧
       0x10007 < q.va + q.n ∧ (s.allStreams.any (fun e => e.2.pend.any (fun p => p.rd.isSome))) = true) ∧
    (walked.walk 0 0x40 .load).isOk = true ∧ (base.walk 0 0x40 .load).isOk = false ∧
    (let p : PinLine := { slot := 0, va := 0x10000 }
     (([(512, p), (513, p)] : Tbl PinLine).map (fun e => e.1)).Pairwise (· < ·)) ∧
    hbmExists 0x400 = true ∧ hbmExists (2 ^ 41) = false := by decide

/-- The rank map of job 1: rank 0 here, rank 1 on node 5. -/
abbrev mapped5 (s : State) : State := { s with mem := { hbm := [(0x18003, 0x80), (0x18004, 5), (0x18007, 0x80)] } }

/-- A packet for a rank of the boathouse and one for a rank of another module; held ones in order, one behind another; one that went out before to the
node the map names. -/
theorem witness_PacketsAndMigration :
    (let s : State := { traffic {} (msg []) with front := { (traffic {} (msg [])).front with ranks := [(0, { state := .cold, job := 1 })] } }
     s.pkt 9 = some (msg []) ∧ s.deliverP (msg []) = none ∧ s.slotOfRank 0 1 0 = some 0 ∧ (s.rank 0).state = .cold ∧ s.pkt 8 = none) ∧
    (traffic {} { msg [] with held := true }).deliverP { msg [] with held := true } = some 0 ∧
    (traffic {} (msg [])).heldBefore (msg []) = false ∧
    (let p : Pkt := { msg [] with id := 8, held := true }
     ({ base with front := { pkts := [p, msg []] } } : State).heldBefore (msg []) = true) ∧
    (let p : Pkt := { msg [] with held := true, rank := 1 }
     let s := mapped5 (traffic {} p)
     s.mapNode 0 1 1 = some 5 ∧ (5 : Nat) ≠ s.mgmt.node.toNat ∧ p.node ≠ some 5 ∧ ({ p with node := some 5 } : Pkt).node = s.mapNode 0 1 1 ∧
       s.mapNode 0 1 0 = some s.mgmt.node.toNat ∧ s.mapNode 0 1 2 = none) ∧
    (traffic {} { msg [] with held := true, rank := 2 }).deliverP { msg [] with held := true, rank := 2 } = none ∧
    (traffic {} nodePkt).collRoom 0 1 collD 0 = true := by decide

/-- Orders: of a job not committed, ready, of a slot that is not ACTIVE, that waits, to this node; a wait over and not; the map naming the new node. -/
theorem witness_PacketsAndMigration_orders :
    (let s := traffic {} (msg [])
     (∀ e, (s.jobOf 0 1).orElse (fun _ => s.jobNo 1) = some e → e.2.state = .committed) ∧ (s.rank 0).state = .active ∧ (s.rank 0).job = 1 ∧
       (s.rank 2).state ≠ .active ∧ s.migDeferred 0 = false ∧ s.destAnswer 0 = 3 ∧ (0 : BitVec 20) = s.mgmt.node ∧ (s.jobNo 1).isSome = true ∧
       s.jobNo 3 = none) ∧
    (let s : State := { base with front := { jobs := [(0, { job := 1, v := 1, state := .running })] } }
     ((s.jobOf 0 1).orElse (fun _ => s.jobNo 1)).map (fun e => e.2.state) = some .running) ∧
    (let s : State := { base with front := { ranks := [(0, { waiting := [{}] })] } }
     s.migDeferred 0 = true) ∧
    wbits [0x0000044000000001] 0 42 32 = 1088 ∧ wbits [0x0000000100000000] 0 63 32 ≠ 0 ∧
    (let m : Migr := { slot := 0, dnode := 5, since := 0, waitus := 1 }
     let s : State := { traffic {} (msg []) with front := { (traffic {} (msg [])).front with migrs := [m] } }
     s.front.migrs.find? (fun m => m.slot == 0 && m.phase == 0) = some m ∧ m.since + m.waitus * s.mgmt.clock ≤ (800 : Word64).toNat ∧
       ¬m.since + m.waitus * s.mgmt.clock ≤ (799 : Word64).toNat ∧ m.dnode ≠ s.mgmt.node ∧ (s.jobOf (s.rank 0).ctx (s.rank 0).job).isSome = true) ∧
    (∀ m ∈ ([] : List Migr), m.slot = 0 → m.phase ≠ 0) ∧
    (let m : Migr := { slot := 0, dnode := 5, phase := 1 }
     [m].find? (fun m => m.slot == 0 && m.phase == 1) = some m ∧ (base.jobOf 0 3).isNone = true) ∧
    (let m : Migr := { slot := 1, dnode := 5, phase := 2 }
     let s := mapped5 (traffic {} (msg []))
     [m].find? (fun m => m.slot == 1 && m.phase == 2) = some m ∧ s.mapNode (s.rank 1).ctx (s.rank 1).job (s.rank 1).vrank.toNat = some m.dnode.toNat ∧
       s.mapNode (s.rank 1).ctx (s.rank 1).job 0 ≠ some m.dnode.toNat) := by
  refine ⟨⟨?_, by decide⟩, by decide⟩
  intro e h
  have : (traffic {} (msg [])).jobOf 0 1 = some (0, { job := 1, ctx := 0, v := 2, mapbase := 0x18000 }) := by decide
  rw [this] at h
  obtain rfl := Option.some.inj h
  rfl

/-- A module that asks about a node of another module gets one of three answers, and which is open. -/
theorem witness_PacketsAndMigration_answer : base.destAnswer 5 ∈ [0, 3, 4] := by
  unfold State.destAnswer
  rw [if_neg (by decide)]
  generalize Config.freeSched base.tick = f
  have := Nat.mod_lt f (show 0 < 3 by decide)
  interval_cases f % 3 <;> decide

/-- The state with a rank on its way to free slot 5, with rank 0 of the job and not rank 1 here. -/
abbrev arriving (k : Rank) (a : Moving := { dslot := 5, rank := { job := 1, vrank := 1 } }) : State :=
  { traffic {} (msg []) with
    front := { (traffic {} (msg [])).front with
      arrivals := [a], ctxs := [(0, { pool := [0x200000] })], ranks := [(0, { state := .active, job := 1 }), (5, k)] } }

/-- A rank on its way to a free slot, of a job that this module has and of one it has not, and of a rank that has a record here; its slot taken for it. -/
theorem witness_PacketsAndMigration_arrival :
    (let s := arriving {}
     (∀ m ∈ s.front.migrs, m.slot = 5 → m.phase ≠ 1) ∧ (s.front.arrivals.find? (fun a => a.dslot == 5)).isSome = true ∧
       s.destCtx 1 = some 0 ∧ s.destCtx 3 = none ∧ (s.rank 5).state = .free ∧ (s.front.ranks.filter (fun e => e.2.state.isH)).length < 64 ∧
       (∀ e ∈ s.front.ranks, ¬(e.2.state ≠ .free ∧ e.2.job = 1 ∧ e.2.vrank = 1)) ∧ (s.jobNo 1).map (fun e => decide (1 < e.2.v)) = some true) ∧
    (∃ e ∈ (traffic {} (msg [])).front.ranks, e.2.state ≠ .free ∧ e.2.job = 1 ∧ e.2.vrank = 1) ∧
    (let s := arriving { state := .arriving, job := 1, vrank := 1 }
     (s.rank 5).state = .arriving ∧ (s.rank 5).job = 1 ∧ (s.rank 5).vrank = 1) := by decide

/-- A die that the destination gives the rank, all of them fenced and none. -/
theorem witness_PacketsAndMigration_die :
    (let s : State := { arriving {} with mgmt := { fdies := [0, 1, 2, 3] } }
     s.mgmt.fdies.contains (pickDie s) = true) ∧ (arriving {}).mgmt.fdies.contains (pickDie (arriving {})) = false := by
  have h : ∀ d, d < 4 → [0, 1, 2, 3].contains d = true := by decide
  exact ⟨h _ (Nat.mod_lt _ (by decide)), rfl⟩

theorem takeFrame_one (n f : Nat) : takeFrame n [f] = some (f, []) := by simp [takeFrame, Nat.mod_one]

/-- A pool that holds an image of one table, whichever frame the engine would take, and one that does not. -/
theorem witness_PacketsAndMigration_frames (g : Image) (h1 : g.leaves = []) (h2 : (g.tabs.length + 255) / 256 = 1) :
    ((arriving {}).placeImage 0 g).isSome = true ∧ base.placeImage 0 g = none := by
  have h3 : ((arriving {}).ctxAt 0).pool = [0x200000] := rfl
  have h4 : (base.ctxAt 0).pool = [] := rfl
  constructor <;> unfold State.placeImage
  · simp only [h1, h2, h3, allocTabs, takeFrame_one, allocLeaves]
    rfl
  · simp only [h2, h4, allocTabs, takeFrame, List.length_nil]
    rfl

/-- Such an image: the tables of rank slot 0 of the base state. -/
theorem witness_PacketsAndMigration_image : (base.image 0).leaves = [] ∧ ((base.image 0).tabs.length + 255) / 256 = 1 := by decide


/-- The base state asked to stop, at a header that is a drain point or not. -/
abbrev asked (h : Word32) (x : Stream := stream0) : State := { base with cur := { x with pre := 1, code := [(0x10100, h :: List.replicate 31 0)] } }

/-- No request; a drain point and a bundle that is none; DPB cycles over and not; a compatibility stream; a free area and none; DRAINLIM over with an
operation at work; a stream to save; a saved one with a good and a bad header; an asynchronous trap in and outside handler mode. -/
theorem witness_Preemption :
    base.cur.pre = 0 ∧ (asked 0x7E000000).atDrainPoint = true ∧ (asked 0x7A000000).atDrainPoint = false ∧ (asked 0x7E000000).cur.pre ≠ 0 ∧
    (asked 0x7E000000).cur.stopped = false ∧ (asked 0x7E000000).cur.ending = 0 ∧ (asked 0x7E000000).cur.hold = none ∧
    ({ stream0 with compat := true } : Stream).compat = true ∧ 0 + (4096 : BitVec 13).toNat < (4097 : Word64).toNat ∧ (4096 : Word64).toNat ≤ 0 + (4096 : BitVec 13).toNat ∧
    ({} : Ctx).freeArea = none ∧ ({ csaslots := 1 } : Ctx).freeArea = some 0 ∧ base.stream 5 = none ∧ base.savedOf 0 = none ∧
    (let s : State := { base with front := { ctxs := [(0, { saved := [{ area := 3 }] })] } }
     (s.savedOf (savedKey 0 3)).map (fun w => w.full) = some false) ∧
    (let x : Stream := { stream0 with stopped := true, stopAt := 0, pre := 1 }
     x.stopped = true ∧ x.atDrain = false ∧ x.stopAt + ({} : Ctx).drainlim.toNat ≤ (1024 : Word64).toNat ∧ x.land = [] ∧ x.pend = [] ∧ x.winAgent ≠ 1) ∧
    (let o : Op := { id := 1, key := 0, kind := .copy {} }
     (o.queued && o.status.isNone && !o.cut) = true) ∧ (∀ c ∈ (base.coreOf 0).calls, c.key ≠ 0) ∧ (∀ o ∈ base.ops, o.key = 0 → o.settled = true) ∧
    (let h : List Word64 := [0x5641534400010040, 0x0040004000000000, 0, 0, 0, 0, 0, 0]
     wbits h 0 63 32 = 0x56415344 ∧ wbits h 0 31 16 = 1 ∧ wbits h 0 15 0 = 64 ∧ wbits h 1 63 48 = 64 ∧ wbits h 1 47 32 = 64 ∧ wbits h 1 20 0 = 0 ∧
       wbits h 2 63 32 ≤ Config.csasize) ∧ wbits [0] 0 63 32 ≠ 0x56415344 ∧
    ({ stream0 with async := [{ cause := 0x08 }] } : Stream).async ≠ [] ∧ inHandler.cur.handler = true := by decide

/-- A save area whose header lies at the pool, and a core free for its stream. -/
theorem witness_Preemption_restore :
    (let w : Saved := { area := 0, stream := { ctx := 0, queue := 0 } }
     let s : State := { base with curLive := false, cur := {}, front := { ctxs := [(0, { qweight := 1, csaslots := 1, csapool := 0x30000, saved := [w] })] } }
     (s.ctxAt 0).saved.find? (fun w => w.area == 0) = some w ∧ s.savedSeat w 0 = some 0 ∧ (s.ctxAt 0).weight w.stream.queue ≠ 0 ∧ s.winner 0 0 = true) := by decide

/-- A launch to abort, one that has ended, none; a stream halted under DBGEN, running, without DBGEN; a cell with an error and without; a unit that exists,
that does not, that is fenced; areas enough and too few; 65 errors within 2^30 cycles, 64, and one cycle more. -/
theorem witness_DebugErrorsFences :
    ((cox [{ launch1 with started := true }]).launch 0 0 127).map (fun l => l.done) = some false ∧ (cox []).launch 0 0 127 = none ∧
    ((cox [{ launch1 with done := true }]).launch 0 0 127).map (fun l => l.done) = some true ∧
    (let s : State := { base with cur := { stream0 with halted := true }, front := { ctxs := [(0, { dbgen := true })] } }
     (s.ctxAt 0).dbgen = true ∧ s.stream 0 = some s.cur ∧ s.cur.halted = true) ∧ (base.ctxAt 0).dbgen = false ∧ base.stream 1 = none ∧
    ({ stream0 with tiles4 := true } : Stream).ownsTile 4 = false ∧ stream0.ownsTile 7 = true ∧ okPieces base (win0.toNat + 0x1FFFF) 1 .store = true ∧
    okPieces base (win0.toNat + 0x20000) 1 .store = false ∧ (5 : Nat) ∈ ({ parity := [5] } : Core).parity ∧ (5 : Nat) ∉ base.core.parity ∧
    (7 : Nat) ∈ ({ bad := [7] } : MemSys).bad ∧ (7 : Nat) ∉ base.mem.bad ∧ unitExists (.core 511) = true ∧ unitExists (.core 512) = false ∧
    base.isFenced (.core 0) = false ∧ ({ base with core := { fenced := true } } : State).isFenced (.core 0) = true ∧
    (64 < 65 ∧ 2 ^ 30 ≤ 2 ^ 30) ∧ ¬64 < 64 ∧ ¬2 ^ 30 + 1 ≤ 2 ^ 30 ∧
    (let s : State := { base with front := { base.front with ctxs := [(0, { csaslots := 1 })] } }
     (∀ e ∈ s.allStreams, e.1 / 2 ∈ unitCores (.core 0) →
       ∃ i ∈ [0], i < (s.ctxAt e.2.ctx).csaslots.toNat ∧ ∀ v ∈ (s.ctxAt e.2.ctx).saved, v.area ≠ i) ∧
     (∃ e ∈ base.allStreams, e.1 / 2 ∈ unitCores (.core 0)) ∧ (base.ctxAt 0).csaslots.toNat = 0) ∧
    walked.frameOwner 0x400 = some (0, 0) ∧ base.frameOwner 0x400 = none ∧
    (let s : State := { base with mgmt := { base.mgmt with corr := List.replicate 64 (.core 0, 0) } }
     64 < ((s.mgmt.corr ++ [(FUnit.core 0, 0)]).filter (fun e : FUnit × Nat => e.1 == FUnit.core 0)).length) := by decide

/-! Clauses that several forms of one statement add: a witness for each. -/

/-- A breakpoint that CONT or a hold lets pass; a code line under a bump, and one in a bank in refresh. -/
theorem witness_BundleFetch_runs :
    held.cur.hold.isSome = true ∧ ({ stream0 with skipBp := true } : Stream).skipBp = true ∧
    fetchedWord { base with mem := { chans := [(dramChan 0x10100, { busy := [dramBank 0x10100] })] } } = none := by decide

/-- An EVTEST.TAKE alone on its way, one behind an EVTEST of its bit, and a result that tests nothing. -/
theorem witness_EventsAndLaunches_take :
    (let e : Land := ⟨1, 0, 0, .evTake (.reg 5) 0 3, 0⟩
     let s : State := { base with cur := { stream0 with land := [e] } }
     s.cur.land = [] ++ e :: [] ∧ e.due = s.cur.pos + 1 ∧ e.tgt = .evTake (.reg 5) s.cur.ctx 3 ∧ e.flags = 0 ∧ (5 : BitVec 5) ≠ 0 ∧
       (∀ f ∈ ([] ++ [] : List Land), f ≠ e ∧ f.tgt.tests = false)) ∧
    (Tgt.s 5 0).tests = false ∧ (Tgt.s 5 0).takes = none ∧ (Tgt.ev (.reg 5) 0 3).takes = none := by decide

/-- One lane of each format of the class, at least one element of tag 1; operands of a float format and of the integers that clamp and do not; the
halves of RNARW; a window with and without room, with room made by no fill and taken by one. -/
theorem witness_ForwardPushes_values :
    Fmt.isFWI .i32 = true ∧ Fmt.isFW .bf16 = true ∧ Fmt.isHalf .f16 = true ∧ (Fmt.ff .bf16).isSome = true ∧
    (let es : List FwdElem := [{ y := 1, res := 2, tag := false, fl := 0 }, { y := 0xFFFF, res := 0, tag := true, fl := 1 }]
     es.length = Fmt.count .bf16 0 ∧ (∀ e ∈ es, e.y < 2 ^ Fmt.width .bf16 0 ∧ e.res < 2 ^ Fmt.width .bf16 0) ∧ (fwdLane .bf16 7 es).2.2.1 = true) ∧
    (let es : List FwdElem := [{ y := 1, res := 2, tag := false, fl := 0 }]
     es.length = Fmt.count .i32 0 ∧ (fwdLane .i32 7 es).2.2.1 = false) ∧
    (fwdAdd .i32 .rne true false 0x7FFFFFFF 1).tag = true ∧ (fwdAdd .i32 .rne true false 0x7FFFFFFE 1).tag = false ∧
    (fwdMul .f32 .rne false 0x3F800000 0).tag = true ∧ (fwdAdd .f32 .rne false false 0x7F800000 0).tag = true ∧
    (fwdScalb .f32 .rne false 1 0x7F000000).tag = true ∧ (fwdNarw .f16 .rne false 0 0x33000000 0).2.2.1 = true ∧ (0x3F80 : Nat) < 2 ^ 16 ∧
    (windowed []).cur.win.length + 0 < 480 ∧
    (let s : State := windowed (List.replicate 465 plain) 2 false { stkbase := 0x11000, stkptr := 0x12000, stklim := 0x18000 }
     s.cur.winAgent = 2 ∧ ¬s.cur.win.length + (s.rank 0).fillCount < 480) := by decide +kernel

/-- A sum of BF16 lanes under tag 0 and one under tag 1, with both elements of a lane. -/
theorem witness_UndoRestoresInput_lanes :
    (fwdLane .bf16 0x3F803F80 ((upto 0 2).map (fun k => fwdAdd .bf16 .rne false false (elem .bf16 0 0x3F803F80 k) (elem .bf16 0 0x40004000 k)))).2.2.1 = false ∧
    (fwdLane .bf16 0x7F803F80 ((upto 0 2).map (fun k => fwdAdd .bf16 .rne false false (elem .bf16 0 0x7F803F80 k) (elem .bf16 0 0x40004000 k)))).2.2.1 = true ∧
    (fwdNarw .f16 .rne false 0 0x33000000 0).2.2.1 = true := by decide

/-- The agent between two states of the bank its records lie in; a trap on its way and none; nothing in flight. -/
theorem witness_RemainderStack_waits :
    (∀ o ∈ (windowed [plain] 1).ops, o.isTrap 0 = false) ∧ (({ id := 0, key := 0, kind := .trap } : Op).isTrap 0 = true) ∧
    (let s : State := { windowed [plain] 1 with crews := [(0, { tlb := [page] })] }
     let u : State := { s with mem := { chans := [(dramChan 0x11000, { busy := [dramBank 0x11000] })] } }
     let ps : List Piece := [⟨0x11000, 272, .glob 0x11000 page⟩]
     s.piecesWait 0 0 ps = false ∧ u.piecesWait 0 0 ps = true) ∧
    (windowed [plain]).mem.wq = [] ∧ (windowed [plain]).mem.rq = [] ∧ (∀ q ∈ (windowed [plain]).cur.pend, q.rd = none) ∧
    base.before.cur.win = [] ∧
    (let s : State := { base with view := some { base.viewNow with win := [plain] } }
     s.before.cur.win ≠ []) := by decide

/-- A completion object in held banks, a status area there, and both free. -/
theorem witness_held_objects :
    beside.fewHeld win0.toNat 4 = true ∧ base.fewHeld win0.toNat 4 = false ∧ beside.statHeld (some win0.toNat) 16 = true ∧
    base.statHeld (some win0.toNat) = false ∧ base.statHeld none = false := by decide

/-- A queue element that its push ordered, and the next place of the ring. -/
theorem witness_DequesAndGranules_rls : ({ rls := [(255, [7])] } : Deque).rls.at ((0 + 255) % 256) [] = [7] ∧ ({} : Deque).rls.at 0 [] = [] := by decide

/-- A head whose stream is halted, one halted and stopped for a save. -/
theorem witness_MatrixCalls_halted :
    (let s : State := { base with cur := { stream0 with halted := true } }
     ∀ x, s.stream 0 = some x → x.halted = true ∧ x.stopped = false) ∧
    (let s : State := { base with cur := { stream0 with halted := true, stopped := true } }
     ∀ x, s.stream 0 = some x → x.halted = true → x.stopped = true) := by
  constructor <;> intro s x h <;> injection h with h <;> subst h <;> decide

/-- A MACG at the call's micro address: its copy can be made into the empty ring 2, not into a full one, nor from an address that is not held. -/
theorem witness_MatrixMultiplies_copies :
    (let s := running .f32 .f32
     ∀ c ∈ s.core.calls, c.fetched = false ∧ (s.macgCopy c 2 1 0 1 false 0).isOk = false ∧
       (s.macgCopy { c with q := [(0, win0)] } 2 1 0 1 false 0).isOk = true ∧
       (s.macgCopy { c with q := [(0, win0)] } 0 1 0 1 false 0).isOk = false) := by decide

/-- An operation with a trap, a trap on its way, and a load's line on its way, queued, in service and served; a bank that serves another. -/
theorem witness_Completions_traps :
    (({ id := 3, key := 0, kind := .copy {}, trap := some { cause := 0x08 } } : Op).trap = some { cause := 0x08 } ∧ base.savedOf 0 = none) ∧
    (let o : Op := { id := 3, key := 0, kind := .trap, trap := some { cause := 0x08 } }
     o.key = 0 ∧ o.kind = .trap ∧ ∀ v ∈ ([{ id := 1, key := 0, kind := .copy {} }] : List Op), ¬(v.key = 0 ∧ v.kind = .trap)) ∧
    (let p (n : Nat) : Pend := ⟨2, 0, [.s 5 9], 0, [⟨0x10000, true, n⟩], none⟩
     let s (n : Nat) : State := { base with cur := { stream0 with pend := [p n] } }
     (s 0).stream 0 = some (s 0).cur ∧ ((s 1).cur.pend.find? (fun q => q.id == 2)) = some (p 1) ∧ (p 2).dram[0]? = some ⟨0x10000, true, 2⟩ ∧
       (s 1).refreshing 0x10000 = false ∧ (s 1).bankBusy (dramChan 0x10000) (dramBank 0x10000) = false ∧
       (s 2).bankBusy (dramChan 0x10000) (dramBank 0x10000) = true ∧ (s 3).landable (s 3).cur (p 3) = true ∧ (s 2).landable (s 2).cur (p 2) = false) := by
  decide

/-- A refresh that waits for an access in service, one of all banks, and a channel with nothing under way. -/
theorem witness_WritesAndRefresh_due :
    (let s : State := { base with cur := { stream0 with pend := [⟨2, 0, [], 0, [⟨0, false, 2⟩], none⟩] } }
     s.bankBusy 0 0 = true ∧ s.bankBusy 0 1 = false ∧ (List.range 16).any (s.bankBusy 0) = true ∧ (List.range 16).any (base.bankBusy 0) = false) ∧
    ({ allDue := true } : PChan).closed 3 = true ∧ ({ due := [3] } : PChan).closed 3 = true ∧ ({} : PChan).closed 3 = false ∧
    (({} : PChan).busy = [] ∧ ({} : PChan).due = [] ∧ ({} : PChan).allDue = false) ∧
    (let q : RWrite := { id := 5, src := 1, dst := 0, clock := [0, 1, 0, 0], wr := some 3 }
     base.mem.mayApply q = true ∧ base.mem.maySend q.dst = true) := by decide

/-- A module whose steps of R379 have ended for a context, and one short of each; a queue pair in the error state. -/
theorem witness_HostQueues_ready :
    (let s : State := { cox [] with
       mgmt := { power := .on, attested := true, links := [(0, 3)], eth := [(0, 400)] },
       front := { (cox []).front with ctxs := [(0, { qps := [0], up := true })] } }
     s.mgmt.links ≠ [] ∧ s.mgmt.eth ≠ [] ∧ s.mgmt.attested = true ∧ (s.ctxAt 0).up = true) ∧
    base.mgmt.links = [] ∧ base.mgmt.attested = false ∧ (base.ctxAt 0).up = false ∧
    ({ base with front := { ctxs := [(0, { qps := [0], qpErr := [0] })] } } : State).bound 0 0 = false := by decide

/-- A head to start, on a rank that has not executed CATCH and on one whose CATCH has retired; a core that is free, a place beside a primary, and none;
a core last used by the launch; a task to retire. -/
theorem witness_LaunchesAndTasks_order :
    headOf [launch1] = some launch1 ∧ (cox [launch1]).setSlots 0 launch1 = [0] ∧ (cox [launch1]).catchOver 0 = false ∧
    ({ cox [] with front := { ranks := [(0, { caughtExec := true })] } } : State).catchOver 0 = true ∧
    ((cox [launch1]).jobOf 0 launch1.job).isSome = true ∧
    (cox []).fitsFree 0 { tiles := 8 } = true ∧ base.fitsFree 0 { tiles := 8 } = false ∧
    (let s : State := { base with cur := { stream0 with tiles4 := true, pair := true } }
     s.fitsBeside 0 0 { tiles := 4, pair := true } = true ∧ s.fitsBeside 0 0 { tiles := 8, pair := true } = false) ∧
    (∃ v ∈ [((3, 0, 0, 5, 0, 9) : Nat × Nat × Nat × Nat × Nat × Word64)], v.1 / 8 = 0 ∧ v.2 = (0, 0, 5, 0, 9)) ∧
    (cox []).ops = [] ∧ base.stream 0 = some base.cur ∧ base.streams.find 0 = none := by decide

/-- A slice that ends without a contender, with one that fits, of a queue without weight, of a stream that is asked already, without a free area; a
message of the job's last rank and of one before; a job of this coordinator, in its step and the next one. -/
theorem witness_HeatsSlicesSteps_decide :
    (let s : State := { base with front := { ctxs := [(0, { qweight := 1, csaslots := 1 })], ranks := base.front.ranks } }
     (∀ m, s.leastVt = some m → m < 2 ^ 48) ∧ (s.ctxAt 0).weight 0 ≠ 0 ∧ (s.ctxAt 0).freeArea ≠ none ∧ s.cur.pre = 0 ∧ s.beaten 0 s.cur = false) ∧
    (base.ctxAt 0).weight 0 = 0 ∧ (base.ctxAt 0).freeArea = none ∧ ({ stream0 with pre := 1 } : Stream).pre ≠ 0 ∧
    (let j : Job := { job := 1, ctx := 0, v := 2, coord := 0, mapbase := 0x18000 }
     j.coord = base.mgmt.node ∧ j.caught + 1 < j.v ∧ j.v ≤ j.caught + 2 ∧ (∀ i, i < j.v → hbmExists (j.mapbase + 4 * i) = true) ∧
       (0 : Word32) = j.next ∧ (1 : Word32) = j.next + 1 ∧ (2 : Word32) ≠ j.next) := by
  refine ⟨⟨?_, by decide, by decide, by decide, by decide⟩, by decide, by decide, by decide, by decide, by decide, by decide, ?_, by decide, by decide, by decide⟩
  · intro m h
    have e : (({ base with front := { ctxs := [(0, { qweight := 1, csaslots := 1 })], ranks := base.front.ranks } } : State).leastVt) = some 0 := by decide
    rw [e] at h
    injection h with h
    omega
  · intro i hi
    change i < 2 at hi
    interval_cases i <;> decide

/-- A result area of 72 bytes in the window, an answer with fields and one of the status word alone; parked requests of the deposit's kind, of another
rank's region, and one that is gone. -/
theorem witness_TulleHome_area :
    base.Canon ∧ base.savedOf 0 = none ∧
    (let t : TReq := { request .take with place := [(0x10000, 72)] }
     t.place = [(0x10000, 72)] ∧ 0x10000 % 4 = 0 ∧ (List.replicate 8 (0 : Word64)).length = 8) ∧
    (request .take).same 0 0 none 0 = true ∧ (request .take).same 0 1 none 0 = false ∧
    (({ base with treqs := [request .take] } : State).treqs.find? (fun q => q.id == 0)) = some (request .take) ∧
    (base.treqs.find? (fun q => q.id == 0)) = none := ⟨⟨rfl, rfl, rfl, rfl⟩, by decide⟩

/-- A sum, a greatest and a least of FP32 values, with a NaN and without; a node whose sibling stands beside it, and what the tree over the group says
of both; a sum of BF16 values and of integers. -/
theorem witness_Collectives_tree :
    ({ op := 0 } : CollD).fmt ≠ 2 ∧ (fp32.value 0x7FC00000).isNan = true ∧ (fp32.value 0x3F800000).isNan = false ∧ base.front.colls = [] ∧
    (let d : CollD := { collD with last := 1 }
     let leaf (i : Nat) : List Word32 := [if i = 0 then 0x3F800000 else 0x40000000]
     d.tree leaf 0 0 = some [0x3F800000] ∧ d.tree leaf 0 1 = some [0x40000000] ∧ d.tree leaf 0 2 = none ∧ d.group = 2 ∧
       (let c : Coll := { ctx := 0, job := 1, d := d, nodes := [{ index := 0, vals := [0x3F800000] }, { index := 1, vals := [0x40000000] }] }
        (base.nodeStep c).map (fun r => r.2.nodes.map (fun v => (v.level, v.index, v.vals))) = some [(1, 0, [0x40400000])])) ∧
    ({ fmt := 1, kind := 0 } : CollD).kind ≠ 2 ∧ ({ fmt := 2 } : CollD).fmt ≠ 1 := by decide

/-- Codes of each path at the ends of their ranges; a bus that is served and one that is not. -/
theorem witness_PrivilegedRecords_codes :
    (0x10 ≤ (0x10 : Byte).toNat ∧ (0x14 : Byte).toNat ≤ 0x14) ∧ (1 ≤ (0x0F : Byte).toNat ∧ (0x0F : Byte).toNat ≤ 0x0F) ∧
    ¬(0x10 ≤ (0x15 : Byte).toNat ∧ (0x15 : Byte).toNat ≤ 0x14) ∧ base.mgmt.power = .on ∧ State.reset.mgmt.power = .off := by decide

/-- A record that CMD 0x01 wrote and one that it did not; a rank with an order and without; a blob that unwraps and one that does not, whatever the
engine makes of them. -/
theorem witness_ContextsAndRanks_written (blob pair : List Word64) (h : Config.unwrapKeys blob 0 = some pair) :
    (({ written := true } : Rank).written = true ∧ ({} : Rank).written = false ∧ (∀ m ∈ base.front.migrs, m.slot ≠ 0) ∧
      base.front.ctxs.has 0 = true ∧ ({ base with mgmt := { power := .on, eth := [(2, 400)] } } : State).mgmt.eth ≠ []) ∧
    ∃ p, Config.unwrapKeys blob 0 = some p := ⟨by decide, pair, h⟩

/-- An image that the fused firmware key signs, whatever pair of key and signature the engine accepts; one of a version that is too low; a link down. -/
theorem witness_PowerAndPorts_image (key sig : List Byte) (h : Config.ed448Verify key (Config.shake256 ([] ++ leBytes 2 8 ++ [] ++ [0])) sig = true) :
    let f : FwImage := { code := [], version := 2, hvKey := [], debug := false }
    let g : Mgmt := { rollback := 2, fwKey := Config.shake256 key }
    (Config.shake256 key = g.fwKey ∧
      Config.ed448Verify key (Config.shake256 (f.code ++ leBytes f.version 8 ++ f.hvKey ++ [if f.debug then 1 else 0])) sig = true) ∧
    g.rollback ≤ f.version ∧ { f with version := 1 }.version < g.rollback ∧
    (({ qpPort := [(0, 2)] } : Ctx).qpPort.find 0 = some 2 ∧ ({ qpPort := [(0, 2)] } : Ctx).qpPort.find 0 ≠ some 3) :=
  ⟨⟨rfl, h⟩, Nat.le_refl 2, Nat.lt_succ_self 1, by decide, by decide⟩

/-- A rank of a job without a step launch of NEXT, one with such a launch, one with an order; a job whose step runs. -/
theorem witness_TierMoves_may :
    (let s := cox []
     (s.rank 0).state = .active ∧ (∀ m ∈ s.front.migrs, m.slot ≠ 0) ∧ ((s.jobOf 0 1).map (fun e => e.2.state)) = some .committed ∧
       ∀ q ∈ (s.ctxAt 0).queues, q.2 = []) ∧
    (launch1.done = false ∧ launch1.sl = true ∧ launch1.step = 1 ∧ launch1.job = 1 ∧ launch1.first ≤ 0 ∧ 0 ≤ launch1.last) ∧
    (∃ m ∈ [({ slot := 0 } : Migr)], m.slot = 0) := by decide

/-- A page that nothing writes, a write under way there and a load under way alone; a fault of the walk that no TLB answers. -/
theorem witness_TranslationAndBumps_place :
    (∀ w ∈ walked.mem.wq, ¬(w.slot = 0 ∧ w.va ≤ 0x40 ∧ 0x40 < w.va + w.bytes.length)) ∧ (walked.walk 0 0x40 .load).isOk = true ∧
    (let s : State := { base with core := {} }
     (s.walk 0 0x40 .load).isOk = false ∧ (∀ k ∈ s.allCores, tlbFind k.2.tlb 0 0x40 = none) ∧ ∀ k ∈ s.crews, tlbFind k.2.tlb 0 0x40 = none) ∧
    (let w : PWrite := { id := 1, key := 0, va := 0x10004, pa := 0x10004, bytes := [1, 2] }
     [w].find? (fun w => w.slot == 0 && decide (w.va ≤ 0x10005) && decide (0x10005 < w.va + w.bytes.length)) = some w) ∧
    (let q : RPart := { va := 0x10000, pa := 0x10000, n := 8, e := page }
     let r : PRead := ⟨[q], .scalar 5 8 false⟩
     ({ stream0 with pend := [⟨2, 0, [.s 5 0], 0, [], some r⟩] } : Stream).pend = [⟨2, 0, [.s 5 0], 0, [], some r⟩] ∧ r.parts = [q] ∧ q.win = none) := by
  decide

/-- The traffic's packet for a rank that has moved, whose map names node 5 and whose MAPUPD has come; one that left before the map changed; a request
that nothing holds; an order whose wait is over and one that waits for an acknowledgement; a rank that is DEPARTING. -/
theorem witness_PacketsAndMigration_moved :
    (let p : Pkt := { msg [] with rank := 1, held := true, node := some 0 }
     let t := mapped5 (traffic {} p)
     let s : State := { t with front := { t.front with
       jobs := [(0, { job := 1, ctx := 0, v := 2, mapbase := 0x18000, updated := [1] })], ranks := [(0, { state := .active, job := 1 })] } }
     s.heldBefore p = false ∧ p.held = true ∧ s.deliverP p = none ∧ s.mapNode 0 1 1 = some 5 ∧ (5 : Nat) ≠ s.mgmt.node.toNat ∧
       ((s.jobOf 0 1).map (fun e => decide (1 ∈ e.2.updated))) = some true ∧ s.slotOfRank 0 1 1 = none ∧ p.kind.toRank = true ∧ (∀ i, p.kind ≠ .tulle i) ∧
       (s.front.pkts.map (fun p => p.id)).Nodup) ∧
    (let t : TReq := { request .dep with state := 3 }
     let s : State := { base with treqs := [t] }
     s.reqWaits t = false ∧ s.behindRel t.key t.id = false) ∧
    (let m : Migr := { slot := 0, dnode := 5, phase := 0 }
     let s : State := { traffic {} (msg []) with front := { (traffic {} (msg [])).front with migrs := [m] } }
     (∃ m ∈ s.front.migrs, m.slot = 0 ∧ m.phase = 0) ∧ s.migDeferred 0 = false ∧ (s.rank 0).state = .active) ∧
    (let r : Rank := { state := .departing, job := 1 }
     r.state = .departing) ∧ (∀ i, i < 2 → hbmExists (0x18000 + 4 * i) = true) ∧
    (let m : Migr := { slot := 1, dnode := 5, phase := 2, waits := [5] }
     m.waits ≠ []) ∧ ({ slot := 1, dnode := 5, phase := 2 } : Migr).waits = [] := by
  refine ⟨?_, by decide, by decide, rfl, ?_, by decide, rfl⟩
  · refine ⟨by decide, rfl, by decide, by decide, by decide, by decide, by decide, rfl, fun i h => PktKind.noConfusion h, by decide⟩
  · intro i hi
    interval_cases i <;> decide

/-- A saved stream of a light and of a full save whose parts have their places, in areas of a stack; granules for it. -/
theorem witness_Preemption_roundtrip :
    ({ area := 0, stream := stream0 } : Saved).Fits ∧
    ({ area := 0, full := true, stream := stream0, grans := [(5, 1)], fe := [(1, 1)], mrf := [(32767, 1)] } : Saved).Fits ∧ base.Canon ∧
    (let s : State := { base with front := { ctxs := [(0, { csaslots := 1, csapool := 0x30000 })] } }
     s.areaBase 0 0 % 128 = 0 ∧ hbmExists (s.areaBase 0 0) = true ∧ hbmExists (s.areaBase 0 0 + Config.csasize - 1) = true ∧
       hbmExists (s.areaBase 0 0 + 0x46000 - 1) = true) ∧ stream0.ctx = 0 ∧ (base.coreOf 0).mrf.wf = true ∧
    ((([(0, 3), (1, 2)] : Tbl Nat).map (fun e => e.2)).Nodup ∧ ∀ e ∈ ([(0, 3), (1, 2)] : Tbl Nat), e.1 < 16 ∧ e.2 < 16) ∧
    (stream0.lgran.map (fun e => e.1)).Pairwise (· < ·) ∧ base.mem.spad.wf = true ∧ base.mem.fe.wf = true := by
  unfold Saved.Fits
  exact ⟨by decide, by decide, ⟨rfl, rfl, rfl, rfl⟩, by decide⟩

end Sys2Proof.Tests
end

section
/-! The tier engine (R11, R15, R54, R55, R73, R350-R353, R355): the rules of the records it writes, the frames of the operations it calls, what each of
its steps does, and the statement `Obligations.TierMoves`. -/

namespace Sys2Proof.Machine

/-! Tables and records. -/

theorem Tbl.at_put_same {α : Type} (t : Tbl α) (a : Nat) (x d : α) : (t.put a x).at a d = x := by
  rw [Tbl.at, Tbl.find_put_same, Option.getD_some]

theorem Tbl.at_put_other {α : Type} (t : Tbl α) {a b : Nat} (x d : α) (h : b ≠ a) : (t.put a x).at b d = t.at b d := by
  rw [Tbl.at, Tbl.find_put_other t a b x h, Tbl.at]

theorem Tbl.at_of_find {α : Type} {t : Tbl α} {a : Nat} {x : α} (d : α) (h : t.find a = some x) : t.at a d = x := by
  rw [Tbl.at, h, Option.getD_some]

/-- A change of every record of a table is seen at each key. -/
theorem Tbl.find_map {α β : Type} (t : Tbl α) (g : α → β) (a : Nat) : Tbl.find (t.map (fun e => (e.1, g e.2))) a = (t.find a).map g := by
  induction t with
  | nil => rfl
  | cons e r ih =>
    obtain ⟨k, v⟩ := e
    simp only [List.map_cons, Tbl.find, ih]
    split_ifs <;> rfl

theorem Tbl.at_map {α β : Type} (t : Tbl α) (g : α → β) (a : Nat) (d : α) : Tbl.at (t.map (fun e => (e.1, g e.2))) a (g d) = g (t.at a d) := by
  rw [Tbl.at, Tbl.find_map, Option.getD_map, Tbl.at]

@[simp] theorem State.rank_putRank_same (s : State) (i : Nat) (r : Rank) : (s.putRank i r).rank i = r := Tbl.at_put_same ..

theorem State.rank_putRank_other (s : State) {i k : Nat} (r : Rank) (h : k ≠ i) : (s.putRank i r).rank k = s.rank k := Tbl.at_put_other _ _ _ h

/-- A rank's record is read from the rank table alone. -/
theorem State.rank_congr {s t : State} (h : t.front.ranks = s.front.ranks) (k : Nat) : t.rank k = s.rank k := by
  rw [State.rank, h, State.rank]

/-- A context that exists is changed as the function says. -/
theorem State.ctxAt_modCtx_same (s : State) (c : Nat) (g : Ctx → Ctx) (h : s.front.ctxs.has c = true) : (s.modCtx c g).ctxAt c = g (s.ctxAt c) := by
  obtain ⟨x, hx⟩ := Option.isSome_iff_exists.mp h
  have hold : s.ctxAt c = x := Tbl.at_of_find _ hx
  rw [hold, State.modCtx, hx]
  exact Tbl.at_put_same ..

/-! Frames: what an operation does not reach, as a state with the rest blanked. -/

/-- A fold leaves what each of its steps leaves. -/
theorem foldl_keeps {α β γ : Type} (p : α → γ) (g : α → β → α) (l : List β) (a : α) (h : ∀ a b, p (g a b) = p a) : p (l.foldl g a) = p a := by
  rw [← List.foldl_hom p (g₂ := fun x _ => x) (fun a b => (h a b).symm), List.foldl_fixed]

/-- A state but for its memory, its cores and the counter of identities. -/
def State.offMemory (s : State) : State := { s with mem := {}, core := {}, cores := [], nextId := 0 }

theorem State.setMem_offMemory (s : State) (m : MemSys) : ({ s with mem := m } : State).offMemory = s.offMemory := rfl

theorem State.putCore_offMemory (s : State) (c : Nat) (x : Core) : (s.putCore c x).offMemory = s.offMemory := by
  unfold State.putCore
  split <;> rfl

theorem State.broadcast_offMemory (s : State) (d : Nat) (key : Option Nat) (wr : Option (Nat × Nat)) (pa : Nat) (bytes : List Byte) (w : Option PWrite) :
    (s.broadcast d key wr pa bytes w).offMemory = s.offMemory := by
  unfold State.broadcast
  refine foldl_keeps State.offMemory _ _ _ fun a t => ?_
  dsimp only
  split <;> rfl

theorem State.feedReplicas_offMemory (s : State) (key : Option Nat) (ctx : Nat) (buf : BitVec 24) (pa n : Nat) (w : Option PWrite) :
    (s.feedReplicas key ctx buf pa n w).offMemory = s.offMemory := by
  unfold State.feedReplicas
  dsimp only
  split
  · exact State.broadcast_offMemory ..
  · rfl

theorem State.homePut_offMemory (s : State) (ctx : Nat) (buf : BitVec 24) (pa : Nat) (bytes : List Byte) :
    (s.homePut ctx buf pa bytes).offMemory = s.offMemory := rfl

theorem State.unpin_offMemory (s : State) (core line : Nat) : (s.unpin core line).offMemory = s.offMemory := by
  unfold State.unpin
  dsimp only
  split
  · rfl
  · refine (foldl_keeps State.offMemory _ _ _ fun a i => ?_).trans (State.putCore_offMemory ..)
    split
    · rw [State.feedReplicas_offMemory, State.homePut_offMemory]
    · rfl

theorem State.unpinIf_offMemory (s : State) (core : Nat) (p : PinLine → Bool) : (s.unpinIf core p).offMemory = s.offMemory :=
  foldl_keeps State.offMemory _ _ _ fun a e => a.unpin_offMemory core e.1

/-- Giving up a slot's pinned lines reaches memory and cores alone (R234, R235). -/
theorem State.unpinSlot_offMemory (s : State) (slot : Nat) : (s.unpinSlot slot).offMemory = s.offMemory := by
  refine (State.setMem_offMemory _ _).trans (foldl_keeps State.offMemory _ _ _ fun a k => ?_)
  split
  · rfl
  · exact State.unpinIf_offMemory ..

theorem State.front_of_offMemory {s t : State} (h : t.offMemory = s.offMemory) : t.front = s.front := (congrArg State.front h :)

theorem State.streams_of_offMemory {s t : State} (h : t.offMemory = s.offMemory) : t.streams = s.streams := (congrArg State.streams h :)

theorem State.ops_of_offMemory {s t : State} (h : t.offMemory = s.offMemory) : t.ops = s.ops := (congrArg State.ops h :)

/-- A state but for its contexts. -/
def State.offCtxs (s : State) : State := { s with front := { s.front with ctxs := [] } }

theorem State.modCtx_offCtxs (s : State) (c : Nat) (g : Ctx → Ctx) : (s.modCtx c g).offCtxs = s.offCtxs := by
  unfold State.modCtx
  split <;> rfl

theorem State.giveBack_offCtxs (s : State) (c : Nat) (fs : List Nat) : (s.giveBack c fs).offCtxs = s.offCtxs := s.modCtx_offCtxs ..

theorem State.ranks_of_offCtxs {s t : State} (h : t.offCtxs = s.offCtxs) : t.front.ranks = s.front.ranks :=
  (congrArg (fun u : State => u.front.ranks) h :)

theorem State.images_of_offCtxs {s t : State} (h : t.offCtxs = s.offCtxs) : t.front.images = s.front.images :=
  (congrArg (fun u : State => u.front.images) h :)

theorem State.mem_of_offCtxs {s t : State} (h : t.offCtxs = s.offCtxs) : t.mem = s.mem := (congrArg State.mem h :)

theorem State.streams_of_offCtxs {s t : State} (h : t.offCtxs = s.offCtxs) : t.streams = s.streams := (congrArg State.streams h :)

theorem State.outs_of_offCtxs {s t : State} (h : t.offCtxs = s.offCtxs) : t.outs = s.outs := (congrArg State.outs h :)

/-- The maximum rule reaches a queue's virtual time alone (R49). -/
theorem State.wake_offCtxs (s old : State) (c q : Nat) : (s.wake old c q).offCtxs = s.offCtxs := by
  unfold State.wake
  split
  · split
    · exact State.modCtx_offCtxs ..
    · rfl
  · rfl

/-- A list of queues woken one after another. -/
theorem State.foldl_wake_offCtxs (s old : State) (c : Nat) (qs : List Nat) : (qs.foldl (fun t q => t.wake old c q) s).offCtxs = s.offCtxs :=
  foldl_keeps State.offCtxs _ _ _ fun a q => a.wake_offCtxs old c q

/-- A state but for what has left the module. -/
def State.offOuts (s : State) : State := { s with outs := {} }

theorem State.offCtxs_offOuts (s : State) : s.offCtxs.offOuts = s.offOuts.offCtxs := rfl

theorem State.cevent_offOuts (s : State) (kind cause ctx unit addr vrank : Nat) : (s.cevent kind cause ctx unit addr vrank).offOuts = s.offOuts := rfl

/-- Where only contexts and what has left the module differ, the records, memory, cores and crews agree. -/
theorem State.agree_of_offCtxs_offOuts {s t : State} (h : t.offCtxs.offOuts = s.offCtxs.offOuts) :
    t.front.ranks = s.front.ranks ∧ t.front.images = s.front.images ∧ t.front.tiers = s.front.tiers ∧ t.mem = s.mem ∧
      (∀ k, t.coreOf k = s.coreOf k) ∧ t.crews = s.crews :=
  ⟨(congrArg (fun u : State => u.front.ranks) h :), (congrArg (fun u : State => u.front.images) h :), (congrArg (fun u : State => u.front.tiers) h :),
    (congrArg State.mem h :), fun k => (congrArg (fun u : State => u.coreOf k) h :), (congrArg State.crews h :)⟩

/-! Shootdowns (R65). -/

/-- What a shootdown leaves in a core's TLB. -/
theorem State.coreOf_shoot_tlb (s : State) (slot va len k : Nat) :
    ((s.shoot slot va len).coreOf k).tlb = (s.coreOf k).tlb.filter (fun e => !e.hit slot va len) := by
  unfold State.coreOf State.shoot
  dsimp only
  split
  · rfl
  · exact congrArg Core.tlb (Tbl.at_map s.cores (fun c => { c with tlb := c.tlb.filter (fun e => !e.hit slot va len) }) k {})

/-- What a shootdown leaves in a crew's TLB. -/
theorem State.crews_shoot_tlb (s : State) (slot va len k : Nat) :
    ((s.shoot slot va len).crews.at k {}).tlb = (s.crews.at k {}).tlb.filter (fun e => !e.hit slot va len) :=
  (congrArg Crew.tlb (Tbl.at_map s.crews (fun c => { c with tlb := c.tlb.filter (fun e => !e.hit slot va len) }) k {}) :)

/-- A shootdown of a whole slot meets exactly the slot's entries. -/
theorem Tlb.hit_whole (slot va : Nat) (e : Tlb) : e.hit slot va 0 = (e.slot == slot) := by
  simp [Tlb.hit]

theorem slot_ne_of_mem_shot {slot va : Nat} {l : List Tlb} {e : Tlb} (h : e ∈ l.filter (fun e => !e.hit slot va 0)) : e.slot ≠ slot := by
  simpa [Tlb.hit_whole] using (List.mem_filter.mp h).2

/-! Commands (R374). -/

/-- A command that the module serves and that is answered at once. -/
theorem State.command_now {s u : State} {c : Cmd} {f : State → Ans} {status : Nat} {data : List Word64} (h : s.accepts c)
    (hf : f (s.taken c) = .now u status data) : s.command c f = .next (u.respond c.seq status data) := by
  obtain ⟨hpower, hsigned, hrsv, hseq⟩ := h
  have hnew : (s.mgmt.anySeq && decide (c.seq.toNat ≤ s.mgmt.lastSeq.toNat)) = false := by
    cases hany : s.mgmt.anySeq with
    | false => rfl
    | true => simpa using hseq hany
  unfold State.command
  rw [if_neg (not_not.mpr hpower), if_neg (by simp [hsigned, hrsv, hnew])]
  dsimp only
  split
  case h_1 heq => cases heq.symm.trans hf
  case h_2 heq => cases heq.symm.trans hf; rfl
  case h_3 heq => cases heq.symm.trans hf

theorem State.answers_now {s u : State} {i : Instr} {c : Cmd} {f : State → Ans} {status : Nat} {data : List Word64} (hi : exec i s = s.command c f)
    (h : s.accepts c) (hf : f (s.taken c) = .now u status data) : s.Answers i c u status data := hi.trans (State.command_now h hf)

/-! When the tier engine may move a rank (R15, R54, R55, R351). -/

/-- The conditions of R15 and R355 for an eviction. -/
theorem State.mayEvict_iff (s : State) (k : Nat) : s.mayEvict k = true ↔ (s.rank k).state = .active ∧ (∀ m ∈ s.front.migrs, m.slot ≠ k) ∧
    ∀ e, s.jobOf (s.rank k).ctx (s.rank k).job = some e → e.2.state = .committed ∧
      ∀ q ∈ (s.ctxAt (s.rank k).ctx).queues, ∀ l ∈ q.2, ¬(l.done = false ∧ l.sl = true ∧ l.step = e.2.next ∧ l.job = (s.rank k).job ∧
        l.first ≤ (s.rank k).vrank.toNat ∧ (s.rank k).vrank.toNat ≤ l.last) := by
  unfold State.mayEvict
  dsimp only
  cases hjob : s.jobOf (s.rank k).ctx (s.rank k).job with
  | none => simp
  | some e => simp [and_assoc]

/-- A free range of LP6 lies within its 2,048 GiB (R11). -/
theorem State.lp6Place_le {s : State} {n base : Nat} (h : s.lp6Place n = some base) : base + n ≤ 2 ^ 41 := by
  have hfree := List.find?_some h
  simp only [Bool.and_eq_true, decide_eq_true_eq] at hfree
  exact hfree.1

theorem State.tierBusy_iff (s : State) : s.tierBusy = true ↔ 4 ≤ s.front.tiers.length := decide_eq_true_iff

/-- Whether a rank may make room for a recall: R15 permits its eviction and no granule waits for it (R55). -/
def State.Evictable (s : State) (e : Nat × Rank) : Prop := s.mayEvict e.1 = true ∧ e.2.waiting = []

/-- One rank of the table, in the search for the one longest without an accepted launch. -/
def State.older (s : State) (a : Option (Nat × Nat)) (e : Nat × Rank) : Option (Nat × Nat) :=
  if s.mayEvict e.1 && e.2.waiting.isEmpty then
    (match a with
     | some b => if e.2.lastLaunch < b.2 then some (e.1, e.2.lastLaunch) else a
     | none => some (e.1, e.2.lastLaunch))
  else a

theorem State.victim_eq (s : State) : s.victim = (s.front.ranks.foldl s.older none).map Prod.fst := rfl

/-- What the search holds once it has seen some ranks: a slot with the launch time of an evictable rank of them that no other undercuts, or nothing while
none of them is evictable. -/
def State.OldestOf (s : State) (l : List (Nat × Rank)) : Option (Nat × Nat) → Prop
  | none => ∀ e ∈ l, ¬s.Evictable e
  | some b => ∃ q : Rank, (b.1, q) ∈ l ∧ s.Evictable (b.1, q) ∧ q.lastLaunch = b.2 ∧ ∀ e ∈ l, s.Evictable e → b.2 ≤ e.2.lastLaunch

theorem State.older_of_not {s : State} {e : Nat × Rank} (h : ¬s.Evictable e) (a : Option (Nat × Nat)) : s.older a e = a := by
  refine if_neg fun hc => h ?_
  simpa [State.Evictable] using hc

theorem State.older_none {s : State} {e : Nat × Rank} (h : s.Evictable e) : s.older none e = some (e.1, e.2.lastLaunch) := by
  obtain ⟨hmay, hwait⟩ := h
  simp [State.older, hmay, hwait]

theorem State.older_some {s : State} {e : Nat × Rank} (h : s.Evictable e) (b : Nat × Nat) :
    s.older (some b) e = if e.2.lastLaunch < b.2 then some (e.1, e.2.lastLaunch) else some b := by
  obtain ⟨hmay, hwait⟩ := h
  simp [State.older, hmay, hwait]

/-- What holds of a list's members and of one more holds of all of them. -/
theorem forall_mem_concat {α : Type} {P : α → Prop} {l : List α} {e : α} (hl : ∀ d ∈ l, P d) (he : P e) : ∀ d ∈ l ++ [e], P d :=
  List.forall_mem_append.mpr ⟨hl, List.forall_mem_singleton.mpr he⟩

/-- One more rank keeps what the search holds true. -/
theorem State.OldestOf.step {s : State} {l : List (Nat × Rank)} {a : Option (Nat × Nat)} (h : s.OldestOf l a) (e : Nat × Rank) :
    s.OldestOf (l ++ [e]) (s.older a e) := by
  have hlast : e ∈ l ++ [e] := by simp
  by_cases he : s.Evictable e
  · cases a with
    | none =>
      rw [State.older_none he]
      exact ⟨e.2, hlast, he, rfl, forall_mem_concat (fun d hd hev => absurd hev (h d hd)) fun _ => le_rfl⟩
    | some b =>
      obtain ⟨q, hq, hqe, hqb, hmin⟩ := h
      rw [State.older_some he]
      split
      case isTrue hlt => exact ⟨e.2, hlast, he, rfl, forall_mem_concat (fun d hd hev => hlt.le.trans (hmin d hd hev)) fun _ => le_rfl⟩
      case isFalse hge => exact ⟨q, List.mem_append_left _ hq, hqe, hqb, forall_mem_concat hmin fun _ => Nat.le_of_not_lt hge⟩
  · rw [State.older_of_not he]
    cases a with
    | none => exact forall_mem_concat h he
    | some b =>
      obtain ⟨q, hq, hqe, hqb, hmin⟩ := h
      exact ⟨q, List.mem_append_left _ hq, hqe, hqb, forall_mem_concat hmin fun hev => absurd hev he⟩

theorem State.oldestOf_foldl (s : State) (l : List (Nat × Rank)) : s.OldestOf l (l.foldl s.older none) := by
  induction l using List.reverseRecOn with
  | nil => exact fun e he => absurd he List.not_mem_nil
  | append_singleton l e ih =>
    rw [List.foldl_append]
    exact ih.step e

/-- The rank that makes room is an evictable one longest without an accepted launch (R55). -/
theorem State.victim_oldest {s : State} {v : Nat} (h : s.victim = some v) : ∃ q, (v, q) ∈ s.front.ranks ∧ s.mayEvict v = true ∧ q.waiting = [] ∧
    ∀ e ∈ s.front.ranks, s.mayEvict e.1 = true → e.2.waiting = [] → q.lastLaunch ≤ e.2.lastLaunch := by
  rw [State.victim_eq] at h
  obtain ⟨b, hb, rfl⟩ := Option.map_eq_some_iff.mp h
  have hold := s.oldestOf_foldl s.front.ranks
  rw [hb] at hold
  obtain ⟨q, hq, ⟨hmay, hwait⟩, hqb, hmin⟩ := hold
  exact ⟨q, hq, hmay, hwait, fun e he hm hw => hqb ▸ hmin e he ⟨hm, hw⟩⟩

/-! Orders to evict and to recall (R351). -/

section
variable {s : State} {c : Cmd} {slot : Nat}

/-- What an accepted order to evict a rank is answered (R351). -/
def evictOrder (slot : Nat) (s : State) : Ans :=
  if !s.mayEvict slot || 1024 ≤ s.coldCount || s.lp6Full slot then .now s 2 []
  else if !(s.rank slot).waiting.isEmpty then .now s 3 []
  else .now (s.putRank slot { s.rank slot with evictDue := true }) 0 []

theorem exec_evictRank (c : Cmd) (slot : Nat) (s : State) : exec (.evictRank c slot) s = s.command c (evictOrder slot) := rfl

/-- What an accepted order to recall a rank is answered (R351). -/
def recallOrder (slot : Nat) (s : State) : Ans :=
  .now (if (s.rank slot).state = .cold || (s.rank slot).state = .evicting then s.putRank slot { s.rank slot with recallDue := true } else s) 0 []

theorem exec_recallRank (c : Cmd) (slot : Nat) (s : State) : exec (.recallRank c slot) s = s.command c (recallOrder slot) := rfl

variable {s : State} {c : Cmd} {slot : Nat}

theorem evictOrder_refused (h : s.mayEvict slot = false ∨ 1024 ≤ s.coldCount ∨ s.lp6Full slot = true) : evictOrder slot s = .now s 2 [] :=
  if_pos (by simpa [or_assoc] using h)

/-- An order that R15, R14 and the space in LP6 admit turns on the waiting granules alone. -/
theorem evictOrder_admitted (hmay : s.mayEvict slot = true) (hcold : s.coldCount < 1024) (hfull : s.lp6Full slot = false) :
    evictOrder slot s = if (s.rank slot).waiting = [] then .now (s.putRank slot { s.rank slot with evictDue := true }) 0 [] else .now s 3 [] := by
  by_cases hw : (s.rank slot).waiting = [] <;> simp [evictOrder, hmay, hcold, hfull, hw]

theorem recallOrder_ordered (h : (s.rank slot).state = .cold ∨ (s.rank slot).state = .evicting) :
    recallOrder slot s = .now (s.putRank slot { s.rank slot with recallDue := true }) 0 [] :=
  congrArg (Ans.now · 0 []) (if_pos (by simpa using h))

theorem recallOrder_idle (hcold : (s.rank slot).state ≠ .cold) (hev : (s.rank slot).state ≠ .evicting) : recallOrder slot s = .now s 0 [] :=
  congrArg (Ans.now · 0 []) (if_neg (by simpa using And.intro hcold hev))

theorem evictRank_refused (ha : s.accepts c) (h : s.mayEvict slot = false ∨ 1024 ≤ s.coldCount ∨ (s.taken c).lp6Full slot = true) :
    s.Answers (.evictRank c slot) c (s.taken c) 2 :=
  State.answers_now (exec_evictRank ..) ha (evictOrder_refused h)

theorem evictRank_waiting (ha : s.accepts c) (hmay : s.mayEvict slot = true) (hcold : s.coldCount < 1024) (hfull : (s.taken c).lp6Full slot = false)
    (hw : (s.rank slot).waiting ≠ []) : s.Answers (.evictRank c slot) c (s.taken c) 3 :=
  State.answers_now (exec_evictRank ..) ha ((evictOrder_admitted (s := s.taken c) hmay hcold hfull).trans (if_neg hw))

theorem evictRank_ordered (ha : s.accepts c) (hmay : s.mayEvict slot = true) (hcold : s.coldCount < 1024) (hfull : (s.taken c).lp6Full slot = false)
    (hw : (s.rank slot).waiting = []) :
    s.Answers (.evictRank c slot) c ((s.taken c).putRank slot { s.rank slot with evictDue := true }) 0 :=
  State.answers_now (exec_evictRank ..) ha ((evictOrder_admitted (s := s.taken c) hmay hcold hfull).trans (if_pos hw))

theorem recallRank_ordered (ha : s.accepts c) (h : (s.rank slot).state = .cold ∨ (s.rank slot).state = .evicting) :
    s.Answers (.recallRank c slot) c ((s.taken c).putRank slot { s.rank slot with recallDue := true }) 0 :=
  State.answers_now (exec_recallRank ..) ha (recallOrder_ordered h)

theorem recallRank_idle (ha : s.accepts c) (hcold : (s.rank slot).state ≠ .cold) (hev : (s.rank slot).state ≠ .evicting) :
    s.Answers (.recallRank c slot) c (s.taken c) 0 :=
  State.answers_now (exec_recallRank ..) ha (recallOrder_idle hcold hev)

end

/-! Evictions (R54, R235, R351, R352). -/

section
variable {s : State} {slot : Nat}

theorem evictionStart_notDue (h : (s.rank slot).evictDue = false) : exec (.evictionStart slot) s = .next s := by
  change execEvictionStart slot s = _
  simp [execEvictionStart, h]

theorem evictionStart_dropped (hdue : (s.rank slot).evictDue = true) (h : s.mayEvict slot = false ∨ (s.rank slot).waiting ≠ []) :
    exec (.evictionStart slot) s = .next (s.putRank slot { s.rank slot with evictDue := false }) := by
  change execEvictionStart slot s = _
  have hcond : (!s.mayEvict slot || !(s.rank slot).waiting.isEmpty) = true := by simpa using h
  simp [execEvictionStart, hdue, hcond]

theorem evictionStart_busy (hdue : (s.rank slot).evictDue = true) (hmay : s.mayEvict slot = true) (hw : (s.rank slot).waiting = [])
    (hbusy : s.tierBusy = true) : exec (.evictionStart slot) s = .next s := by
  change execEvictionStart slot s = _
  simp [execEvictionStart, hdue, hmay, hw, hbusy]

theorem evictionStart_noPlace (hdue : (s.rank slot).evictDue = true) (hmay : s.mayEvict slot = true) (hw : (s.rank slot).waiting = [])
    (hplace : s.lp6Place (s.imageSize slot) = none) : exec (.evictionStart slot) s = .next s := by
  change execEvictionStart slot s = _
  simp [execEvictionStart, hdue, hmay, hw, hplace]

/-- A tier operation begins: the rank's record as it says, the operation among those in progress. -/
def State.beginTier (t : State) (r : Rank) (v : Tier) : State :=
  let t := t.putRank v.slot r
  { t with front := { t.front with tiers := t.front.tiers ++ [v] } }

/-- The state in which an eviction to a place in LP6 is under way. -/
def State.evictionBegun (s : State) (slot base : Nat) : State :=
  (s.unpinSlot slot).beginTier { s.rank slot with evictDue := false, state := .evicting } { slot := slot, base := base, size := s.imageSize slot }

theorem evictionStart_begins {base : Nat} (hdue : (s.rank slot).evictDue = true) (hmay : s.mayEvict slot = true) (hw : (s.rank slot).waiting = [])
    (hbusy : s.tierBusy = false) (hplace : s.lp6Place (s.imageSize slot) = some base) :
    exec (.evictionStart slot) s = .next (s.evictionBegun slot base) := by
  change execEvictionStart slot s = _
  simp [execEvictionStart, hdue, hmay, hw, hbusy, hplace, State.evictionBegun, State.beginTier]

theorem State.beginTier_rank_same (t : State) (r : Rank) (v : Tier) : (t.beginTier r v).rank v.slot = r := State.rank_putRank_same ..

theorem State.beginTier_rank_other (t : State) (r : Rank) {v : Tier} {k : Nat} (h : k ≠ v.slot) : (t.beginTier r v).rank k = t.rank k :=
  State.rank_putRank_other _ _ h

@[simp] theorem State.beginTier_tiers (t : State) (r : Rank) (v : Tier) : (t.beginTier r v).front.tiers = t.front.tiers ++ [v] := rfl
@[simp] theorem State.beginTier_ctxs (t : State) (r : Rank) (v : Tier) : (t.beginTier r v).front.ctxs = t.front.ctxs := rfl
@[simp] theorem State.beginTier_streams (t : State) (r : Rank) (v : Tier) : (t.beginTier r v).streams = t.streams := rfl
@[simp] theorem State.beginTier_ops (t : State) (r : Rank) (v : Tier) : (t.beginTier r v).ops = t.ops := rfl

theorem State.evictionBegun_rank_same (s : State) (slot base : Nat) :
    (s.evictionBegun slot base).rank slot = { s.rank slot with evictDue := false, state := .evicting } := State.beginTier_rank_same ..

theorem State.evictionBegun_rank_other (s : State) {slot k : Nat} (base : Nat) (h : k ≠ slot) : (s.evictionBegun slot base).rank k = s.rank k :=
  (State.beginTier_rank_other _ _ h).trans (State.rank_congr (congrArg Front.ranks (State.front_of_offMemory (s.unpinSlot_offMemory slot))) k)

theorem State.evictionBegun_tiers (s : State) (slot base : Nat) :
    (s.evictionBegun slot base).front.tiers = s.front.tiers ++ [{ slot := slot, base := base, size := s.imageSize slot }] := by
  rw [State.evictionBegun, State.beginTier_tiers, State.front_of_offMemory (s.unpinSlot_offMemory slot)]

theorem State.evictionBegun_ctxs (s : State) (slot base : Nat) : (s.evictionBegun slot base).front.ctxs = s.front.ctxs := by
  rw [State.evictionBegun, State.beginTier_ctxs, State.front_of_offMemory (s.unpinSlot_offMemory slot)]

theorem State.evictionBegun_streams (s : State) (slot base : Nat) : (s.evictionBegun slot base).streams = s.streams := by
  rw [State.evictionBegun, State.beginTier_streams, State.streams_of_offMemory (s.unpinSlot_offMemory slot)]

theorem State.evictionBegun_ops (s : State) (slot base : Nat) : (s.evictionBegun slot base).ops = s.ops := by
  rw [State.evictionBegun, State.beginTier_ops, State.ops_of_offMemory (s.unpinSlot_offMemory slot)]

theorem evictionComplete_notEvicting (h : (s.rank slot).state ≠ .evicting) : exec (.evictionComplete slot) s = .next s :=
  congrArg Host.Outcome.next (if_pos h)

/-- An eviction ends: the rank's record as it says, its tier operation over, its image in LP6. -/
def State.endEviction (t : State) (r : Rank) (g : Image) : State :=
  let t := (t.tierEnd g.slot).putRank g.slot r
  { t with front := { t.front with images := t.front.images ++ [g] } }

/-- The state in which an eviction has ended, before its job's catch is looked at. -/
def State.evicted (s : State) (slot : Nat) (v : Tier) : State :=
  (s.giveBack (s.rank slot).ctx (s.rankFrames slot)).endEviction { s.rank slot with state := .cold, image := BitVec.ofNat 64 v.base }
    { s.image slot with base := v.base, size := v.size }

theorem evictionComplete_ends {v : Tier} (h : (s.rank slot).state = .evicting) (hv : s.front.tiers.find? (fun t => t.slot == slot) = some v) :
    exec (.evictionComplete slot) s = .next ((s.evicted slot v).reportCaught (s.rank slot).ctx (s.rank slot).job) := by
  change execEvictionComplete slot s = _
  simp [execEvictionComplete, h, hv, State.evicted, State.endEviction, State.image]

theorem State.endEviction_rank_same (t : State) (r : Rank) (g : Image) : (t.endEviction r g).rank g.slot = r := State.rank_putRank_same ..

theorem State.endEviction_rank_other (t : State) (r : Rank) {g : Image} {k : Nat} (h : k ≠ g.slot) : (t.endEviction r g).rank k = t.rank k :=
  State.rank_putRank_other _ _ h

@[simp] theorem State.endEviction_images (t : State) (r : Rank) (g : Image) : (t.endEviction r g).front.images = t.front.images ++ [g] := rfl
@[simp] theorem State.endEviction_tiers (t : State) (r : Rank) (g : Image) :
    (t.endEviction r g).front.tiers = t.front.tiers.filter (fun v => v.slot != g.slot) := rfl
@[simp] theorem State.endEviction_mem (t : State) (r : Rank) (g : Image) : (t.endEviction r g).mem = t.mem := rfl
@[simp] theorem State.endEviction_streams (t : State) (r : Rank) (g : Image) : (t.endEviction r g).streams = t.streams := rfl
@[simp] theorem State.endEviction_ctxAt (t : State) (r : Rank) (g : Image) (c : Nat) : (t.endEviction r g).ctxAt c = t.ctxAt c := rfl

theorem State.evicted_rank_same (s : State) (slot : Nat) (v : Tier) :
    (s.evicted slot v).rank slot = { s.rank slot with state := .cold, image := BitVec.ofNat 64 v.base } := State.endEviction_rank_same ..

theorem State.evicted_rank_other (s : State) {slot k : Nat} (v : Tier) (h : k ≠ slot) : (s.evicted slot v).rank k = s.rank k :=
  (State.endEviction_rank_other _ _ h).trans (State.rank_congr (State.ranks_of_offCtxs (s.giveBack_offCtxs _ _)) k)

/-- Frames given back to a context that exists join its pool (R352). -/
theorem State.mem_pool_giveBack {c : Nat} (fs : List Nat) (f : Nat) (h : s.front.ctxs.has c = true) :
    f ∈ ((s.giveBack c fs).ctxAt c).pool ↔ f ∈ (s.ctxAt c).pool ∨ f ∈ fs := by
  rw [State.giveBack, State.ctxAt_modCtx_same _ _ _ h]
  by_cases hf : f ∈ (s.ctxAt c).pool <;> simp [hf]

theorem State.evicted_images (s : State) (slot : Nat) (v : Tier) :
    (s.evicted slot v).front.images = s.front.images ++ [{ s.image slot with base := v.base, size := v.size }] := by
  rw [State.evicted, State.endEviction_images, State.images_of_offCtxs (s.giveBack_offCtxs _ _)]

/-- No tier operation of a slot is left once its eviction has ended. -/
theorem State.slot_ne_of_mem_evicted_tiers {v w : Tier} (h : w ∈ (s.evicted slot v).front.tiers) : w.slot ≠ slot := by
  rw [State.evicted, State.endEviction_tiers] at h
  exact bne_iff_ne.mp (List.mem_filter.mp h).2

theorem State.evicted_mem (s : State) (slot : Nat) (v : Tier) : (s.evicted slot v).mem = s.mem := by
  rw [State.evicted, State.endEviction_mem, State.mem_of_offCtxs (s.giveBack_offCtxs _ _)]

theorem State.evicted_streams (s : State) (slot : Nat) (v : Tier) : (s.evicted slot v).streams = s.streams := by
  rw [State.evicted, State.endEviction_streams, State.streams_of_offCtxs (s.giveBack_offCtxs _ _)]

/-- The pool of an evicted rank's context holds the rank's frames again. -/
theorem State.mem_pool_evicted (v : Tier) (f : Nat) (h : s.front.ctxs.has (s.rank slot).ctx = true) :
    f ∈ ((s.evicted slot v).ctxAt (s.rank slot).ctx).pool ↔ f ∈ (s.ctxAt (s.rank slot).ctx).pool ∨ f ∈ s.rankFrames slot := by
  rw [State.evicted, State.endEviction_ctxAt, State.mem_pool_giveBack _ _ h]

end

/-! Recalls (R54, R55, R73, R352, R353). -/

section
variable {s : State} {slot : Nat}

theorem recallStart_waits (h : (s.rank slot).recallDue = false ∨ (s.rank slot).state ≠ .cold ∨ s.tierBusy = true) :
    exec (.recallStart slot) s = .next s := by
  refine congrArg Host.Outcome.next (if_pos ?_)
  simpa [or_assoc] using h

theorem recallStart_begins (hdue : (s.rank slot).recallDue = true) (hcold : (s.rank slot).state = .cold) (hbusy : s.tierBusy = false)
    (hroom : s.inH < 64) : exec (.recallStart slot) s =
      .next (s.beginTier { s.rank slot with state := .recalling, recallDue := false } { slot := slot, isRecall := true }) := by
  change execRecallStart slot s = _
  simp [execRecallStart, hdue, hcold, hbusy, hroom, State.beginTier]

/-- Room made for a recall while 64 ranks hold pages (R55). -/
def State.makeRoom (s : State) : State :=
  if 1024 ≤ s.coldCount || s.front.ranks.any (fun e => e.2.evictDue || e.2.state == .evicting) then s
  else s.victim.elim s (fun v => if s.lp6Full v then s else s.putRank v { s.rank v with evictDue := true })

theorem recallStart_full (hdue : (s.rank slot).recallDue = true) (hcold : (s.rank slot).state = .cold) (hbusy : s.tierBusy = false) (hfull : 64 ≤ s.inH) :
    exec (.recallStart slot) s = .next s.makeRoom := by
  change execRecallStart slot s = _
  cases hv : s.victim <;> simp [execRecallStart, hdue, hcold, hbusy, hfull, State.makeRoom, hv]

theorem State.makeRoom_noVictim (h : s.victim = none) : s.makeRoom = s := by
  simp [State.makeRoom, h]

/-- No further room is made beside an eviction that is due or under way, nor with 1,024 ranks COLD. -/
theorem State.makeRoom_waits (h : (∃ e ∈ s.front.ranks, e.2.evictDue = true ∨ e.2.state = .evicting) ∨ 1024 ≤ s.coldCount) : s.makeRoom = s :=
  if_pos (by simpa using h.symm)

theorem State.makeRoom_lp6Full {v : Nat} (hv : s.victim = some v) (hfull : s.lp6Full v = true) : s.makeRoom = s := by
  simp [State.makeRoom, hv, hfull]

theorem State.makeRoom_evicts {v : Nat} (hmaking : ¬∃ e ∈ s.front.ranks, e.2.evictDue = true ∨ e.2.state = .evicting) (hcold : s.coldCount < 1024)
    (hv : s.victim = some v) (hfull : s.lp6Full v = false) : s.makeRoom = s.putRank v { s.rank v with evictDue := true } := by
  have hgo : (decide (1024 ≤ s.coldCount) || s.front.ranks.any (fun e => e.2.evictDue || e.2.state == .evicting)) = false := by
    simpa [hcold] using hmaking
  simp [State.makeRoom, hgo, hv, hfull]

theorem recallComplete_notRecalling (h : (s.rank slot).state ≠ .recalling) : exec (.recallComplete slot) s = .next s := by
  change execRecallComplete slot s = _
  unfold execRecallComplete
  split
  · rfl
  · simp [h]

theorem recallComplete_noImage (h : ∀ g ∈ s.front.images, g.slot ≠ slot) : exec (.recallComplete slot) s = .next s := by
  have hnone : s.front.images.find? (fun g => g.slot == slot) = none := List.find?_eq_none.mpr (by simpa using h)
  change execRecallComplete slot s = _
  simp [execRecallComplete, hnone]

/-- The image as it is placed: read from LP6 under the present keys and versions, with the pages that an error met poisoned. -/
def State.recalledImage (s : State) (slot : Nat) (g : Image) : Image := (s.readImage (s.rank slot).ctx g).poison (g.lost s.tick)

theorem recallComplete_noFrames {g : Image} (h : (s.rank slot).state = .recalling) (hg : s.front.images.find? (fun g => g.slot == slot) = some g)
    (hp : s.placeImage (s.rank slot).ctx (s.recalledImage slot g) = none) : exec (.recallComplete slot) s = .next s := by
  change execRecallComplete slot s = _
  unfold State.recalledImage at hp
  simp [execRecallComplete, h, hg, hp]

/-- The state of a recall whose image has been placed: the slot shot down, the operation ended, the rank ACTIVE under its new root, its image gone. -/
def State.recalled (v : State) (slot : Nat) (r : Rank) (root : Nat) : State :=
  let t := ((v.shoot slot 0 0).tierEnd slot).putRank slot { r with state := .active, ptroot := root }
  { t with front := { t.front with images := t.front.images.filter (fun h => h.slot != slot) } }

/-- The containment events of the pages that an LP6 error met (R344). -/
def State.tellLost (t : State) (slot : Nat) (r : Rank) (bad : List Leaf) : State :=
  ((t.leaves slot).filter (fun l => bad.any (fun b => b.va == l.va))).foldl (fun (t : State) l =>
    t.cevent 2 0x08 r.ctx (unitWord (paDie l.pa) 4 (paDie l.pa)) l.pa r.vrank.toNat) t

theorem State.tellLost_offOuts (t : State) (slot : Nat) (r : Rank) (bad : List Leaf) : (t.tellLost slot r bad).offOuts = t.offOuts :=
  foldl_keeps State.offOuts _ _ _ fun _ _ => State.cevent_offOuts ..

theorem State.tellLost_nil (t : State) (slot : Nat) (r : Rank) : t.tellLost slot r [] = t := by
  simp [State.tellLost]

/-- The state in which a recall has ended: lost pages told, the rank's queues woken. -/
def State.recallEnded (s v : State) (slot : Nat) (root : Nat) (bad : List Leaf) : State :=
  (upto 0 8).foldl (fun (t : State) q => t.wake s (s.rank slot).ctx q) ((v.recalled slot (s.rank slot) root).tellLost slot (s.rank slot) bad)

theorem recallComplete_ends {g : Image} {root : Nat} {v : State} (h : (s.rank slot).state = .recalling)
    (hg : s.front.images.find? (fun g => g.slot == slot) = some g)
    (hp : s.placeImage (s.rank slot).ctx (s.recalledImage slot g) = some (root, v)) :
    exec (.recallComplete slot) s = .next (s.recallEnded v slot root (g.lost s.tick)) := by
  change execRecallComplete slot s = _
  unfold State.recalledImage at hp
  simp [execRecallComplete, h, hg, hp, State.recallEnded, State.recalled, State.tellLost]

/-- Past its contexts and what it has sent out, the module is as the recall itself leaves it. -/
theorem State.recallEnded_frame (s v : State) (slot root : Nat) (bad : List Leaf) :
    (s.recallEnded v slot root bad).offCtxs.offOuts = (v.recalled slot (s.rank slot) root).offCtxs.offOuts := by
  rw [State.recallEnded, State.foldl_wake_offCtxs, State.offCtxs_offOuts, State.tellLost_offOuts, ← State.offCtxs_offOuts]

theorem State.foldl_wipe_front {α : Type} (pa n : α → Nat) (l : List α) (t : State) : (l.foldl (fun t a => t.wipe (pa a) (n a)) t).front = t.front :=
  foldl_keeps State.front _ l t fun _ _ => rfl

/-- Placing an image leaves the rank table (R352). -/
theorem State.placeImage_ranks {c root : Nat} {g : Image} {v : State} (h : s.placeImage c g = some (root, v)) : v.front.ranks = s.front.ranks := by
  unfold State.placeImage at h
  dsimp only at h
  split at h
  · cases h
  · split at h
    · cases h
    · rw [Option.some.injEq, Prod.mk.injEq] at h
      obtain ⟨-, rfl⟩ := h
      rw [State.foldl_wipe_front, State.foldl_wipe_front]
      exact State.ranks_of_offCtxs (s.modCtx_offCtxs ..)

/-- A recall that meets no error sends nothing out. -/
theorem State.recallEnded_outs (s v : State) (slot root : Nat) : (s.recallEnded v slot root []).outs = v.outs := by
  rw [State.recallEnded, State.outs_of_offCtxs (State.foldl_wake_offCtxs ..), State.tellLost_nil]
  rfl

@[simp] theorem State.recalled_mem (v : State) (slot : Nat) (r : Rank) (root : Nat) : (v.recalled slot r root).mem = v.mem := rfl

theorem State.recalled_rank_same (v : State) (slot : Nat) (r : Rank) (root : Nat) :
    (v.recalled slot r root).rank slot = { r with state := .active, ptroot := root } := State.rank_putRank_same ..

theorem State.recalled_rank_other (v : State) {slot k : Nat} (r : Rank) (root : Nat) (h : k ≠ slot) : (v.recalled slot r root).rank k = v.rank k :=
  State.rank_putRank_other _ _ h

/-- The image of a recalled rank has left LP6. -/
theorem State.slot_ne_of_mem_recalled_images {v : State} {r : Rank} {root : Nat} {g : Image} (h : g ∈ (v.recalled slot r root).front.images) :
    g.slot ≠ slot := by
  simpa using (List.mem_filter.mp h).2

/-- No tier operation of a recalled slot is left. -/
theorem State.slot_ne_of_mem_recalled_tiers {v : State} {r : Rank} {root : Nat} {w : Tier} (h : w ∈ (v.recalled slot r root).front.tiers) :
    w.slot ≠ slot := by
  simpa using (List.mem_filter.mp h).2

/-- No core's TLB holds an entry of a recalled slot. -/
theorem State.slot_ne_of_mem_recalled_tlb {v : State} {r : Rank} {root k : Nat} {e : Tlb} (h : e ∈ ((v.recalled slot r root).coreOf k).tlb) :
    e.slot ≠ slot :=
  slot_ne_of_mem_shot ((State.coreOf_shoot_tlb v slot 0 0 k) ▸ (h : e ∈ ((v.shoot slot 0 0).coreOf k).tlb))

/-- Nor does a crew's. -/
theorem State.slot_ne_of_mem_recalled_crew {v : State} {r : Rank} {root k : Nat} {e : Tlb} (h : e ∈ ((v.recalled slot r root).crews.at k {}).tlb) :
    e.slot ≠ slot :=
  slot_ne_of_mem_shot ((State.crews_shoot_tlb v slot 0 0 k) ▸ (h : e ∈ ((v.shoot slot 0 0).crews.at k {}).tlb))

end

/-- Settles O56: each clause is the lemma about its step, with R15's conditions in the place of the model's test for them. -/
theorem tierMoves : Obligations.TierMoves := by
  unfold Obligations.TierMoves
  intro s c slot r t stays may cold busy full
  have hmay (k : Nat) : may k ↔ s.mayEvict k = true := (s.mayEvict_iff k).symm
  have hbusy : busy ↔ s.tierBusy = true := s.tierBusy_iff.symm
  simp only [hmay, hbusy, Bool.not_eq_true]
  refine ⟨fun ha => ⟨evictRank_refused ha, evictRank_waiting ha, evictRank_ordered ha, recallRank_ordered ha, recallRank_idle ha⟩,
    evictionStart_notDue, evictionStart_dropped, evictionStart_busy, evictionStart_noPlace, ?evictionBegins, evictionComplete_notEvicting, ?evictionEnds,
    recallStart_waits, ?recallBegins, ?recallMakesRoom, fun v => State.victim_oldest, ?recallWaits, ?recallEnds⟩
  case evictionBegins =>
    intro base hdue hm hw hb hplace
    exact ⟨_, evictionStart_begins hdue hm hw hb hplace, State.lp6Place_le hplace, s.evictionBegun_rank_same slot base,
      fun k => s.evictionBegun_rank_other base, s.evictionBegun_tiers slot base, s.evictionBegun_ctxs slot base, s.evictionBegun_streams slot base,
      s.evictionBegun_ops slot base⟩
  case evictionEnds =>
    intro v hev hv
    exact ⟨_, evictionComplete_ends hev hv, s.evicted_rank_same slot v, fun k => s.evicted_rank_other v, s.evicted_images slot v,
      fun _ => State.slot_ne_of_mem_evicted_tiers, s.evicted_mem slot v, s.evicted_streams slot v, fun hctx f => State.mem_pool_evicted v f hctx⟩
  case recallBegins =>
    intro hdue hcold hb hroom
    exact ⟨_, recallStart_begins hdue hcold hb (Nat.lt_of_not_le hroom), rfl⟩
  case recallMakesRoom =>
    intro hdue hcold hb hfull
    have hstep := recallStart_full hdue hcold hb hfull
    refine ⟨fun h => hstep.trans (congrArg Host.Outcome.next ?_),
      fun v hv hl => hstep.trans (congrArg Host.Outcome.next (State.makeRoom_lp6Full hv hl)),
      fun v hm hc hv hl => hstep.trans (congrArg Host.Outcome.next (State.makeRoom_evicts hm hc hv hl))⟩
    rcases h with hm | hc | hv
    · exact State.makeRoom_waits (.inl hm)
    · exact State.makeRoom_waits (.inr hc)
    · exact State.makeRoom_noVictim hv
  case recallWaits =>
    rintro (h | h)
    · exact recallComplete_notRecalling h
    · exact recallComplete_noImage h
  case recallEnds =>
    intro g hrec hg
    refine ⟨recallComplete_noFrames hrec hg, fun root v hp => ?_⟩
    obtain ⟨hranks, himages, htiers, hmem, hcores, hcrews⟩ := State.agree_of_offCtxs_offOuts (s.recallEnded_frame v slot root (g.lost s.tick))
    refine ⟨_, recallComplete_ends hrec hg hp, fun hbad => ?outs, (State.rank_congr hranks slot).trans (v.recalled_rank_same slot r root),
      fun k hk => ?others, hmem.trans (v.recalled_mem slot r root), fun h hh => State.slot_ne_of_mem_recalled_images (himages ▸ hh),
      fun w hw => State.slot_ne_of_mem_recalled_tiers (htiers ▸ hw), fun k e he => State.slot_ne_of_mem_recalled_tlb (hcores k ▸ he),
      fun k e he => State.slot_ne_of_mem_recalled_crew (hcrews ▸ he)⟩
    case outs => rw [hbad, State.recallEnded_outs]
    case others => rw [State.rank_congr hranks, State.recalled_rank_other _ _ _ hk, State.rank_congr (State.placeImage_ranks hp)]

end Sys2Proof.Machine
end

section
/-! The module right after reset (R36, R53, R326, R341, R372): what reads from empty tables and memories, and the statement `Obligations.ResetState`. -/

namespace Sys2Proof.Machine

/-! Reading the state after reset. -/

@[simp] theorem State.rank_reset (i : Nat) : State.reset.rank i = {} := rfl

@[simp] theorem State.stream_reset (k : Nat) : State.reset.stream k = none := rfl

/-- The record of a slot that nothing has written (R53): FREE, and eight zero words. -/
theorem Rank.words_default : ({} : Rank).words = [0, 0, 0, 0, 0, 0, 0, 0] := by decide

/-- A run of zero bytes is the number zero. -/
theorem leNat_replicate_zero (n : Nat) : leNat (List.replicate n 0) = 0 := by
  induction n with
  | zero => rfl
  | succ n ih => exact (congrArg (0 + 256 * ·) ih).trans rfl

/-- The table entries of a module that has written nothing are not valid (R59). -/
theorem State.pte_reset (c a : Nat) : State.reset.pte c a = (0, 0) := by
  have zeros (b : Nat) : (upto b 8).map (State.reset.tabByte c) = List.replicate 8 0 := rfl
  rw [State.pte, zeros, zeros, leNat_replicate_zero]
  rfl

/-- A walk stops at the first entry it reads (R60). -/
theorem State.walk_reset (slot va : Nat) (k : AKind) (e : Tlb × Nat) : State.reset.walk slot va k ≠ .ok e := by
  unfold State.walk State.walkFrom
  dsimp only
  split
  case isTrue => simp
  case isFalse => simp [State.pte_reset]

/-- The module right after reset is one without main power, and no input has come to it. -/
theorem State.unpowered_reset : State.reset.Unpowered State.reset :=
  ⟨Power.noConfusion, fun _ hi => absurd hi List.not_mem_nil, rfl, rfl, rfl, rfl, rfl, rfl, rfl, rfl, rfl, rfl, rfl, rfl, rfl, rfl⟩

/-- Settles O6: every table of the reset state is empty, so that each record reads as its default and each byte as zero. -/
theorem resetState : Obligations.ResetState :=
  ⟨⟨rfl, rfl, rfl, rfl⟩, fun _ => rfl, fun _ => rfl, fun _ => rfl, rfl, rfl, rfl, State.stream_reset, rfl, rfl, rfl, rfl,
    fun i => ⟨rfl, (congrArg Rank.words (State.rank_reset i)).trans Rank.words_default, rfl, fun _ => rfl⟩,
    fun _ => ⟨rfl, rfl, rfl, rfl, rfl, rfl, rfl, rfl, rfl, rfl⟩, fun k slot va e => State.walk_reset slot va k e,
    State.unpowered_reset⟩

end Sys2Proof.Machine
end

section
/-! One step of a core's turn (R39, R84, R89, R110-R112, R320, R322): the choice of the only enabled action, the turn of a core with one stream, the fetch
of a bundle of one slot and its issue, and the statement `Obligations.StepRunsDecoded`. -/

namespace Sys2Proof.Machine

/-! The only enabled action. -/

theorem State.pick_single (s : State) (a : Act) : s.pick [a] = some a := by
  unfold State.pick
  split
  case h_1 e he =>
    have hmem := List.find?_some he
    simp only [Bool.and_eq_true, List.contains_iff_mem, List.mem_singleton] at hmem
    rw [hmem.2]
  case h_2 => rfl

/-- Nothing else is passed over. -/
theorem State.passOver_single (s : State) (a : Act) : s.passOver [a] a = [] := by
  unfold State.passOver
  refine List.filter_eq_nil_iff.mpr fun e he => ?_
  rcases List.mem_append.mp he with hold | hnew
  · obtain ⟨o, ho, rfl⟩ := List.mem_map.mp hold
    have hin := (List.mem_filter.mp ho).2
    simpa using hin
  · obtain ⟨o, ho, heq⟩ := List.mem_filterMap.mp hnew
    have hin : o.2 = a := List.mem_singleton.mp (List.of_mem_zip (a := o.1) (b := o.2) ho).2
    split at heq
    · cases heq
    · cases heq; simp [hin]

/-- A step whose only enabled action is a core's turn takes that turn. -/
theorem step_of_acts_core {s : State} {n : Nat} (h : s.advance.acts = [.core n]) : step s = ({ s.advance with late := [] } : State).coreTurn n := by
  unfold step State.cycleStep
  dsimp only
  rw [h, State.pick_single]
  dsimp only
  rw [State.passOver_single]
  rfl

/-! A core with one stream. -/

theorem State.secondTurn_none {s : State} {n : Nat} (h : s.stream (2 * n + 1) = none) (d : Did) (pb : Option Bundle) (alone : Bool) :
    s.secondTurn n d pb alone = .next s := by
  rw [Nat.mul_comm] at h
  simp [State.secondTurn, h]

section
variable {f : State} {n : Nat} (hlive : f.curLive = true) (hkey : f.curKey = 2 * n)
include hlive hkey

/-- The turn of a core whose one stream, in focus, is neither held for the secondary nor in a hold is that stream's turn (R115, R288). -/
theorem State.coreTurn_primary (hsec : f.stream (2 * n + 1) = none) (hstarved : f.cur.starved = false) (hhold : f.cur.hold = none)
    {t : State} {d : Did} (ht : f.streamTurn (2 * n) = .next (t, d)) : f.coreTurn n = t.secondTurn n d none false := by
  have hprim : f.stream (2 * n) = some f.cur := hkey ▸ f.stream_cur hlive
  rw [Nat.mul_comm] at hsec hprim ht
  have hstarve : execStarvationHold n f = .next f := by simp [execStarvationHold, hsec]
  simp [State.coreTurn, State.bothTurns, State.holds, hstarve, hsec, hprim, hstarved, hhold, ht]

/-- A stream in focus that nothing asks for and that has no bundle fetches one (R322). -/
theorem State.streamTurn_fetches (hready : f.cur.ready = true) (hhalt : f.cur.haltReq = false) (hasync : f.cur.async = []) (hpre : f.cur.pre = 0)
    (hbundle : f.cur.bundle = none) (hdbg : f.dbgMatch (2 * n) f.cur = false) {t : State} {b : Bundle}
    (ht : execBundleFetch (2 * n) { f with cur := { f.cur with mark := .none } } = .next t) (hb : t.cur.bundle = some b) :
    f.streamTurn (2 * n) = t.issueBundle b := by
  have hfocus : f.focus (2 * n) = f := hkey ▸ f.focus_cur hlive
  have hnotHalted : f.cur.haltedStop = false := by simp [Stream.haltedStop, hpre]
  have hnoStop : f.preempts (2 * n) = none := by simp [State.preempts, State.mayStop, hpre]
  have hnoTrap : f.takesAsync = false := by simp [State.takesAsync, hasync]
  unfold State.streamTurn
  dsimp only at ht ⊢
  rw [hfocus, if_neg (by simp [hnotHalted]), if_neg (by simp [hlive, hready]), if_neg (by simp [hhalt]), if_neg (by simp [hdbg]),
    if_neg (by simp [hnoTrap]), hnoStop, ht, hbundle]
  dsimp only
  rw [hb]

end

/-! A bundle of one slot. -/

/-- A header for one slot and a word that decodes there are a bundle (R75-R78, R84). -/
theorem State.fetchBundle_single {m u v : State} {h w : Word32} {sl : Slot} {i : Instr} (hh : m.fetchWords m.cur.pc.toNat 1 = .ok ([h], u))
    (hheader : isHeader h = true) (hfault : headerFault h = none) (hslot : present h = [sl])
    (hw : u.fetchWords (m.cur.pc.toNat + 4) 1 = .ok ([w], v)) (hword : isHeader w = false) (hstop : w.getLsbD 31 = true)
    (hdec : decodeSlot sl.kind w = .ok i) (htiles : i.tilesOk v.cur.tiles4 = true) (hlines : i.lines ≤ allot h sl) :
    m.fetchBundle = .ok ({ addr := m.cur.pc, header := h, slots := [(sl, i)], succ := m.cur.pc + 8 }, v) := by
  have hcheck : checkSlots v.cur m.cur.pc h 1 0 false [(sl, w)] = .ok [(sl, i)] := by
    simp [checkSlots, checkSlot, hword, hdec, htiles, Nat.not_lt.mpr hlines, hstop, -BitVec.getLsbD_eq_getElem]
  unfold State.fetchBundle
  simp [hh, hheader, hfault, hslot, hw, hcheck]

/-- Fetching a bundle that stands sound in code, where no breakpoint halts the stream (R84). -/
theorem execBundleFetch_ready {m v : State} {key : Nat} {b : Bundle} (hlive : m.curLive = true) (hkey : m.curKey = key)
    (hdbg : m.dbgMatch key m.cur = false) (hfetch : m.fetchBundle = .ok (b, v)) :
    execBundleFetch key m = .next { v with cur := { v.cur with bundle := some b, npc := b.succ, mark := .none } } := by
  subst hkey
  simp [execBundleFetch, State.focus_cur m hlive, hlive, hdbg, hfetch]

/-- The slots of a bundle that has one are run by running it (R112). -/
theorem runSlots_single {b : Bundle} {sl : Slot} {i : Instr} (h : b.slots = [(sl, i)]) (r : Slots) :
    runSlots b slotOrder r = runSlots b [sl] r := by
  cases sl <;> simp [slotOrder, runSlots, h]

section
variable {g0 : State} {b : Bundle} {sl : Slot} {i : Instr}

/-- The state in which the one slot of a bundle that issues runs: with the view of the bundle, after the EVTESTs before an access (R39, R112). -/
def State.slotState (g : State) (sl : Slot) (i : Instr) : State :=
  let e : State := { g with view := some g.viewNow }
  { (if accesses sl i then e.serveTakes (fun _ => true) else e) with slotRank := sl.rank }

variable (hslots : b.slots = [(sl, i)]) (hfree : g0.blocked b false = none) (hguard : g0.cur.guardOn b = true)
  (hhold : (g0.preJoin b true).cur.hold = none) (hgo : (g0.preJoin b true).blocked b true = none)
include hslots hfree hguard hhold hgo

/-- A slot that takes effect: the bundle issues, and its boundary follows (R108). -/
theorem State.issueBundle_effect {t : State} (ht : exec i ((g0.preJoin b true).slotState sl i) = .next t) (hmark : t.cur.mark = .none) :
    g0.issueBundle b = .next (t.endBundle, .issued) := by
  have hrun : runSlots b [sl] { s := { g0.preJoin b true with view := some (g0.preJoin b true).viewNow } } = .next { s := t } := by
    simp only [State.slotState] at ht
    simp [runSlots, hslots, ht, hmark]
  simp [State.issueBundle, hfree, hguard, hhold, hgo, runSlots_single hslots, hrun, firstTrap, maskOrder]

/-- A slot that traps leaves its trap alone (R110, R320). -/
theorem State.issueBundle_trap {t : State} {x : TrapRec} (ht : exec i ((g0.preJoin b true).slotState sl i) = .next t) (hmark : t.cur.mark = .trapped x) :
    g0.issueBundle b = .next ((g0.preJoin b true).enterTrap x b.addr, .faulted) := by
  have hrun : runSlots b [sl] { s := { g0.preJoin b true with view := some (g0.preJoin b true).viewNow } } =
      .next { s := { g0.preJoin b true with view := some (g0.preJoin b true).viewNow }, traps := [(sl, x)] } := by
    simp only [State.slotState] at ht
    simp [runSlots, hslots, ht, hmark]
  have hfirst : firstTrap [(sl, x)] = some x := by cases sl <;> rfl
  simp [State.issueBundle, hfree, hguard, hhold, hgo, runSlots_single hslots, hrun, hfirst]

/-- A slot that stalls leaves its stall alone (R111, R278). -/
theorem State.issueBundle_stall {t z : State} {l : Bool} {x : Option TrapRec} {k : Keep} (ht : exec i ((g0.preJoin b true).slotState sl i) = .next t)
    (hmark : t.cur.mark = .stalled l x k) (hz : (g0.preJoin b true).stallBundle l x [k] = .next z) :
    g0.issueBundle b = .next (z, .stalled) := by
  have hrun : runSlots b [sl] { s := { g0.preJoin b true with view := some (g0.preJoin b true).viewNow } } =
      .next { s := { g0.preJoin b true with view := some (g0.preJoin b true).viewNow }, stalls := [(l, x, k)] } := by
    simp only [State.slotState] at ht
    simp [runSlots, hslots, ht, hmark]
  have hwait : [(l, x, k)].findSome? (fun e => e.2.1) = x := by cases x <;> rfl
  simp [State.issueBundle, hfree, hguard, hhold, hgo, runSlots_single hslots, hrun, hwait, hz]

end

/-- Settles O4: the step is the turn of the one stream, whose fetched bundle issues its slot. -/
theorem stepRunsDecoded : Obligations.StepRunsDecoded := by
  unfold Obligations.StepRunsDecoded
  intro s u v n sl h w i f m pc hacts hlive hkey hsec hready hhalt hhold hstarved hasync hpre hbundle hdbg hh hheader hfault hslot hw hword hstop hdec
    htiles hlines b g0 g e0 e rest hhold' hfree hguard hgo
  have hfetch : execBundleFetch (2 * n) m = .next g0 :=
    execBundleFetch_ready (m := m) hlive hkey hdbg (State.fetchBundle_single hh hheader hfault hslot hw hword hstop hdec htiles hlines)
  have hturn : f.streamTurn (2 * n) = g0.issueBundle b := State.streamTurn_fetches hlive hkey hready hhalt hasync hpre hbundle hdbg hfetch rfl
  have hstep {t : State} {d : Did} (ht : g0.issueBundle b = .next (t, d)) : step s = rest d t :=
    (step_of_acts_core hacts).trans (State.coreTurn_primary hlive hkey hsec hstarved hhold (hturn.trans ht))
  refine ⟨fun t ht hm => hstep ?effect, fun t x ht hm => hstep ?trap, fun t l x k z ht hm hz => hstep ?stall, fun d t hsec => ?alone⟩
  case effect => exact State.issueBundle_effect rfl hfree hguard hhold' hgo ht hm
  case trap => exact State.issueBundle_trap rfl hfree hguard hhold' hgo ht hm
  case stall => exact State.issueBundle_stall rfl hfree hguard hhold' hgo ht hm hz
  case alone => exact State.secondTurn_none hsec d none false

end Sys2Proof.Machine
end

section
/-! The event vector and QLAUNCH (R37, R39, R46, R288): serving EVTESTs, releases with nothing on its way, the message that QLAUNCH enqueues, and the
statement `Obligations.EventsAndLaunches`. -/

namespace Sys2Proof.Machine

/-! Bit fields. -/

/-- A field that ends at bit 0 is a remainder. -/
theorem fld_low (w : Word64) (hi : Nat) : fld w hi 0 = w.toNat % 2 ^ (hi + 1) := by
  simp [fld]

/-- The bits above 2:0 are the quotient. -/
theorem fld_above (w : Word64) : fld w 63 3 = w.toNat / 8 := by
  have hw := w.isLt
  rw [fld, Nat.shiftRight_eq_div_pow]
  omega

/-! Contexts. -/

/-- Clearing bits of the event vector leaves them clear, also where there is no context. -/
theorem State.ctxAt_modCtx_clear (s : State) (c : Nat) (m : BitVec 256) :
    (s.modCtx c (fun x => { x with ev := x.ev &&& ~~~m })).ctxAt c = { s.ctxAt c with ev := (s.ctxAt c).ev &&& ~~~m } := by
  cases h : s.front.ctxs.has c with
  | true => exact State.ctxAt_modCtx_same s c _ h
  | false =>
    have hnone : s.front.ctxs.find c = none := by simpa [Tbl.has] using h
    have hdef : s.ctxAt c = {} := by simp [State.ctxAt, Tbl.at, hnone]
    have hsame : s.modCtx c (fun x => { x with ev := x.ev &&& ~~~m }) = s := by simp [State.modCtx, hnone]
    rw [hsame, hdef]
    simp

/-- A change of a context leaves the focused stream and its core. -/
theorem State.modCtx_cur (s : State) (c : Nat) (g : Ctx → Ctx) : (s.modCtx c g).cur = s.cur := by
  have h := s.modCtx_offCtxs c g
  exact (congrArg State.cur h :)

/-! Serving EVTESTs (R39). -/

section
variable {s : State} {e : Land} {w : Land → Bool} {as bs : List Land}

/-- Of a landing buffer in which `w` names one EVTEST, that one is served. -/
theorem filter_tests_single (hland : s.cur.land = as ++ e :: bs) (htests : e.tgt.tests = true) (hw : w e = true)
    (hother : ∀ f ∈ as ++ bs, f ≠ e ∧ (w f = false ∨ f.tgt.tests = false)) : s.cur.land.filter (fun f => w f && f.tgt.tests) = [e] := by
  have hnil (l : List Land) (hl : ∀ f ∈ l, f ∈ as ++ bs) : l.filter (fun f => w f && f.tgt.tests) = [] :=
    List.filter_eq_nil_iff.mpr fun f hf => by rcases (hother f (hl f hf)).2 with h | h <;> simp [h]
  rw [hland, List.filter_append, List.filter_cons, hnil as (fun f => List.mem_append_left bs), hnil bs (fun f => List.mem_append_right as)]
  simp [htests, hw]

/-- An update of one entry of the landing buffer leaves the others. -/
theorem map_land_single {t : Tgt} (hother : ∀ f ∈ as ++ bs, f ≠ e) :
    (as ++ e :: bs).map (fun f => if f == e then { f with tgt := t } else f) = as ++ { e with tgt := t } :: bs := by
  have hkeep (l : List Land) (hl : ∀ f ∈ l, f ∈ as ++ bs) : l.map (fun f => if f == e then { f with tgt := t } else f) = l :=
    (List.map_congr_left fun f hf => if_neg (by simpa using hother f (hl f hf))).trans (List.map_id' l)
  rw [List.map_append, List.map_cons, hkeep as (fun f => List.mem_append_left bs), hkeep bs (fun f => List.mem_append_right as)]
  simp

/-- EVTEST.TAKE served alone: its value is the bit's, and that bit is cleared. -/
theorem State.serveTakes_take {d : Dst} {c i : Nat} (hland : s.cur.land = as ++ e :: bs) (htgt : e.tgt = .evTake d c i) (hw : w e = true)
    (hother : ∀ f ∈ as ++ bs, f ≠ e ∧ (w f = false ∨ f.tgt.tests = false)) :
    let t := s.modCtx c (fun x => { x with ev := x.ev &&& ~~~(BitVec.ofNat 256 (2 ^ i)) })
    s.serveTakes w = { t with cur := { t.cur with land := as ++ { e with tgt := s.served e.tgt } :: bs } } := by
  intro t
  rw [State.serveTakes, filter_tests_single hland (by rw [htgt]; rfl) hw hother]
  have htakes : e.tgt.takes = some (c, i) := by rw [htgt]; rfl
  have hbuf : t.cur.land = as ++ e :: bs := (congrArg Stream.land (s.modCtx_cur ..)).trans hland
  simp only [List.foldl_cons, List.foldl_nil, htakes]
  rw [hbuf, map_land_single fun f hf => (hother f hf).1]

end

/-- The boundary before which one scalar result lands alone (R108). -/
theorem State.landAt_scalar {s : State} {pos r : Nat} {e : Land} {v : Word64} (hland : s.cur.land = [e]) (hdue : e.due = pos) (htgt : e.tgt = .s r v)
    (hr : r ≠ 0) : (s.landAt pos).front = s.front ∧ (s.landAt pos).cur.land = [] ∧ (s.landAt pos).cur.s = s.cur.s.set r v := by
  have hserve : s.serveTakes (fun e => e.due == pos) = s := by simp [State.serveTakes, hland, htgt, Tgt.tests]
  unfold State.landAt
  rw [hserve]
  simp [hland, hdue, htgt, sortLand, insertLand, applyAll, Stream.apply, Stream.writeS, hr, srdAll]

/-- An EVTEST.TAKE alone on its way lands: the bit is cleared and its value stands in the register (R39, R108). -/
theorem State.boundary_take {s : State} {e : Land} {r : SReg} {c i : Nat} (hland : s.cur.land = [e]) (hdue : e.due = s.cur.pos + 1)
    (htgt : e.tgt = .evTake (.reg r) c i) (hr : r ≠ 0) :
    s.boundary.ctxAt c = { s.ctxAt c with ev := (s.ctxAt c).ev &&& ~~~(BitVec.ofNat 256 (2 ^ i)) } ∧ s.boundary.cur.land = [] ∧
      s.boundary.cur.s = s.cur.s.set r.toNat (if (s.ctxAt c).ev.getLsbD i then 1 else 0) := by
  let u : State := { s with cur := { s.cur with pos := s.cur.pos + 1 } }
  let off : Ctx → Ctx := fun x => { x with ev := x.ev &&& ~~~(BitVec.ofNat 256 (2 ^ i)) }
  let f : Land := { e with tgt := u.served e.tgt }
  let t : State := { u.modCtx c off with cur := { u.cur with land := [f] } }
  have hserve : u.serveTakes (fun e => e.due == s.cur.pos + 1) = t := by
    have h := State.serveTakes_take (s := u) (w := fun e => e.due == s.cur.pos + 1) (as := []) (bs := []) hland htgt (by simp [hdue]) (by simp)
    rw [h, State.modCtx_cur]
    rfl
  have hf : f.tgt = .s r.toNat (if (s.ctxAt c).ev.getLsbD i then 1 else 0) := by
    change u.served e.tgt = _
    rw [htgt]
    rfl
  have hr0 : r.toNat ≠ 0 := fun h => hr (BitVec.eq_of_toNat_eq h)
  -- serving again serves nothing, so the boundary is that of the state after the TAKE
  have hagain : u.landAt (s.cur.pos + 1) = t.landAt (s.cur.pos + 1) := by
    have hidem : t.serveTakes (fun e => e.due == s.cur.pos + 1) = t := by
      have hbuf : t.cur.land = [f] := rfl
      simp [State.serveTakes, hbuf, hf, Tgt.tests]
    rw [State.landAt, State.landAt, hserve, hidem]
  have hbound : s.boundary = t.landAt (s.cur.pos + 1) := hagain
  obtain ⟨hfront, hempty, hreg⟩ := State.landAt_scalar (s := t) (pos := s.cur.pos + 1) rfl (show f.due = _ from hdue) hf hr0
  rw [hbound]
  refine ⟨?_, hempty, hreg⟩
  have hctx : (t.landAt (s.cur.pos + 1)).ctxAt c = t.ctxAt c := by rw [State.ctxAt, hfront, State.ctxAt]
  exact hctx.trans (u.ctxAt_modCtx_clear c _)

/-! Releases with nothing on its way (R261, R262). -/

theorem State.resolveAll_read {s : State} (h : ∀ q ∈ s.cur.pend, q.rd = none) : s.resolveAll = s := by
  have hnone : s.cur.pend.filter (fun p => p.rd.isSome) = [] := List.filter_eq_nil_iff.mpr fun q hq => by simp [h q hq]
  rw [State.resolveAll, hnone]
  rfl

theorem State.settle_empty {s : State} (h : s.mem.rq = []) (d : Nat) (clk : List Nat) : s.settle d clk = s := by
  rw [State.settle, h]
  rfl

/-- Where no write is on its way, a release orders none. -/
theorem State.relSet_empty {s : State} (hwq : s.mem.wq = []) (hrq : s.mem.rq = []) (key : Nat) (before : Option Nat) : s.relSet key before = [] := by
  have hclosed (i : Nat) : s.mem.isOpen i = false := by simp [MemSys.isOpen, hwq, hrq]
  have hown : s.ownOpen key before = [] := by simp [State.ownOpen, hwq, hrq]
  have hobs (x : Stream) : x.obs.filter s.mem.isOpen = [] := List.filter_eq_nil_iff.mpr fun i _ => by simp [hclosed i]
  rw [State.relSet, hown]
  cases s.stream key <;> simp [hobs]

/-- A release at a level up to 3 with no access, write or request on its way leaves the state as it is. -/
theorem State.relAll_idle {s : State} {key level : Nat} (hlevel : level < 4) (hwq : s.mem.wq = []) (hrq : s.mem.rq = []) (hreqs : s.treqs = [])
    (hpend : ∀ q ∈ s.cur.pend, q.rd = none) : s.relAll key level = s := by
  have hmem : s.relMem key level = s := by
    simp [State.relMem, State.resolveAll_read hpend, State.relSet_empty hwq hrq, State.performAll, hrq, State.arriveAll, hreqs, State.sealOps, hlevel]
  rw [State.relAll, hmem]
  refine List.foldl_fixed' (fun d => ?_) _
  split
  · exact State.settle_empty hrq ..
  · rfl

/-! QLAUNCH (R46). -/

/-- The words of the launch that QLAUNCH enqueues: the program's, but for word 5 and the upper half of word 6. -/
theorem wordAt_qlaunchWords (w : List Word64) (vrank job step i : Nat) (hi : i < 24) :
    wordAt (qlaunchWords w vrank job step) i =
      if i = 5 then BitVec.ofNat 64 (job * 2 ^ 32 + vrank * 2 ^ 16 + vrank)
      else if i = 6 then BitVec.ofNat 64 (step * 2 ^ 32 + (wordAt w 6).toNat % 2 ^ 32) else wordAt w i := by
  have hupto : upto 0 24 = List.range 24 := by decide
  simp [wordAt, qlaunchWords, hupto, List.getD_eq_getElem?_getD, hi, fld]

theorem length_qlaunchWords (w : List Word64) (vrank job step : Nat) : (qlaunchWords w vrank job step).length = 24 := by
  have hupto : (upto 0 24).length = 24 := by decide
  rw [qlaunchWords, List.length_map, hupto]

section
variable {s : State} {d a : SReg} {b : SOp}

/-- A misaligned message address faults (R46). -/
theorem qlaunch_misaligned (h : (s.cur.readS a).toNat % 64 ≠ 0) : s.Traps (.qlaunch d a b) { cause := 0x04, addr := s.cur.readS a } := by
  change execQlaunch d a b s = _
  rw [execQlaunch]
  dsimp only
  rw [if_pos h, finish_trap]
  rfl

/-- A message that does not lie in held granules faults (R46). -/
theorem qlaunch_notHeld {t : TrapRec} (h : (s.cur.readS a).toNat % 64 = 0)
    (hps : s.cur.winPieces (s.curKey / 2) (s.cur.readS a).toNat 192 .load = .error t) : s.Traps (.qlaunch d a b) t := by
  change execQlaunch d a b s = _
  rw [execQlaunch]
  dsimp only
  rw [if_neg (not_not.mpr h), hps, orTrap_error, finish_trap]

/-- A sound message in held granules, whose banks no other stream holds (R46, R288). -/
theorem qlaunch_read {ps : List Piece} (h : (s.cur.readS a).toNat % 64 = 0)
    (hps : s.cur.winPieces (s.curKey / 2) (s.cur.readS a).toNat 192 .load = .ok ps) (hsound : ps.any (fun p => p.bad s.mem) = false)
    (hfree : s.bankHeld s.curKey (winKeys ps) = false) :
    exec (.qlaunch d a b) s = .next (
      if (s.cur.readOp b).toNat / 8 ≠ 0 then s.out 8 (.s d.toNat 0x1100000000000000)
      else if 64 ≤ ((s.ctxAt s.cur.ctx).queues.at ((s.cur.readOp b).toNat % 8) []).length then s.out 8 (.s d.toNat 0x1000000000000000)
      else ((s.relAll s.curKey 3).enqueueLaunch s.cur.ctx ((s.cur.readOp b).toNat % 8)
        (qlaunchWords (words64 (winBytes s.vspad ps)) s.cur.vrank.toNat (s.rank s.cur.slot).job.toNat s.cur.step.toNat) true).out 8
          (.s d.toNat (BitVec.ofNat 64 ((s.cur.readOp b).toNat % 8 * 128 + (s.ctxAt s.cur.ctx).serials.at ((s.cur.readOp b).toNat % 8) 0)))) := by
  change execQlaunch d a b s = _
  rw [execQlaunch]
  dsimp only
  have hq : fld (s.cur.readOp b) 2 0 = (s.cur.readOp b).toNat % 8 := fld_low ..
  rw [if_neg (not_not.mpr h), hps, orTrap_ok, hsound, hfree, fld_above, hq]
  simp only [Bool.false_eq_true, if_false, Ctx.full, decide_eq_true_eq]
  split_ifs <;> rfl

end

/-- Settles O19, form by form. -/
theorem eventsAndLaunches : Obligations.EventsAndLaunches := by
  unfold Obligations.EventsAndLaunches
  constructor
  case left =>
    intro s r p a i v one off on b
    have hi : fld (s.cur.readOp a) 7 0 = i := fld_low ..
    have hbit : s.evBit a = one := congrArg (fun n => BitVec.ofNat 256 (2 ^ n)) hi
    refine ⟨congrArg (fun n => Host.Outcome.next (s.out 8 (.ev (.reg r) s.cur.ctx n))) hi,
      congrArg (fun n => Host.Outcome.next (s.out 8 (.ev (.pred p) s.cur.ctx n))) hi, rfl, rfl,
      congrArg (fun n => Host.Outcome.next (s.out 8 (.evTake (.reg r) s.cur.ctx n))) hi,
      congrArg (fun n => Host.Outcome.next (s.out 8 (.evTake (.pred p) s.cur.ctx n))) hi, ?take, ?lands,
      congrArg (fun m => Host.Outcome.next ((s.relAll s.curKey 3).evUpdate s.cur.ctx (fun v => v ||| m))) hbit,
      congrArg (fun m => Host.Outcome.next ((s.relAll s.curKey 3).evUpdate s.cur.ctx (fun v => v &&& ~~~m))) hbit, ?idle⟩
    case take =>
      intro e w as bs hland htgt hw hother
      have h := State.serveTakes_take hland htgt hw hother
      rwa [htgt] at h
    case lands => exact fun e hland hdue htgt _ hr => State.boundary_take hland hdue htgt hr
    case idle => exact State.relAll_idle (by decide)
  case right =>
    intro s d a b ps va q big w d5 d6
    refine ⟨qlaunch_misaligned, fun h t => qlaunch_notHeld h, fun h hps hsound hfree => ?_⟩
    have hexec := qlaunch_read (d := d) (b := b) h hps hsound hfree
    refine ⟨fun hbig => hexec.trans (congrArg Host.Outcome.next (if_pos hbig)), fun hbig hfull => ?_, fun hbig hroom => ?_⟩
    · exact hexec.trans (congrArg Host.Outcome.next ((if_neg hbig).trans (if_pos hfull)))
    · have hwords (i : Nat) (hi : i < 24) := wordAt_qlaunchWords w s.cur.vrank.toNat (s.rank s.cur.slot).job.toNat s.cur.step.toNat i hi
      exact ⟨qlaunchWords w s.cur.vrank.toNat (s.rank s.cur.slot).job.toNat s.cur.step.toNat, length_qlaunchWords .., hwords 5 (by decide),
        hwords 6 (by decide), fun i hi h5 h6 => (hwords i hi).trans ((if_neg h5).trans (if_neg h6)),
        hexec.trans (congrArg Host.Outcome.next ((if_neg hbig).trans (if_neg (Nat.not_le.mpr hroom))))⟩

end Sys2Proof.Machine
end

section
/-! Granules, heats, slices and steps (R42, R49, R115, R241, R273, R347, R350): the rules of the tables and records these agents write, what each of their
steps does, and the statement `Obligations.HeatsSlicesSteps`. -/

namespace Sys2Proof.Machine

/-! Lists and tables. -/

theorem upto_eq_range' (lo n : Nat) : upto lo n = List.range' lo n := by
  induction n generalizing lo with
  | zero => rfl
  | succ n ih => rw [upto, ih, List.range'_succ]

@[simp] theorem mem_upto {lo n i : Nat} : i ∈ upto lo n ↔ lo ≤ i ∧ i < lo + n := by
  rw [upto_eq_range', List.mem_range'_1]

/-- A fold whose every step leaves the state leaves it. -/
theorem foldl_fixed_of_mem {α β : Type} {f : α → β → α} {a : α} {l : List β} (h : ∀ b ∈ l, f a b = a) : l.foldl f a = a := by
  induction l with
  | nil => rfl
  | cons b l ih => rw [List.foldl_cons, h b List.mem_cons_self, ih fun c hc => h c (List.mem_cons_of_mem b hc)]

/-- The first operation with an identity. -/
theorem find_op {ops pre post : List Op} {o : Op} (hops : ops = pre ++ o :: post) (hnew : ∀ p ∈ pre, p.id ≠ o.id) :
    ops.find? (fun p => p.id == o.id) = some o :=
  List.find?_eq_some_iff_append.mpr ⟨beq_self_eq_true _, pre, post, hops, fun p hp => by simpa using hnew p hp⟩

/-- The operations before it. -/
theorem takeWhile_op {ops pre post : List Op} {o : Op} (hops : ops = pre ++ o :: post) (hnew : ∀ p ∈ pre, p.id ≠ o.id) :
    ops.takeWhile (fun p => p.id != o.id) = pre := by
  rw [hops, List.takeWhile_append_of_pos fun p hp => by simpa using hnew p hp]
  simp

/-- Where a search of a table finds a key, it finds what a write puts there, if the test admits that. -/
theorem Tbl.find?_put {α : Type} {t : Tbl α} {p : Nat × α → Bool} {k : Nat} {x y : α} (h : List.find? p t = some (k, x)) (hy : p (k, y) = true) :
    List.find? p (t.put k y) = some (k, y) := by
  induction t with
  | nil => cases h
  | cons e r ih =>
    obtain ⟨k', v⟩ := e
    rw [Tbl.put]
    split_ifs with hlt heq
    · rw [List.find?_cons_of_pos hy]
    · rw [List.find?_cons_of_pos hy]
    · cases hv : p (k', v) with
      | true =>
        rw [List.find?_cons_of_pos hv] at h
        cases h
        exact absurd rfl heq
      | false =>
        rw [List.find?_cons_of_neg (by simp [hv])] at h ⊢
        exact ih h

/-! Streams. -/

theorem State.stream_putStream_same (s : State) (k : Nat) (x : Stream) : (s.putStream k x).stream k = some x := by
  cases h : s.curLive && k == s.curKey <;> simp [State.putStream, State.stream, h, Tbl.find_put_same]

/-- A write to a stream reaches nothing but the streams. -/
def State.offStreams (s : State) : State := { s with streams := [], cur := {} }

theorem State.putStream_offStreams (s : State) (k : Nat) (x : Stream) : (s.putStream k x).offStreams = s.offStreams := by
  unfold State.putStream
  split <;> rfl

theorem State.front_putStream (s : State) (k : Nat) (x : Stream) : (s.putStream k x).front = s.front :=
  (congrArg State.front (s.putStream_offStreams k x) :)

theorem State.mem_putStream (s : State) (k : Nat) (x : Stream) : (s.putStream k x).mem = s.mem :=
  (congrArg State.mem (s.putStream_offStreams k x) :)

theorem State.ops_putStream (s : State) (k : Nat) (x : Stream) : (s.putStream k x).ops = s.ops :=
  (congrArg State.ops (s.putStream_offStreams k x) :)

theorem State.cycle_putStream (s : State) (k : Nat) (x : Stream) : (s.putStream k x).cycle = s.cycle :=
  (congrArg State.cycle (s.putStream_offStreams k x) :)

theorem State.ctxAt_putStream (s : State) (k c : Nat) (x : Stream) : (s.putStream k x).ctxAt c = s.ctxAt c := by
  rw [State.ctxAt, State.front_putStream, State.ctxAt]

/-! Ranks changed one after another. -/

/-- A state but for its ranks. -/
def State.offRanks (s : State) : State := { s with front := { s.front with ranks := [] } }

/-- The ranks of some slots, each as `g` makes it of the cycle and of what it was. -/
def State.mapRanks (s : State) (g : Word64 → Rank → Rank) (slots : List Nat) : State :=
  slots.foldl (fun (s : State) i => s.putRank i (g s.cycle (s.rank i))) s

theorem State.mapRanks_offRanks (s : State) (g : Word64 → Rank → Rank) (slots : List Nat) : (s.mapRanks g slots).offRanks = s.offRanks :=
  foldl_keeps State.offRanks _ _ _ fun _ _ => rfl

theorem State.cycle_of_offRanks {s t : State} (h : t.offRanks = s.offRanks) : t.cycle = s.cycle := (congrArg State.cycle h :)

theorem State.jobs_of_offRanks {s t : State} (h : t.offRanks = s.offRanks) : t.front.jobs = s.front.jobs :=
  (congrArg (fun u : State => u.front.jobs) h :)

theorem State.ctxs_of_offRanks {s t : State} (h : t.offRanks = s.offRanks) : t.front.ctxs = s.front.ctxs :=
  (congrArg (fun u : State => u.front.ctxs) h :)

/-- A slot named once or more often has what one change makes of it, if a second one changes nothing. -/
theorem State.rank_mapRanks (s : State) {g : Word64 → Rank → Rank} (hg : ∀ c r, g c (g c r) = g c r) (slots : List Nat) (k : Nat) :
    (s.mapRanks g slots).rank k = if k ∈ slots then g s.cycle (s.rank k) else s.rank k := by
  induction slots using List.reverseRecOn with
  | nil => rfl
  | append_singleton l i ih =>
    have hcycle : (s.mapRanks g l).cycle = s.cycle := State.cycle_of_offRanks (s.mapRanks_offRanks g l)
    have hstep : s.mapRanks g (l ++ [i]) = (s.mapRanks g l).putRank i (g s.cycle ((s.mapRanks g l).rank i)) := by
      rw [← hcycle]
      exact List.foldl_append
    rw [hstep]
    by_cases hk : k = i
    · subst hk
      rw [State.rank_putRank_same, ih, if_pos (List.mem_append_right l (List.mem_singleton_self k))]
      split_ifs
      · exact hg ..
      · rfl
    · rw [State.rank_putRank_other _ _ hk, ih]
      simp [hk]

/-! Granules (R42, R241). -/

section
variable {s : State} {o : Op} {pre post : List Op} {cc g w : Nat} {t : TaskRef} (hops : s.ops = pre ++ o :: post) (hnew : ∀ p ∈ pre, p.id ≠ o.id)
  (hkind : o.kind = .gran cc g w t)
include hops hnew hkind

theorem granuleDelivery_dropped (hdrop : s.refDrop t = true) :
    exec (.granuleDelivery o.id) s = .next (((s.dropOp o.id).dropPair o).lost t.ctx) := by
  change execGranuleDelivery o.id s = _
  rw [execGranuleDelivery, find_op hops hnew]
  dsimp only
  rw [hkind]
  exact congrArg Host.Outcome.next (if_pos hdrop)

theorem granuleDelivery_noTask (hdrop : s.refDrop t = false) (hfind : s.allStreams.find? (fun e => s.isTask e.2 t) = none) :
    exec (.granuleDelivery o.id) s = .next s := by
  change execGranuleDelivery o.id s = _
  rw [execGranuleDelivery, find_op hops hnew]
  dsimp only
  rw [hkind]
  simp [hdrop, hfind]

/-- The next granule for a running task, no earlier one on its way to it, goes into the task's lowest free received slot. -/
theorem granuleDelivery_given {k i : Nat} {x : Stream} (hdrop : s.refDrop t = false)
    (hfind : s.allStreams.find? (fun e => s.isTask e.2 t) = some (k, x)) (hx : s.stream k = some x) (hslot : x.recvSlot = some i)
    (hfirst : ∀ p ∈ pre, ∀ a b d, p.kind ≠ .gran a b d t) :
    exec (.granuleDelivery o.id) s =
      .next ((s.putStream k { x with recv := x.recv.put i { core := cc, gran := g, giver := w } }).dropOp o.id) := by
  have hgive : s.giveGran k o cc g w = (s.putStream k { x with recv := x.recv.put i { core := cc, gran := g, giver := w } }).dropOp o.id := by
    simp only [State.giveGran, hx, hslot]
  change execGranuleDelivery o.id s = _
  rw [execGranuleDelivery, find_op hops hnew]
  dsimp only
  rw [hkind]
  dsimp only
  rw [hdrop, takeWhile_op hops hnew, hfind, ← hgive]
  refine congrArg Host.Outcome.next ((if_neg Bool.false_ne_true).trans (if_neg fun hearlier => ?_))
  obtain ⟨p, hp, htask⟩ := List.any_eq_true.mp hearlier
  split at htask
  case h_1 a b d u heq => exact hfirst p hp a b d (heq.trans (by rw [eq_of_beq htask]))
  case h_2 => cases htask

end

/-! Heats (R273, R347). -/

theorem LRank.heatOver_iff (r : LRank) (hs : List (Nat × Nat)) (h : Nat) :
    r.heatOver hs h = true ↔ ∀ e ∈ hs, e.2 ≤ h → e.1 ∈ r.retired ∨ (r.discarded = true ∨ r.bad = true) ∧ e.1 ∉ r.started := by
  rw [LRank.heatOver, List.all_eq_true]
  refine forall₂_congr fun e _ => ?_
  by_cases he : e.2 ≤ h
  · simp [he, Nat.not_lt.mpr he]
  · simp [he, Nat.lt_of_not_le he]

/-- What a heat's commit asks for: it runs, its tasks and those of lower heats are over, and its rank is here. -/
def LRank.mayCommit (r : LRank) (s : State) (l : Launch) (slot : Nat) (hs : List (Nat × Nat)) : Prop :=
  l.started = true ∧ l.det = true ∧ r.heatDone = false ∧ ((s.rank slot).state = .active ∨ r.discarded = true) ∧
    ∀ e ∈ hs, e.2 ≤ r.nowHeat hs → e.1 ∈ r.retired ∨ (r.discarded = true ∨ r.bad = true) ∧ e.1 ∉ r.started

theorem LRank.mayCommit_iff (r : LRank) (s : State) (l : Launch) (slot : Nat) (hs : List (Nat × Nat)) :
    (!l.started || !l.det || r.heatDone || !r.heatOver hs (r.nowHeat hs) || ((s.rank slot).state != .active && !r.discarded)) = true ↔
      ¬r.mayCommit s l slot hs := by
  rw [LRank.mayCommit, ← LRank.heatOver_iff]
  cases l.started <;> cases l.det <;> cases r.heatDone <;> cases r.heatOver hs (r.nowHeat hs) <;> cases r.discarded <;> simp

/-- A launch's rank with another heat and commit mark. -/
def State.setHeat (s : State) (c q n slot heat : Nat) (done : Bool) : State :=
  s.modLaunch c q n (fun l => { l with ranks := l.ranks.map (fun r => if r.slot == slot then { r with heat := heat, heatDone := done } else r) })

section
variable {s : State} {c q n slot : Nat} {l : Launch} {r : LRank} (hl : s.launch c q n = some l) (hr : l.ranks.find? (fun r => r.slot == slot) = some r)
include hl hr

/-- While the reading of an entry waits, no heat commits and none starts. -/
theorem heats_wait (hs : s.heats l slot = none) : exec (.heatCommit c q n slot) s = .next s ∧ exec (.nextHeatStart c q n slot) s = .next s := by
  constructor
  · change execHeatCommit c q n slot s = _
    simp only [execHeatCommit, hl, hr, hs]
  · change execNextHeatStart c q n slot s = _
    simp only [execNextHeatStart, hl, hr, hs]
    rfl

theorem heatCommit_ends {hs : List (Nat × Nat)} (hheats : s.heats l slot = some hs) (hmay : r.mayCommit s l slot hs) :
    exec (.heatCommit c q n slot) s = .next (({ s with mem := { s.mem with
      tags := s.mem.tags.filter (fun t => t.2.key != [c, q, n, slot, r.nowHeat hs]) } } : State).setHeat c q n slot (r.nowHeat hs) true) := by
  change execHeatCommit c q n slot s = _
  simp only [execHeatCommit, hl, hr, hheats]
  rw [if_neg fun h => (r.mayCommit_iff s l slot hs).mp h hmay]
  rfl

theorem heatCommit_waits {hs : List (Nat × Nat)} (hheats : s.heats l slot = some hs) (hmay : ¬r.mayCommit s l slot hs) :
    exec (.heatCommit c q n slot) s = .next s := by
  change execHeatCommit c q n slot s = _
  simp only [execHeatCommit, hl, hr, hheats]
  rw [if_pos ((r.mayCommit_iff s l slot hs).mpr hmay)]

theorem nextHeatStart_starts {hs : List (Nat × Nat)} {h : Nat} (hheats : s.heats l slot = some hs) (hdone : r.heatDone = true)
    (hnext : least ((hs.map (fun e => e.2)).filter (fun h => decide (r.heat < h))) = some h) :
    exec (.nextHeatStart c q n slot) s = .next ((s.setHeat c q n slot h false).wake s c q) := by
  change execNextHeatStart c q n slot s = _
  simp only [execNextHeatStart, hl, hr, hheats, Option.getD_some, hnext, hdone]
  rfl

theorem nextHeatStart_notCommitted (hdone : r.heatDone = false) : exec (.nextHeatStart c q n slot) s = .next s := by
  change execNextHeatStart c q n slot s = _
  simp only [execNextHeatStart, hl, hr, hdone]
  split <;> rfl

end

/-! Slices (R36, R49, R326). -/

/-- Virtual times below 2^48 are not rebased (R50). -/
theorem State.rebase_small {s : State} (h : ∀ m, s.leastVt = some m → m < 2 ^ 48) : s.rebase = s := by
  unfold State.rebase
  split
  case h_1 m hm => exact if_neg (Nat.not_le.mpr (h m hm))
  case h_2 => rfl

/-- The state without a stream. -/
def State.without (s : State) (key : Nat) : State :=
  if s.curLive = true ∧ key = s.curKey then { s with curLive := false } else { s with streams := s.streams.del key }

/-- A queue has a task that would run on a stream's core once the stream is gone. -/
def State.fitsWithout (s : State) (key : Nat) (d : Nat × Nat) : Prop :=
  (∃ t ∈ (s.without key).startable d.1 d.2, ∃ e, t.2.2.2 = .good e ∧
    ((s.without key).fitsFree (key / 2) e = true ∨ (key % 2 = 1 ∧ (s.without key).fitsBeside (key / 2) d.1 e = true))) ∨
    (s.without key).resumable d [key / 2] = true

/-- A stream is beaten by a queue of strictly smaller virtual time with such a task. -/
theorem State.beaten_iff (s : State) (key : Nat) (x : Stream) :
    s.beaten key x = true ↔ ∃ d ∈ s.queues, s.vt d.1 d.2 < s.vt x.ctx x.queue ∧ s.fitsWithout key d := by
  have hgone : (if s.curLive && key == s.curKey then { s with curLive := false } else { s with streams := s.streams.del key }) = s.without key := by
    simp [State.without]
  unfold State.beaten
  dsimp only
  rw [hgone]
  simp only [List.any_eq_true, Bool.and_eq_true, decide_eq_true_eq, Bool.or_eq_true, State.fitsWithout]
  refine exists_congr fun d => and_congr_right fun _ => and_congr_right fun _ => or_congr_left ?_
  refine exists_congr fun t => and_congr_right fun _ => ?_
  split
  case h_1 e he => simp [he]
  case h_2 hbad => simpa using fun e he => absurd he (hbad e)

/-- A slice is over: the stream runs, and its cycles have passed (R36, R49). -/
def State.sliceOver (s : State) (x : Stream) : Prop :=
  x.halted = false ∧ x.stopped = false ∧
    x.sliceAt + (if (s.ctxAt x.ctx).quantum = 0 then 4096 else (s.ctxAt x.ctx).quantum.toNat) * 1024 ≤ s.cycle.toNat

section
variable {s : State} {key : Nat} {x : Stream} (hx : s.stream key = some x)
include hx

theorem sliceEnd_over (h : s.sliceOver x) : exec (.sliceEnd key) s = .next (s.decide49 key) := by
  obtain ⟨hhalted, hstopped, htime⟩ := h
  change execSliceEnd key s = _
  simp only [execSliceEnd, hx]
  rw [if_neg (by simpa [hhalted, hstopped, Ctx.slice] using htime)]

theorem sliceEnd_early (h : ¬s.sliceOver x) : exec (.sliceEnd key) s = .next s := by
  change execSliceEnd key s = _
  simp only [execSliceEnd, hx]
  rw [if_pos]
  by_contra hc
  exact h (by simpa [State.sliceOver, Ctx.slice, and_assoc] using hc)

variable (hvt : ∀ m, s.leastVt = some m → m < 2 ^ 48)
include hvt

/-- The decision of R49, where no virtual time is rebased: a new slice, and for a beaten stream, or one of a queue without weight, the question of R326. -/
theorem State.decide49_eq : s.decide49 key =
    if s.beaten key x = true ∨ (s.ctxAt x.ctx).weight x.queue = 0 then
      (s.putStream key { x with sliceAt := s.cycle.toNat }).askLight key { x with sliceAt := s.cycle.toNat }
    else s.putStream key { x with sliceAt := s.cycle.toNat } := by
  rw [State.decide49, State.rebase_small hvt]
  simp only [hx, Bool.or_eq_true, decide_eq_true_eq]
  rfl

/-- A stream that is asked already, or for which no save area is free, goes on. -/
theorem State.decide49_notAsked (h : x.pre ≠ 0 ∨ (s.ctxAt x.ctx).freeArea = none) :
    s.decide49 key = s.putStream key { x with sliceAt := s.cycle.toNat } := by
  rw [State.decide49_eq hx hvt, ite_eq_right_iff]
  intro _
  refine if_pos ?_
  rw [State.ctxAt_putStream]
  rcases h with h | h <;> simp [h]

theorem State.decide49_asked (h : s.beaten key x = true ∨ (s.ctxAt x.ctx).weight x.queue = 0) (hpre : x.pre = 0)
    (harea : (s.ctxAt x.ctx).freeArea ≠ none) : s.decide49 key = (s.putStream key { x with sliceAt := s.cycle.toNat }).putStream key
      { x with sliceAt := s.cycle.toNat, pre := 1, preSince := s.cycle.toNat } := by
  rw [State.decide49_eq hx hvt, if_pos h, State.askLight, State.ctxAt_putStream, State.cycle_putStream]
  exact if_neg (by simpa [hpre] using harea)

end

/-! Starvation (R115). -/

theorem starvationHold_pair {s : State} {core : Nat} {x y : Stream} (hx : s.stream (core * 2) = some x) (hy : s.stream (core * 2 + 1) = some y) :
    exec (.starvationHold core) s = .next (if 256 ≤ y.refused ∧ x.hold = none then s.putStream (core * 2) { x with starved := true } else s) := by
  change execStarvationHold core s = _
  simp [execStarvationHold, hx, hy]

theorem starvationHold_alone {s : State} {core : Nat} (h : s.stream (core * 2 + 1) = none) : exec (.starvationHold core) s = .next s := by
  change execStarvationHold core s = _
  simp [execStarvationHold, h]

/-! Jobs and their rank maps (R348). -/

section
variable {s : State} {job : Word32} {k : Nat} {j : Job} (hj : s.jobNo job = some (k, j))
include hj

theorem State.job_of_jobNo : j.job = job ∧ j.v ≠ 0 := by
  have h := List.find?_some hj
  simpa using h

/-- The record of a job number is the one that its context finds. -/
theorem State.jobOf_of_jobNo : s.jobOf j.ctx job = some (k, j) := by
  obtain ⟨htest, pre, post, hjobs, hbefore⟩ := List.find?_eq_some_iff_append.mp hj
  refine List.find?_eq_some_iff_append.mpr ⟨by simpa using htest, pre, post, hjobs, fun e he => ?_⟩
  have h := hbefore e he
  simp only [Bool.not_eq_true', Bool.and_eq_false_iff] at h ⊢
  rcases h with h | h
  · exact .inl (.inr h)
  · exact .inr h

/-- The state with the job's record changed. -/
def State.putJob (s : State) (k : Nat) (j : Job) : State := { s with front := { s.front with jobs := s.front.jobs.put k j } }

/-- A changed record of the same number, context and size stands in its place. -/
theorem State.jobOf_putJob {b : Job} (hjob : b.job = j.job) (hctx : b.ctx = j.ctx) (hv : b.v = j.v) : (s.putJob k b).jobOf j.ctx job = some (k, b) := by
  obtain ⟨hno, hsize⟩ := State.job_of_jobNo hj
  exact Tbl.find?_put (State.jobOf_of_jobNo hj) (by simp [hjob, hctx, hv, hno, hsize])

/-- The map names the same nodes while the record's map stands where it was. -/
theorem State.mapNode_putJob {b : Job} (hjob : b.job = j.job) (hctx : b.ctx = j.ctx) (hv : b.v = j.v) (hmap : b.mapbase = j.mapbase) (i : Nat) :
    (s.putJob k b).mapNode j.ctx job i = s.mapNode j.ctx job i := by
  unfold State.mapNode
  rw [State.jobOf_putJob hj hjob hctx hv, State.jobOf_of_jobNo hj]
  dsimp only
  rw [hmap]
  rfl

end

/-! CAUGHT (R350 step 3). -/

/-- A packet with a property has been sent to a node. -/
def State.HasSent (s : State) (P : Pkt → Prop) (n : Nat) : Prop :=
  ∃ p, (if n = s.mgmt.node.toNat then p ∈ s.front.pkts else (n, p) ∈ s.outs.fabric) ∧ P p

theorem State.hasSent_sendTo (s : State) {P : Pkt → Prop} (n : Nat) {p : Pkt} (h : P p) : (s.sendTo n p).HasSent P n := by
  unfold State.sendTo
  split_ifs with hn
  · exact ⟨p, by simp [hn], h⟩
  · exact ⟨p, by simp [hn], h⟩

theorem State.HasSent.sendTo {s : State} {P : Pkt → Prop} {n : Nat} (h : s.HasSent P n) (m : Nat) (p : Pkt) : (s.sendTo m p).HasSent P n := by
  obtain ⟨v, hv, hP⟩ := h
  refine ⟨v, ?_, hP⟩
  unfold State.sendTo
  split_ifs at hv ⊢ <;> simp_all

/-- A state but for its packets, and what has left the module. -/
def State.offPkts (s : State) : State := { s with nextId := 0, outs := {}, front := { s.front with pkts := [] } }

theorem State.sendTo_offPkts (s : State) (n : Nat) (p : Pkt) : (s.sendTo n p).offPkts = s.offPkts := by
  unfold State.sendTo
  split <;> rfl

/-- One COMMIT of a job's step sets out for a node. -/
def State.sendCommit (j : Job) (step : Word32) (s : State) (d : Nat) : State :=
  s.fresh.2.sendTo d { id := s.fresh.1, ctx := j.ctx, job := j.job, kind := .commit step }

theorem State.sendCommit_offPkts (s : State) (j : Job) (step : Word32) (d : Nat) : (s.sendCommit j step d).offPkts = s.offPkts :=
  State.sendTo_offPkts ..

/-- Every node of a list is sent its COMMIT. -/
theorem State.hasSent_sendCommits (s : State) (j : Job) (step : Word32) (ds : List Nat) :
    ∀ n ∈ ds, (ds.foldl (State.sendCommit j step) s).HasSent (fun p => p.kind = .commit step ∧ p.ctx = j.ctx ∧ p.job = j.job) n := by
  induction ds using List.reverseRecOn with
  | nil => exact fun n hn => absurd hn List.not_mem_nil
  | append_singleton ds d ih =>
    intro n hn
    rw [List.foldl_append, List.foldl_cons, List.foldl_nil]
    rcases List.mem_append.mp hn with hold | hnew
    · exact State.HasSent.sendTo (s := (ds.foldl (State.sendCommit j step) s).fresh.2) (ih n hold) ..
    · rw [List.mem_singleton.mp hnew]
      exact State.hasSent_sendTo _ _ ⟨rfl, rfl, rfl⟩

theorem State.readMap_exists {s : State} {c k : Nat} {job : Word32} {j : Job} {i : Nat} (hj : s.jobOf c job = some (k, j))
    (h : hbmExists (j.mapbase + 4 * i) = true) : s.readMap c job i = s := by
  simp [State.readMap, hj, h]

section
variable {s : State} {k count : Nat} {j : Job} {step : Word32}

/-- Before the last rank of the job, CAUGHT counts. -/
theorem State.countCaught_before (h : j.caught + count < j.v) : s.countCaught k j step count = s.putJob k { j with caught := j.caught + count } :=
  if_pos h

/-- The last rank of the job: the count begins anew, and every node that the map names is sent COMMIT. -/
theorem State.countCaught_last (hj : s.jobNo j.job = some (k, j)) (h : j.v ≤ j.caught + count)
    (hmap : ∀ i, i < j.v → hbmExists (j.mapbase + 4 * i) = true) : s.countCaught k j step count =
      ((((upto 0 j.v).filterMap (fun r => s.mapNode j.ctx j.job r)).eraseDups).foldl (State.sendCommit j step) (s.putJob k { j with caught := 0 })) := by
  have hread : (upto 0 j.v).foldl (fun (s : State) r => s.readMap j.ctx j.job r) (s.putJob k { j with caught := 0 }) = s.putJob k { j with caught := 0 } :=
    foldl_fixed_of_mem fun i hi => State.readMap_exists (State.jobOf_putJob hj rfl rfl rfl) (hmap i (by simpa using hi))
  have hnodes : (fun r => (s.putJob k { j with caught := 0 }).mapNode j.ctx j.job r) = fun r => s.mapNode j.ctx j.job r :=
    funext fun i => State.mapNode_putJob (b := { j with caught := 0 }) hj rfl rfl rfl rfl i
  rw [State.countCaught, if_neg (Nat.not_lt.mpr h)]
  change ((((upto 0 j.v).filterMap fun r => ((upto 0 j.v).foldl (fun (s : State) r => s.readMap j.ctx j.job r)
    (s.putJob k { j with caught := 0 })).mapNode j.ctx j.job r)).eraseDups).foldl (State.sendCommit j step)
      ((upto 0 j.v).foldl (fun (s : State) r => s.readMap j.ctx j.job r) (s.putJob k { j with caught := 0 })) = _
  rw [hread, hnodes]

theorem State.countCaught_commits (hj : s.jobNo j.job = some (k, j)) (h : j.v ≤ j.caught + count)
    (hmap : ∀ i, i < j.v → hbmExists (j.mapbase + 4 * i) = true) :
    let u := s.countCaught k j step count
    u.front.jobs = s.front.jobs.put k { j with caught := 0 } ∧ u.mem = s.mem ∧ u.front.ranks = s.front.ranks ∧
      ∀ i n, i < j.v → s.mapNode j.ctx j.job i = some n → ∃ p, (if n = s.mgmt.node.toNat then p ∈ u.front.pkts else (n, p) ∈ u.outs.fabric) ∧
        p.kind = .commit step ∧ p.ctx = j.ctx ∧ p.job = j.job := by
  intro u
  have hu := State.countCaught_last (step := step) hj h hmap
  have hframe : u.offPkts = (s.putJob k { j with caught := 0 }).offPkts :=
    (congrArg State.offPkts hu).trans (foldl_keeps State.offPkts _ _ _ fun a d => a.sendCommit_offPkts j step d)
  have hnode : u.mgmt = s.mgmt := (congrArg State.mgmt hframe :)
  refine ⟨(congrArg (fun u : State => u.front.jobs) hframe :), (congrArg State.mem hframe :), (congrArg (fun u : State => u.front.ranks) hframe :),
    fun i n hi hn => ?_⟩
  have hmem : n ∈ ((upto 0 j.v).filterMap (fun r => s.mapNode j.ctx j.job r)).eraseDups :=
    List.mem_eraseDups.mpr (List.mem_filterMap.mpr ⟨i, by simpa using hi, hn⟩)
  have hsent := State.hasSent_sendCommits (s.putJob k { j with caught := 0 }) j step _ n hmem
  rw [← hu] at hsent
  rw [← hnode]
  exact hsent

end

/-- CAUGHT is counted at the coordinator, of the current step and of the next. -/
theorem caughtMessage_eq {s : State} {job step : Word32} {count k : Nat} {j : Job} (hj : s.jobNo job = some (k, j)) :
    exec (.caughtMessage job step count) s =
      .next (if j.coord = s.mgmt.node ∧ (step = j.next ∨ step = j.next + 1) then s.countCaught k j step count else s) := by
  have hmine : (j.coord == s.mgmt.node && (j.next == step || j.next + 1 == step)) = true ↔
      j.coord = s.mgmt.node ∧ (step = j.next ∨ step = j.next + 1) := by
    simp only [Bool.and_eq_true, Bool.or_eq_true, beq_iff_eq, @eq_comm _ step]
  change execCaughtMessage job step count s = _
  simp only [execCaughtMessage, hj, hmine]

/-! COMMIT (R350 step 4). -/

/-- A rank in a new step. -/
def Rank.newStep (r : Rank) : Rank := { r with caughtExec := false, caught := false, reported := false, cids := [] }

/-- A deque that a rank of the job has bound is emptied. -/
def Deque.leave (ctx : Nat) (ranks : List Nat) (d : Deque) : Deque := if d.n != 0 && d.ctx == ctx && ranks.contains d.rank then {} else d

/-- A crew without the deques that ranks of a job have bound. -/
def Crew.leave (ctx : Nat) (ranks : List Nat) (e : Crew) : Crew := { e with deques := e.deques.map (fun d => (d.1, d.2.leave ctx ranks)) }

/-- A job's record in the step after one. -/
def Job.after (j : Job) (step : Word32) : Job :=
  { j with next := step + 1, state := JState.committed, coord := j.coordNext.getD j.coord, coordNext := none }

/-- The state of a job's next step, before its COMMIT is recorded. -/
def State.stepBegun (s : State) (k : Nat) (j : Job) (job step : Word32) : State :=
  let slots := s.jobSlots j.ctx job
  let u : State := { s with
    crews := s.crews.map (fun e => (e.1, e.2.leave j.ctx (slots.map (fun i => (s.rank i).vrank.toNat))))
    front := { s.front with jobs := s.front.jobs.put k (j.after step), colls := s.front.colls.filter (fun c => !(c.ctx == j.ctx && c.job == job)) } }
  u.mapRanks (fun _ => Rank.newStep) slots

theorem State.stepBegun_offRanks (s : State) (k : Nat) (j : Job) (job step : Word32) :
    (s.stepBegun k j job step).offRanks = State.offRanks { s with
      crews := s.crews.map (fun e => (e.1, e.2.leave j.ctx ((s.jobSlots j.ctx job).map (fun i => (s.rank i).vrank.toNat))))
      front := { s.front with jobs := s.front.jobs.put k (j.after step), colls := s.front.colls.filter (fun c => !(c.ctx == j.ctx && c.job == job)) } } :=
  State.mapRanks_offRanks ..

/-- The words of a COMMIT record (R34, R350). -/
theorem record_commit (step : Word32) (cycle : Word64) (n : Nat) :
    record 11 0 0 false 0 step cycle n 0 0 = [BitVec.ofNat 64 (11 * 2 ^ 56 + step.toNat), cycle, BitVec.ofNat 64 (n * 2 ^ 32)] := by
  simp [record]

section
variable {s : State} {job step : Word32} {k : Nat} {j : Job}

theorem commitMessage_other (hj : s.jobNo job = some (k, j)) (h : j.next ≠ step) : exec (.commitMessage job step) s = .next s := by
  change execCommitMessage job step s = _
  simp only [execCommitMessage, hj]
  rw [if_pos h]

/-- A COMMIT of the job's step: its record, on the context's ring and for the hypervisor, and the event bit, in the state of the next step. -/
theorem commitMessage_commits (hj : s.jobNo job = some (k, j)) (h : j.next = step) :
    let ends : List Word64 := [BitVec.ofNat 64 (11 * 2 ^ 56 + step.toNat), s.cycle, BitVec.ofNat 64 ((s.jobSlots j.ctx job).length * 2 ^ 32)]
    let w := (s.stepBegun k j job step).cqPut j.ctx ends
    let v : State := { w with outs := { w.outs with commits := w.outs.commits ++ [(j.ctx, ends)] } }
    exec (.commitMessage job step) s =
      .next ((if j.cmten then v.modCtx j.ctx (fun x => { x with ev := x.ev ||| BitVec.ofNat 256 (2 ^ j.cmtev.toNat) }) else v).evalHeads j.ctx) := by
  intro ends w v
  have hcycle : (s.stepBegun k j job step).cycle = s.cycle := (congrArg State.cycle (s.stepBegun_offRanks k j job step) :)
  have hends : record 11 0 0 false 0 step (s.stepBegun k j job step).cycle (s.jobSlots j.ctx job).length 0 0 = ends := by
    rw [hcycle, record_commit]
  change execCommitMessage job step s = _
  simp only [execCommitMessage, hj]
  rw [if_neg (not_not.mpr h)]
  change Host.Outcome.next (
    let r := record 11 0 0 false 0 step (s.stepBegun k j job step).cycle (s.jobSlots j.ctx job).length 0 0
    let w := (s.stepBegun k j job step).cqPut j.ctx r
    let v : State := { w with outs := { w.outs with commits := w.outs.commits ++ [(j.ctx, r)] } }
    if j.cmten then v.evUpdate j.ctx (fun v => v ||| BitVec.ofNat 256 (2 ^ j.cmtev.toNat)) else v.evalHeads j.ctx) = _
  rw [hends]
  dsimp only
  cases j.cmten <;> rfl

theorem State.stepBegun_rank (s : State) (k : Nat) (j : Job) (job step : Word32) (i : Nat) :
    (s.stepBegun k j job step).rank i = if i ∈ s.jobSlots j.ctx job then (s.rank i).newStep else s.rank i :=
  State.rank_mapRanks _ (g := fun _ => Rank.newStep) (fun _ _ => rfl) _ _

/-- The deques that the job's ranks have bound are empty in the next step (R350). -/
theorem State.stepBegun_deque (s : State) (k : Nat) (j : Job) (job step : Word32) (a b : Nat) :
    ((s.stepBegun k j job step).crews.at a {}).deques.at b {} =
      ((s.crews.at a {}).deques.at b {}).leave j.ctx ((s.jobSlots j.ctx job).map (fun i => (s.rank i).vrank.toNat)) := by
  have hcrews := (congrArg State.crews (s.stepBegun_offRanks k j job step) :)
  have hcrew := Tbl.at_map s.crews (fun e => e.leave j.ctx ((s.jobSlots j.ctx job).map (fun i => (s.rank i).vrank.toNat))) a {}
  have hdeque := Tbl.at_map (s.crews.at a {}).deques (fun d => d.leave j.ctx ((s.jobSlots j.ctx job).map (fun i => (s.rank i).vrank.toNat))) b {}
  exact (congrArg (fun t : Tbl Crew => (t.at a {}).deques.at b {}) hcrews).trans ((congrArg (fun e : Crew => e.deques.at b {}) hcrew).trans hdeque)

end

/-- Settles O49, agent by agent. -/
theorem heatsSlicesSteps : Obligations.HeatsSlicesSteps := by
  unfold Obligations.HeatsSlicesSteps
  intro s c q n slot key core count job step l r
  refine ⟨?granules, ?heats, ?slices, fun x y => starvationHold_pair, starvationHold_alone, ?noJob, ?job⟩
  case granules =>
    intro o pre post cc g w t hops hnew hkind
    exact ⟨granuleDelivery_dropped hops hnew hkind, fun k x i hdrop hfind hx hslot hfirst =>
      granuleDelivery_given hops hnew hkind hdrop hfind hx hslot hfirst, granuleDelivery_noTask hops hnew hkind⟩
  case heats =>
    intro hl hr h set ended
    exact ⟨heats_wait hl hr, fun hs hheats hmay => heatCommit_ends hl hr hheats hmay, fun hs hheats hmay => heatCommit_waits hl hr hheats hmay,
      fun hs h hheats hdone hnext => nextHeatStart_starts hl hr hheats hdone hnext, nextHeatStart_notCommitted hl hr⟩
  case slices =>
    intro x hx ended y gone fits beaten
    have hbeaten : s.beaten key x = true ↔ beaten := s.beaten_iff key x
    refine ⟨sliceEnd_over hx, sliceEnd_early hx, fun hvt => ⟨fun hweight hnot => ?_, fun hpre => State.decide49_notAsked hx hvt (.inl hpre),
      fun _ _ harea => State.decide49_notAsked hx hvt (.inr harea), fun hask hpre harea => ?_⟩⟩
    · exact (State.decide49_eq hx hvt).trans (if_neg fun h => h.elim (fun hb => hnot (hbeaten.mp hb)) hweight)
    · rw [State.decide49_asked hx hvt (hask.symm.imp_left hbeaten.mpr) hpre harea]
      exact ⟨State.stream_putStream_same .., by simp only [State.mem_putStream], by simp only [State.front_putStream],
        by simp only [State.ops_putStream]⟩
  case noJob =>
    intro hj
    constructor
    · change execCaughtMessage job step count s = _
      simp only [execCaughtMessage, hj]
    · change execCommitMessage job step s = _
      simp only [execCommitMessage, hj]
  case job =>
    intro k j hj mine
    obtain ⟨rfl, -⟩ := State.job_of_jobNo hj
    refine ⟨fun hmine => (caughtMessage_eq hj).trans (congrArg _ (if_pos hmine)), fun hmine => (caughtMessage_eq hj).trans (congrArg _ (if_neg hmine)),
      State.countCaught_before, fun hlast hmap => ?last, commitMessage_other hj, fun hnext => ?commit⟩
    case last =>
      obtain ⟨hjobs, hmem, hranks, hsent⟩ := State.countCaught_commits (step := step) hj hlast hmap
      exact ⟨hjobs, hmem, hranks, hsent⟩
    case commit =>
      have hframe := s.stepBegun_offRanks k j j.job step
      refine ⟨s.stepBegun k j j.job step, commitMessage_commits hj hnext, (congrArg (fun u : State => u.front.jobs) hframe :),
        fun i hi => (s.stepBegun_rank k j j.job step i).trans (if_pos hi), fun i hi => (s.stepBegun_rank k j j.job step i).trans (if_neg hi),
        fun a b => ?deques, (congrArg State.outs hframe :), (congrArg (fun u : State => u.front.ctxs) hframe :), (congrArg State.mem hframe :),
        (congrArg State.streams hframe :), (congrArg State.cur hframe :), (congrArg State.core hframe :), (congrArg State.cores hframe :),
        (congrArg State.ops hframe :), (congrArg State.treqs hframe :)⟩
      case deques =>
        rw [State.stepBegun_deque, Deque.leave]
        simp only [Bool.and_eq_true, bne_iff_ne, beq_iff_eq, List.contains_iff_mem, and_assoc]

end Sys2Proof.Machine
end

section
/-! Launches (R25, R37, R38, R41, R42, R156, R345, R346, R349): what a head's step, a task start, a decrement, a task's retirement and a launch's
retirement each do. -/

namespace Sys2Proof.Machine

/-! Heads (R25, R37, R38, R349). -/

theorem launchHead_none {s : State} {c q : Nat} (h : headOf ((s.ctxAt c).queues.at q []) = none) : exec (.launchHead c q) s = .next s := by
  change execLaunchHead c q s = _
  simp only [execLaunchHead, h]

section
variable {s : State} {c q : Nat} {l : Launch} (hhead : headOf ((s.ctxAt c).queues.at q []) = some l)
include hhead

theorem launchHead_checked (h : l.checked = true) : exec (.launchHead c q) s = .next (s.evalHead c q) := by
  change execLaunchHead c q s = _
  simp only [execLaunchHead, hhead]
  rw [if_pos h]

/-- A head is checked once: what the checks of R25 come to, and then whether its step has been committed. -/
theorem launchHead_unchecked (h : l.checked = false) : exec (.launchHead c q) s = .next (
    if s.checkLaunch c l ≠ 0 then s.endLaunch c q l (s.checkLaunch c l) 0
    else if s.stale c l = true then s.endLaunch c q l 10 0
    else (s.modLaunch c q l.serial (fun l => { l with checked := true })).evalHead c q) := by
  change execLaunchHead c q s = _
  simp only [execLaunchHead, hhead]
  rw [if_neg (by simp [h])]

/-- A checked head that waits for nothing but its mask starts when the event vector fills that (R37). -/
theorem State.evalHead_mask (hweight : (s.ctxAt c).weight q ≠ 0) (hstarted : l.started = false) (hchecked : l.checked = true)
    (hstale : s.stale c l = false) (hwaits : s.headWaits c l = false) :
    s.evalHead c q = if (s.ctxAt c).ev &&& l.mask 8 = l.mask 8 then s.startLaunch c q l else s := by
  simp only [State.evalHead, hhead]
  rw [if_neg (by simp [hweight, hstarted, hchecked]), if_neg (by simp [hstale]), if_neg (by simp [hwaits])]
  simp only [beq_iff_eq]

end

/-! Task starts (R27, R31, R48, R49). -/

theorem taskStart_notStartable {s : State} {c q n slot task : Nat}
    (h : ∀ t ∈ s.startable c q, ¬(t.1.serial = n ∧ t.2.1.slot = slot ∧ t.2.2.1 = task)) : exec (.taskStart c q n slot task) s = .next s := by
  have hnone : (s.startable c q).find? (fun t => t.1.serial == n && t.2.1.slot == slot && t.2.2.1 == task) = none :=
    List.find?_eq_none.mpr fun t ht => by simpa [and_assoc] using h t ht
  change execTaskStart c q n slot task s = _
  simp only [execTaskStart, hnone]

section
variable {s : State} {c q task : Nat} {l : Launch} {r : LRank}

/-- The search of TASK_START among the startable tasks of a queue. -/
def State.picks (s : State) (c q : Nat) (l : Launch) (r : LRank) (task : Nat) (v : Reading) : Prop :=
  (s.startable c q).find? (fun t => t.1.serial == l.serial && t.2.1.slot == r.slot && t.2.2.1 == task) = some (l, r, task, v)

theorem taskStart_bad {t : Option TrapRec} (h : s.picks c q l r task (.bad t)) :
    exec (.taskStart c q l.serial r.slot task) s = .next (s.badEntry c q l r.slot t) := by
  change execTaskStart c q l.serial r.slot task s = _
  rw [execTaskStart, show List.find? _ _ = _ from h]

variable {e : Entry} {k : Nat} (h : s.picks c q l r task (.good e)) (hk : s.chooseCore c q l r.slot e = some k)
include h hk

theorem taskStart_binds (hwin : s.winner c q = true) (hres : s.resumable (c, q) = false) :
    exec (.taskStart c q l.serial r.slot task) s = .next (s.rebase.bind k c q l r.slot task e) := by
  change execTaskStart c q l.serial r.slot task s = _
  rw [execTaskStart, show List.find? _ _ = _ from h]
  dsimp only
  rw [hk]
  exact congrArg Host.Outcome.next (if_pos (by simp [hwin, hres]))

theorem taskStart_waits (hother : s.winner c q = false ∨ s.resumable (c, q) = true) : exec (.taskStart c q l.serial r.slot task) s = .next s := by
  change execTaskStart c q l.serial r.slot task s = _
  rw [execTaskStart, show List.find? _ _ = _ from h]
  dsimp only
  rw [hk]
  exact congrArg Host.Outcome.next (if_neg (by rcases hother with h | h <;> simp [h]))

end

/-! Decrements (R41, R42). -/

section
variable {s : State} {o : Op} {pre post : List Op} {t : TaskRef} {amount : Nat} {cmd : Option Nat} (hops : s.ops = pre ++ o :: post)
  (hnew : ∀ p ∈ pre, p.id ≠ o.id) (hkind : o.kind = .dec t amount cmd)
include hops hnew hkind

theorem predecessorDecrement_dropped (hdrop : s.refDrop t = true) :
    exec (.predecessorDecrement o.id) s = .next (((s.dropOp o.id).dropPair o).lost t.ctx) := by
  change execPredecessorDecrement o.id s = _
  rw [execPredecessorDecrement, find_op hops hnew]
  dsimp only
  rw [hkind]
  exact congrArg Host.Outcome.next (if_pos hdrop)

/-- A rank's counts with one task's raised. -/
def LRank.addDec (t : TaskRef) (amount : Nat) (r : LRank) : LRank :=
  if r.slot == t.slot then { r with decs := r.decs.put t.task (r.decs.at t.task 0 + amount) } else r

theorem predecessorDecrement_counts {q : Nat} {l : Launch} (hdrop : s.refDrop t = false) (hl : s.refLaunch t = some (q, l)) :
    exec (.predecessorDecrement o.id) s = .next (((s.dropOp o.id).modLaunch t.ctx q l.serial
      (fun l => { l with ranks := l.ranks.map (LRank.addDec t amount) })).wake s t.ctx q) := by
  change execPredecessorDecrement o.id s = _
  rw [execPredecessorDecrement, find_op hops hnew]
  dsimp only
  rw [hkind]
  dsimp only
  rw [hdrop, hl]
  rfl

end

/-! A task's retirement (R156, R301, R345). -/

/-- What TASK_RETIRE does of a stream, in the order in which it asks. -/
theorem taskRetire_eq {s : State} {id : Nat} {x : Stream} (hx : s.stream id = some x) :
    exec (.taskRetire id) s = .next (
      if ¬(x.ending ≠ 0 ∧ s.workDone id x = true) then s
      else if x.winHeld = true ∧ x.flushing = true ∧ x.winAgent = 3 then s.taskFail id ((x.async.getLast?.map (fun t => t.cause)).getD 0x0C)
      else if ¬(x.winHeld = false ∨ x.win = []) then s.putStream id { x with flushing := true, winAgent := 0 }
      else if ((s.releaseStack id x).settleParked id x).parkedOpen id = true then (s.releaseStack id x).settleParked id x
      else ((s.releaseStack id x).settleParked id x).retire id x) := by
  have hdone : (decide (x.ending = 0) || !s.workDone id x) = true ↔ ¬(x.ending ≠ 0 ∧ s.workDone id x = true) := by
    simp [imp_iff_not_or]
  have hbroken : (x.winHeld && x.flushing && decide (x.winAgent = 3)) = true ↔ x.winHeld = true ∧ x.flushing = true ∧ x.winAgent = 3 := by
    simp [and_assoc]
  have hempty : (x.winHeld && !x.win.isEmpty) = true ↔ ¬(x.winHeld = false ∨ x.win = []) := by
    simp
  change execTaskRetire id s = _
  simp only [execTaskRetire, hx, hdone, hbroken, hempty]

/-- A stream that holds no window and a module without Tulle requests have no parked request to settle. -/
theorem State.parkedOpen_settled {s : State} {id : Nat} {x : Stream} (hwin : x.winHeld = false) (hreqs : s.treqs = []) :
    ((s.releaseStack id x).settleParked id x).parkedOpen id = false := by
  have hrelease : s.releaseStack id x = s := by simp [State.releaseStack, hwin]
  have hgrans : s.detachedGrans id = [] := by simp [State.detachedGrans, hreqs]
  simp [hrelease, State.settleParked, hgrans, State.parkedOpen, hreqs, mapIf]

/-! A launch's retirement (R346, R347). -/

theorem State.heatsOpen_free {s : State} {l : Launch} (h : l.det = false) : s.heatsOpen l = false := by
  simp [State.heatsOpen, h]

section
variable {s : State} {c q n : Nat} {l : Launch} (hl : s.launch c q n = some l)
include hl

theorem launchRetire_waits (h : l.done = true ∨ l.finished = false ∨ s.heatsOpen l = true) : exec (.launchRetire c q n) s = .next s := by
  change execLaunchRetire c q n s = _
  simp only [execLaunchRetire, hl]
  exact congrArg Host.Outcome.next (if_pos (by simpa [or_assoc] using h))

theorem launchRetire_ends (hdone : l.done = false) (hfin : l.finished = true) (hheats : s.heatsOpen l = false) :
    let st := if l.status ≠ 0 then l.status else if l.ranks.any (fun r => r.caught) then 12 else 0
    let v := if st = 0 then s.modCtx c (fun x => { x with ev := x.ev ||| l.mask 12 }) else s
    let w := v.endLaunch c q l st (if st = 8 ∨ st = 5 then l.fcause else 0)
    exec (.launchRetire c q n) s = .next ((l.ranks.foldl (fun (s : State) r => s.checkCaught r.slot) w).evalHeads c) := by
  intro st v w
  change execLaunchRetire c q n s = _
  simp only [execLaunchRetire, hl]
  rw [if_neg (by simp [hdone, hfin, hheats])]
  simp only [Bool.or_eq_true, decide_eq_true_eq]
  rfl

end

/-! The start of a head (R24, R37, R38, R54, R157, R349, R350). -/

/-- What a change of one context leaves of every context. -/
theorem State.ctxAt_modCtx_keeps {γ : Type} (p : Ctx → γ) (s : State) (c d : Nat) {g : Ctx → Ctx} (hg : ∀ x, p (g x) = p x) :
    p ((s.modCtx c g).ctxAt d) = p (s.ctxAt d) := by
  unfold State.modCtx
  split
  case h_1 x hx =>
    by_cases hd : d = c
    · subst hd
      have hold : s.ctxAt d = x := Tbl.at_of_find _ hx
      rw [hold, ← hg x]
      exact congrArg p (Tbl.at_put_same ..)
    · exact congrArg p (Tbl.at_put_other _ _ _ hd)
  case h_2 => rfl

theorem State.ctxAt_wake_keeps {γ : Type} (p : Ctx → γ) (s old : State) (c q d : Nat) (hp : ∀ x vt, p { x with vt := vt } = p x) :
    p ((s.wake old c q).ctxAt d) = p (s.ctxAt d) := by
  unfold State.wake
  split
  · split
    · exact State.ctxAt_modCtx_keeps p _ _ _ fun x => hp x _
    · rfl
  · rfl

theorem Tbl.has_put {α : Type} (t : Tbl α) (a : Nat) (x : α) (h : t.has a = true) (b : Nat) : (t.put a x).has b = t.has b := by
  by_cases hb : b = a
  · subst hb
    rw [h, Tbl.has, Tbl.find_put_same, Option.isSome_some]
  · rw [Tbl.has, Tbl.find_put_other t a b x hb, Tbl.has]

theorem State.has_modCtx (s : State) (c d : Nat) (g : Ctx → Ctx) : (s.modCtx c g).front.ctxs.has d = s.front.ctxs.has d := by
  unfold State.modCtx
  split
  case h_1 x hx => exact Tbl.has_put _ _ _ (by simp [Tbl.has, hx]) d
  case h_2 => rfl

/-- A queue with a head belongs to a context that exists. -/
theorem State.has_of_headOf {s : State} {c q : Nat} {l : Launch} (h : headOf ((s.ctxAt c).queues.at q []) = some l) : s.front.ctxs.has c = true := by
  by_contra hno
  have hnone : s.front.ctxs.find c = none := by simpa [Tbl.has] using hno
  have hdef : s.ctxAt c = {} := by simp [State.ctxAt, Tbl.at, hnone]
  rw [hdef] at h
  cases h

theorem State.mem_setSlots (s : State) (c : Nat) (l : Launch) (i : Nat) :
    i ∈ s.setSlots c l ↔ i ∈ s.jobSlots c l.job ∧ l.first ≤ (s.rank i).vrank.toNat ∧ (s.rank i).vrank.toNat ≤ l.last := by
  simp [State.setSlots]

/-- A rank as a launch that starts on it leaves it: when it started, and whether a recall is due. -/
def Rank.accepted (cycle : Word64) (r : Rank) : Rank :=
  { r with lastLaunch := cycle.toNat, recallDue := r.recallDue || (r.state == .cold || r.state == .evicting) }

theorem Rank.accepted_accepted (cycle : Word64) (r : Rank) : (r.accepted cycle).accepted cycle = r.accepted cycle := by
  simp [Rank.accepted]

/-- A launch's progress on a rank at its start. -/
def State.newRank (s : State) (i : Nat) : LRank := { slot := i, discarded := s.catchOver i, caught := s.catchOver i }

/-- A launch as it starts. -/
def Launch.begun (ranks : List LRank) (l : Launch) : Launch := { l with started := true, ranks := ranks }

/-- The job whose step a launch begins runs (R350). -/
def State.runJob (s : State) (c : Nat) (l : Launch) : State :=
  match s.jobOf c l.job with
  | some (k, j) => if l.sl && l.step == j.next && j.state == JState.committed then s.putJob k { j with state := .running } else s
  | none => s

/-- The parts of a launch's start: its clears, its progress, its ranks, its job, and the maximum rule. -/
theorem State.startLaunch_eq (s : State) (c q : Nat) (l : Launch) :
    let u := s.modCtx c (fun x => { x with ev := x.ev &&& ~~~(l.mask 16) })
    s.startLaunch c q l = (((u.modLaunch c q l.serial (Launch.begun ((s.setSlots c l).map u.newRank))).mapRanks (fun cycle r => r.accepted cycle)
      (s.setSlots c l)).runJob c l).wake s c q := rfl

/-- Whether a rank's CATCH is over does not depend on the event vector. -/
theorem State.catchOver_modCtx (s : State) (c i : Nat) (g : Ctx → Ctx) (hg : ∀ x, (g x).saved = x.saved) : (s.modCtx c g).catchOver i = s.catchOver i := by
  have hframe := s.modCtx_offCtxs c g
  have hrank : (s.modCtx c g).rank i = s.rank i := State.rank_congr (State.ranks_of_offCtxs hframe) i
  have hstreams : (s.modCtx c g).allStreams = s.allStreams := (congrArg State.allStreams hframe :)
  rw [State.catchOver, hrank, hstreams, State.ctxAt_modCtx_keeps (fun x => x.saved) s c _ hg, State.catchOver]

theorem State.runJob_ctxs (s : State) (c : Nat) (l : Launch) : (s.runJob c l).front.ctxs = s.front.ctxs := by
  unfold State.runJob
  split
  · split <;> rfl
  · rfl

theorem State.runJob_ranks (s : State) (c : Nat) (l : Launch) : (s.runJob c l).front.ranks = s.front.ranks := by
  unfold State.runJob
  split
  · split <;> rfl
  · rfl

section
variable {s : State} {c q : Nat} {l : Launch}

/-- The context after a start, but for its virtual times. -/
theorem State.startLaunch_ctx {γ : Type} (p : Ctx → γ) (hp : ∀ x vt, p { x with vt := vt } = p x) (hc : s.front.ctxs.has c = true) :
    p ((s.startLaunch c q l).ctxAt c) = p { s.ctxAt c with
      ev := (s.ctxAt c).ev &&& ~~~(l.mask 16)
      queues := (s.ctxAt c).queues.put q (((s.ctxAt c).queues.at q []).map (fun v =>
        if v.serial == l.serial then v.begun ((s.setSlots c l).map s.newRank) else v)) } := by
  let u := s.modCtx c (fun x => { x with ev := x.ev &&& ~~~(l.mask 16) })
  have hnew : u.newRank = s.newRank := funext fun i => by
    have hcatch : u.catchOver i = s.catchOver i := s.catchOver_modCtx c i _ fun _ => rfl
    rw [State.newRank, hcatch, State.newRank]
  have hu : u.ctxAt c = { s.ctxAt c with ev := (s.ctxAt c).ev &&& ~~~(l.mask 16) } := State.ctxAt_modCtx_same s c _ hc
  rw [State.startLaunch_eq, State.ctxAt_wake_keeps p _ _ _ _ _ hp]
  refine congrArg p ?_
  change ((((u.modLaunch c q l.serial (Launch.begun ((s.setSlots c l).map u.newRank))).mapRanks (fun cycle r => r.accepted cycle)
      (s.setSlots c l)).runJob c l).front.ctxs.at c {}) = _
  rw [State.runJob_ctxs, State.ctxs_of_offRanks (State.mapRanks_offRanks ..), hnew]
  change ((u.modLaunch c q l.serial (Launch.begun ((s.setSlots c l).map s.newRank))).ctxAt c) = _
  rw [State.modLaunch, State.ctxAt_modCtx_same _ _ _ ((s.has_modCtx c c _).trans hc), hu]

theorem State.startLaunch_ev (hc : s.front.ctxs.has c = true) : ((s.startLaunch c q l).ctxAt c).ev = (s.ctxAt c).ev &&& ~~~(l.mask 16) :=
  State.startLaunch_ctx (fun x => x.ev) (fun _ _ => rfl) hc

theorem State.startLaunch_queue (hc : s.front.ctxs.has c = true) : ((s.startLaunch c q l).ctxAt c).queues.at q [] =
    ((s.ctxAt c).queues.at q []).map (fun v => if v.serial == l.serial then v.begun ((s.setSlots c l).map s.newRank) else v) := by
  rw [State.startLaunch_ctx (fun x => x.queues) (fun _ _ => rfl) hc]
  exact Tbl.at_put_same ..

/-- The launch that starts, wherever its queue holds it: its progress on the held ranks of its set. -/
theorem State.startLaunch_begun (hc : s.front.ctxs.has c = true) {v : Launch} (hv : v ∈ ((s.startLaunch c q l).ctxAt c).queues.at q [])
    (hserial : v.serial = l.serial) : v.started = true ∧ v.ranks = (s.setSlots c l).map s.newRank := by
  rw [State.startLaunch_queue hc] at hv
  obtain ⟨w, -, rfl⟩ := List.mem_map.mp hv
  by_cases hw : w.serial = l.serial
  · rw [if_pos (by simpa using hw)]
    exact ⟨rfl, rfl⟩
  · rw [if_neg (by simpa using hw)] at hserial
    exact absurd hserial hw

theorem State.startLaunch_rank (i : Nat) : (s.startLaunch c q l).rank i = if i ∈ s.setSlots c l then (s.rank i).accepted s.cycle else s.rank i := by
  let u := s.modCtx c (fun x => { x with ev := x.ev &&& ~~~(l.mask 16) })
  let v := u.modLaunch c q l.serial (Launch.begun ((s.setSlots c l).map u.newRank))
  have hv : v.offCtxs = s.offCtxs := (u.modCtx_offCtxs ..).trans (s.modCtx_offCtxs ..)
  have hcycle : v.cycle = s.cycle := (congrArg State.cycle hv :)
  have hwake := State.ranks_of_offCtxs (State.wake_offCtxs ((v.mapRanks (fun cycle r => r.accepted cycle) (s.setSlots c l)).runJob c l) s c q)
  rw [State.startLaunch_eq, State.rank_congr hwake, State.rank_congr (State.runJob_ranks ..),
    State.rank_mapRanks v (g := fun cycle r => r.accepted cycle) (fun cycle r => r.accepted_accepted cycle), hcycle,
    State.rank_congr (State.ranks_of_offCtxs hv)]

theorem State.startLaunch_jobs {k : Nat} {j : Job} (hj : s.jobOf c l.job = some (k, j)) : (s.startLaunch c q l).front.jobs =
    if l.sl = true ∧ l.step = j.next ∧ j.state = .committed then s.front.jobs.put k { j with state := .running } else s.front.jobs := by
  let u := s.modCtx c (fun x => { x with ev := x.ev &&& ~~~(l.mask 16) })
  let v := u.modLaunch c q l.serial (Launch.begun ((s.setSlots c l).map u.newRank))
  let w := v.mapRanks (fun cycle r => r.accepted cycle) (s.setSlots c l)
  have hv : v.offCtxs = s.offCtxs := (u.modCtx_offCtxs ..).trans (s.modCtx_offCtxs ..)
  have hjobs : w.front.jobs = s.front.jobs := (State.jobs_of_offRanks (v.mapRanks_offRanks ..)).trans (congrArg (fun u : State => u.front.jobs) hv :)
  have hw : w.jobOf c l.job = some (k, j) := by rw [State.jobOf, hjobs, ← State.jobOf, hj]
  have hwake := (congrArg (fun u : State => u.front.jobs) (State.wake_offCtxs (w.runJob c l) s c q) :)
  rw [State.startLaunch_eq]
  refine hwake.trans ?_
  change (w.runJob c l).front.jobs = _
  simp only [State.runJob, hw, Bool.and_eq_true, beq_iff_eq, and_assoc]
  split_ifs
  · exact congrArg (fun t : Tbl Job => t.put k { j with state := .running }) hjobs
  · exact hjobs

end

end Sys2Proof.Machine
end

section
/-! The choice of a core (R29, R47-R49): kinship, the order of the classes, what fits a core, and which queue comes first. -/

namespace Sys2Proof.Machine

/-! Kinship (R29). -/

/-- Of a test that holds of every number below one of which it holds, the count below a bound says which those are. -/
theorem lt_length_filter_range {p : Nat → Bool} (hp : ∀ i j, i ≤ j → p j = true → p i = true) {n r : Nat} (hr : r < n) :
    r < ((List.range n).filter p).length ↔ p r = true := by
  constructor
  · intro hlen
    by_contra hno
    have hbelow : (List.range n).filter p ⊆ List.range r := fun i hi => by
      obtain ⟨-, hpi⟩ := List.mem_filter.mp hi
      exact List.mem_range.mpr (Nat.lt_of_not_le fun h => hno (hp r i h hpi))
    have hle := ((List.nodup_range.filter p).subperm hbelow).length_le
    rw [List.length_range] at hle
    omega
  · intro hpr
    have habove : List.range (r + 1) ⊆ (List.range n).filter p := fun i hi => by
      have hir : i ≤ r := Nat.lt_succ_iff.mp (List.mem_range.mp hi)
      exact List.mem_filter.mpr ⟨List.mem_range.mpr (hir.trans_lt hr), hp i r hir hpr⟩
    have hle := (List.nodup_range.subperm habove).length_le
    rwa [List.length_range] at hle

theorem widthSum_mono (w : BitVec 42) : Monotone (widthSum w) := by
  refine monotone_nat_of_le_succ fun k => ?_
  simp only [widthSum, upto_eq_range', List.range'_concat (n := k + 1), List.map_append, List.sum_append]
  exact Nat.le_add_right ..

/-- Two WIDs whose first fields agree to a level agree to every lower one. -/
theorem prefix_anti {a b : Word64} {m n : Nat} (hmn : m ≤ n) (h : a >>> m = b >>> m) : a >>> n = b >>> n := by
  obtain ⟨d, rfl⟩ := Nat.exists_eq_add_of_le hmn
  rw [BitVec.shiftRight_add, h, BitVec.shiftRight_add]

theorem lt_kinLevel_iff (w : BitVec 42) (a b : Word64) {r : Nat} (hr : r < 6) :
    r < kinLevel w a b ↔ a >>> (64 - widthSum w r) = b >>> (64 - widthSum w r) := by
  rw [kinLevel, upto_eq_range', ← List.range_eq_range', lt_length_filter_range ?_ hr]
  · exact beq_iff_eq
  · intro i j hij hj
    have hsum := widthSum_mono w hij
    exact beq_iff_eq.mpr (prefix_anti (by omega) (beq_iff_eq.mp hj))

theorem kinLevel_le (w : BitVec 42) (a b : Word64) : kinLevel w a b ≤ 6 :=
  (List.length_filter_le _ _).trans (by simp [upto_eq_range'])

/-! The crews of class 1 (R48). -/

/-- The tasks of a launch that have run on a crew, by crew: those bound there, and those last retired on its cores. -/
def State.kinRuns (s : State) (c q lid slot : Nat) : List (Nat × Word64) :=
  (s.allStreams.filter (fun e => e.2.ctx == c && e.2.queue == q && e.2.lid == lid && e.2.slot == slot)).map (fun e => (e.1 / 16, e.2.wid)) ++
    (s.front.lastRun.filter (fun e => e.2.1 == c && e.2.2.1 == q && e.2.2.2.1 == lid && e.2.2.2.2.1 == slot)).map (fun e => (e.1 / 8, e.2.2.2.2.2))

theorem State.mem_kinRuns (s : State) (c q lid slot crew : Nat) (w : Word64) : (crew, w) ∈ s.kinRuns c q lid slot ↔
    (∃ v ∈ s.allStreams, v.1 / 16 = crew ∧ v.2.ctx = c ∧ v.2.queue = q ∧ v.2.lid = lid ∧ v.2.slot = slot ∧ v.2.wid = w) ∨
      ∃ v ∈ s.front.lastRun, v.1 / 8 = crew ∧ v.2 = (c, q, lid, slot, w) := by
  simp only [State.kinRuns, List.mem_append, List.mem_map, List.mem_filter, Bool.and_eq_true, beq_iff_eq, Prod.ext_iff]
  refine or_congr (exists_congr fun v => ?_) (exists_congr fun v => ?_) <;> tauto

/-- The deepest kinship of a WID with those that have run on a crew; none where none has. -/
def crewLevel (runs : List (Nat × Word64)) (w : BitVec 42) (wid : Word64) (crew : Nat) : Option Nat :=
  (runs.filter (fun e => e.1 == crew)).foldl (fun a e => some (max (a.getD 0) (kinLevel w wid e.2))) none

/-- What the search for a crew's deepest kinship holds: a greatest one of those seen, or nothing while there is none. -/
def IsDeepest (f : Word64 → Nat) (l : List (Nat × Word64)) : Option Nat → Prop
  | none => l = []
  | some m => (∃ e ∈ l, f e.2 = m) ∧ ∀ e ∈ l, f e.2 ≤ m

theorem isDeepest_foldl (f : Word64 → Nat) (l : List (Nat × Word64)) : IsDeepest f l (l.foldl (fun a e => some (max (a.getD 0) (f e.2))) none) := by
  induction l using List.reverseRecOn with
  | nil => rfl
  | append_singleton l e ih =>
    rw [List.foldl_append, List.foldl_cons, List.foldl_nil]
    cases ha : l.foldl (fun a e => some (max (a.getD 0) (f e.2))) none with
    | none =>
      rw [ha] at ih
      have hl : l = [] := ih
      simp [IsDeepest, hl]
    | some m =>
      rw [ha] at ih
      obtain ⟨⟨d, hd, hdm⟩, hmax⟩ := ih
      refine ⟨?_, forall_mem_concat (fun d hd => (hmax d hd).trans (Nat.le_max_left ..)) (Nat.le_max_right ..)⟩
      rcases Nat.le_total (f e.2) m with h | h
      · exact ⟨d, List.mem_append_left _ hd, hdm.trans (Nat.max_eq_left h).symm⟩
      · exact ⟨e, by simp, (Nat.max_eq_right h).symm⟩

section
variable {runs : List (Nat × Word64)} {w : BitVec 42} {wid : Word64} {crew m : Nat}

theorem isSome_crewLevel : (crewLevel runs w wid crew).isSome = true ↔ ∃ v, (crew, v) ∈ runs := by
  have h := isDeepest_foldl (kinLevel w wid) (runs.filter (fun e => e.1 == crew))
  change IsDeepest _ _ (crewLevel runs w wid crew) at h
  cases hl : crewLevel runs w wid crew with
  | none =>
    rw [hl] at h
    have hnone := List.filter_eq_nil_iff.mp h
    simpa using fun v hv => hnone _ hv (beq_self_eq_true crew)
  | some m =>
    rw [hl] at h
    obtain ⟨⟨⟨k, v⟩, he, -⟩, -⟩ := h
    obtain ⟨hmem, hk⟩ := List.mem_filter.mp he
    obtain rfl : k = crew := beq_iff_eq.mp hk
    exact iff_of_true rfl ⟨v, hmem⟩

theorem crewLevel_attained (h : crewLevel runs w wid crew = some m) : ∃ v, (crew, v) ∈ runs ∧ kinLevel w wid v = m := by
  have hdeep := isDeepest_foldl (kinLevel w wid) (runs.filter (fun e => e.1 == crew))
  change IsDeepest _ _ (crewLevel runs w wid crew) at hdeep
  rw [h] at hdeep
  obtain ⟨⟨⟨k, v⟩, he, hm⟩, -⟩ := hdeep
  obtain ⟨hmem, hk⟩ := List.mem_filter.mp he
  obtain rfl : k = crew := beq_iff_eq.mp hk
  exact ⟨v, hmem, hm⟩

theorem le_crewLevel (h : crewLevel runs w wid crew = some m) {v : Word64} (hv : (crew, v) ∈ runs) : kinLevel w wid v ≤ m := by
  have hdeep := isDeepest_foldl (kinLevel w wid) (runs.filter (fun e => e.1 == crew))
  change IsDeepest _ _ (crewLevel runs w wid crew) at hdeep
  rw [h] at hdeep
  exact hdeep.2 (crew, v) (List.mem_filter.mpr ⟨hv, beq_self_eq_true crew⟩)

theorem crewLevel_le (h : crewLevel runs w wid crew = some m) : m ≤ 6 := by
  obtain ⟨v, -, rfl⟩ := crewLevel_attained h
  exact kinLevel_le ..

end

/-- The crews with a kinship, by number. -/
def crewLevels (runs : List (Nat × Word64)) (w : BitVec 42) (wid : Word64) : List (Nat × Nat) :=
  (upto 0 64).filterMap (fun k => (crewLevel runs w wid k).map (fun v => (k, v)))

theorem mem_crewLevels {runs : List (Nat × Word64)} {w : BitVec 42} {wid : Word64} {e : Nat × Nat} :
    e ∈ crewLevels runs w wid ↔ e.1 < 64 ∧ crewLevel runs w wid e.1 = some e.2 := by
  obtain ⟨k, v⟩ := e
  simp [crewLevels]

/-- The crews come by kinship, the deepest first. -/
theorem State.kinCrews_eq (s : State) (c q lid slot : Nat) (w : BitVec 42) (wid : Word64) : s.kinCrews c q lid slot w wid =
    ((upto 0 7).map (fun i => ((crewLevels (s.kinRuns c q lid slot) w wid).filter (fun e => e.2 == 6 - i)).map (fun e => e.1))).flatten := rfl

section
variable {s : State} {c q lid slot : Nat} {w : BitVec 42} {wid : Word64}

theorem State.mem_kinCrews {k : Nat} : k ∈ s.kinCrews c q lid slot w wid ↔ k < 64 ∧ ∃ v, (k, v) ∈ s.kinRuns c q lid slot := by
  rw [State.kinCrews_eq, ← isSome_crewLevel (w := w) (wid := wid)]
  simp only [List.mem_flatten, List.mem_map, mem_upto, exists_exists_and_eq_and, List.mem_filter, mem_crewLevels, beq_iff_eq]
  constructor
  · rintro ⟨i, -, e, ⟨⟨hlt, hlevel⟩, -⟩, rfl⟩
    exact ⟨hlt, by rw [hlevel]; rfl⟩
  · rintro ⟨hlt, hlevel⟩
    obtain ⟨m, hm⟩ := Option.isSome_iff_exists.mp hlevel
    have hm6 := crewLevel_le hm
    exact ⟨6 - m, by omega, (k, m), ⟨⟨hlt, hm⟩, by omega⟩, rfl⟩

/-- Of two crews of class 1 the earlier is at least as close a kin, and the lower of two equally close. -/
theorem State.kinCrews_pairwise : (s.kinCrews c q lid slot w wid).Pairwise (fun a b => ∃ m n,
    crewLevel (s.kinRuns c q lid slot) w wid a = some m ∧ crewLevel (s.kinRuns c q lid slot) w wid b = some n ∧ n ≤ m ∧ (m ≤ n → a < b)) := by
  have hrising : (crewLevels (s.kinRuns c q lid slot) w wid).Pairwise (fun e f => e.1 < f.1) := by
    have hupto : (upto 0 64).Pairwise (· < ·) := upto_eq_range' 0 64 ▸ List.pairwise_lt_range'
    refine List.pairwise_filterMap.mpr (hupto.imp fun hab e he f hf => ?_)
    obtain ⟨_, -, rfl⟩ := Option.map_eq_some_iff.mp he
    obtain ⟨_, -, rfl⟩ := Option.map_eq_some_iff.mp hf
    exact hab
  rw [State.kinCrews_eq, List.pairwise_flatten]
  constructor
  · intro l hl
    obtain ⟨i, -, rfl⟩ := List.mem_map.mp hl
    refine List.pairwise_map.mpr ((hrising.filter _).imp_of_mem fun {e f} he hf hef => ?_)
    simp only [List.mem_filter, mem_crewLevels, beq_iff_eq] at he hf
    exact ⟨e.2, f.2, he.1.2, hf.1.2, (hf.2.trans he.2.symm).le, fun _ => hef⟩
  · have hupto : (upto 0 7).Pairwise (· < ·) := upto_eq_range' 0 7 ▸ List.pairwise_lt_range'
    refine List.pairwise_map.mpr (hupto.imp_of_mem fun {i j} hi hj hij x hx y hy => ?_)
    obtain ⟨e, he, rfl⟩ := List.mem_map.mp hx
    obtain ⟨f, hf, rfl⟩ := List.mem_map.mp hy
    simp only [List.mem_filter, mem_crewLevels, beq_iff_eq] at he hf
    have hj7 := (mem_upto.mp hj).2
    exact ⟨e.2, f.2, he.1.2, hf.1.2, by omega, by omega⟩

end

/-! The order of the classes (R48). -/

theorem upto_mul (k n : Nat) : upto (n * k) n = (List.range n).map (fun i => n * k + i) := by
  rw [upto_eq_range', List.range'_eq_map_range]

/-- The die with the most free cores, and of several the lowest. -/
theorem State.idleDie_spec (s : State) :
    s.idleDie < 4 ∧ ∀ d, d < 4 → s.freeCores d ≤ s.freeCores s.idleDie ∧ (s.freeCores d = s.freeCores s.idleDie → s.idleDie ≤ d) := by
  have hdies : upto 1 3 = [1, 2, 3] := by decide
  simp only [State.idleDie, hdies, List.foldl_cons, List.foldl_nil]
  refine ⟨by split_ifs <;> decide, fun d hd => ?_⟩
  interval_cases d <;> split_ifs <;> omega

theorem State.coreOrder_eq (s : State) (c q lid slot : Nat) (w : BitVec 42) (wid : Word64) :
    s.coreOrder c q lid slot w wid =
      (s.kinCrews c q lid slot w wid).flatMap (fun k => (List.range 8).map (fun i => 8 * k + i)) ++
        ((s.kinCrews c q lid slot w wid).map (fun k => k / 16)).eraseDups.flatMap (fun d => (List.range 128).map (fun i => 128 * d + i)) ++
          (List.range 128).map (fun i => 128 * (s.rank slot).homedie + i) ++ (List.range 128).map (fun i => 128 * s.idleDie + i) := by
  simp only [State.coreOrder, List.flatMap_def, upto_mul]

/-! What fits a core (R47). -/

section
variable {s : State} {c q slot : Nat} {l : Launch} {e : Entry}

theorem State.fitsFree_iff (k : Nat) : s.fitsFree k e = true ↔
    s.coreFenced k = false ∧ s.stream (2 * k) = none ∧ s.stream (2 * k + 1) = none ∧ e.grans ≤ (s.freeGrans k).length := by
  simp [State.fitsFree, Nat.mul_comm k 2, and_assoc]

theorem State.fitsBeside_iff {k : Nat} {x : Stream} (hx : s.stream (2 * k) = some x) : s.fitsBeside k c e = true ↔
    s.coreFenced k = false ∧ s.stream (2 * k + 1) = none ∧ e.tiles = 4 ∧ e.pair = true ∧ e.grans ≤ (s.freeGrans k).length ∧ x.ctx = c ∧
      x.tiles4 = true ∧ x.pair = true ∧ x.grans + e.grans ≤ 16 := by
  simp [State.fitsBeside, Nat.mul_comm k 2, hx, and_assoc]

/-- A free core is taken before a place beside a primary (R48). -/
theorem State.chooseCore_free {pre post : List Nat} {k : Nat} (horder : s.coreOrder c q l.lid slot l.widths e.wid = pre ++ k :: post)
    (hk : s.fitsFree k e = true) (hpre : ∀ v ∈ pre, s.fitsFree v e = false) : s.chooseCore c q l slot e = some (2 * k) := by
  have hfind : (s.coreOrder c q l.lid slot l.widths e.wid).find? (fun k => s.fitsFree k e) = some k :=
    List.find?_eq_some_iff_append.mpr ⟨hk, pre, post, horder, fun v hv => by simp [hpre v hv]⟩
  simp [State.chooseCore, hfind, Nat.mul_comm]

theorem State.chooseCore_notFree (hfree : ∀ v ∈ s.coreOrder c q l.lid slot l.widths e.wid, s.fitsFree v e = false) :
    s.chooseCore c q l slot e = ((s.coreOrder c q l.lid slot l.widths e.wid).find? (fun k => s.fitsBeside k c e)).map (fun k => 2 * k + 1) := by
  have hfind : (s.coreOrder c q l.lid slot l.widths e.wid).find? (fun k => s.fitsFree k e) = none :=
    List.find?_eq_none.mpr fun v hv => by simp [hfree v hv]
  simp [State.chooseCore, hfind, Nat.mul_comm]

theorem State.chooseCore_beside {pre post : List Nat} {k : Nat} (horder : s.coreOrder c q l.lid slot l.widths e.wid = pre ++ k :: post)
    (hfree : ∀ v ∈ s.coreOrder c q l.lid slot l.widths e.wid, s.fitsFree v e = false) (hk : s.fitsBeside k c e = true)
    (hpre : ∀ v ∈ pre, s.fitsBeside v c e = false) : s.chooseCore c q l slot e = some (2 * k + 1) := by
  have hfind : (s.coreOrder c q l.lid slot l.widths e.wid).find? (fun k => s.fitsBeside k c e) = some k :=
    List.find?_eq_some_iff_append.mpr ⟨hk, pre, post, horder, fun v hv => by simp [hpre v hv]⟩
  rw [State.chooseCore_notFree hfree, hfind, Option.map_some]

theorem State.chooseCore_none
    (h : ∀ v ∈ s.coreOrder c q l.lid slot l.widths e.wid, s.fitsFree v e = false ∧ s.fitsBeside v c e = false) : s.chooseCore c q l slot e = none := by
  have hfind : (s.coreOrder c q l.lid slot l.widths e.wid).find? (fun k => s.fitsBeside k c e) = none :=
    List.find?_eq_none.mpr fun v hv => by simp [(h v hv).2]
  rw [State.chooseCore_notFree fun v hv => (h v hv).1, hfind, Option.map_none]

end

/-- Which queue comes first: of those that could run a task, the one of the least virtual time, then the lower context, then the lower queue (R49). -/
theorem State.winner_iff (s : State) (c q : Nat) : s.winner c q = true ↔ ∀ d ∈ s.queues, d ≠ (c, q) → s.placeable d = true ∨ s.resumable d = true →
    s.vt c q < s.vt d.1 d.2 ∨ (s.vt c q = s.vt d.1 d.2 ∧ (c < d.1 ∨ (c = d.1 ∧ q ≤ d.2))) := by
  have hearlier (d : Nat × Nat) : s.earlier d (c, q) = false ↔
      s.vt c q < s.vt d.1 d.2 ∨ (s.vt c q = s.vt d.1 d.2 ∧ (c < d.1 ∨ (c = d.1 ∧ q ≤ d.2))) := by
    rw [← Bool.not_eq_true]
    simp only [State.earlier, Bool.or_eq_true, Bool.and_eq_true, decide_eq_true_eq, beq_iff_eq]
    omega
  simp only [State.winner, Bool.not_eq_true', List.any_eq_false, Bool.and_eq_true, bne_iff_ne, Bool.or_eq_true, ← hearlier]
  refine forall₂_congr fun d _ => ⟨fun h hne hmay => ?_, fun h hall => ?_⟩
  · exact Bool.eq_false_iff.mpr fun he => h ⟨⟨hne, he⟩, hmay⟩
  · exact absurd hall.1.2 (Bool.eq_false_iff.mp (h hall.1.1 hall.2))

end Sys2Proof.Machine
end

section
/-! The start of a ready task of a lone launch (R26, R27, R41, R44, R47-R49): reading its entry through the tables of the home die, the search for the next
task, and a core for it. -/

namespace Sys2Proof.Machine

/-! Cutting an access (R237). -/

/-- An access within one block is one run. -/
theorem cut_single {step a n : Nat} (hn : 0 < n) (h : a % step + n ≤ step) : cut step a n = [(a, n)] := by
  have hmin : min n (step - a % step) = n := Nat.min_eq_left (by omega)
  rw [cut, chunks, if_neg (by omega)]
  dsimp only
  rw [hmin, Nat.sub_self, chunks, if_pos rfl]

/-- Every run starts within the access. -/
theorem mem_chunks_bounds {step f a n : Nat} {r : Nat × Nat} (h : r ∈ chunks step f a n) : a ≤ r.1 ∧ r.1 < a + n := by
  induction f generalizing a n with
  | zero => cases h
  | succ f ih =>
    rw [chunks] at h
    split_ifs at h with hn
    · cases h
    · rcases List.mem_cons.mp h with rfl | h
      · exact ⟨le_rfl, by dsimp only; omega⟩
      · have := ih h
        omega

/-- With enough fuel the runs are the whole access. -/
theorem flatMap_upto_chunks {step f a n : Nat} (hstep : 0 < step) (hfuel : a % step + n ≤ f * step) :
    (chunks step f a n).flatMap (fun r => upto r.1 r.2) = upto a n := by
  induction f generalizing a n with
  | zero =>
    obtain rfl : n = 0 := by omega
    rfl
  | succ f ih =>
    have hmod := Nat.mod_lt a hstep
    rw [Nat.succ_mul] at hfuel
    rw [chunks]
    split_ifs with hn
    · rw [hn]; rfl
    · dsimp only
      rw [List.flatMap_cons]
      by_cases hlast : n ≤ step - a % step
      · rw [Nat.min_eq_left hlast, Nat.sub_self]
        cases f <;> simp [chunks]
      · have hk : min n (step - a % step) = step - a % step := Nat.min_eq_right (by omega)
        have halign : (a + (step - a % step)) % step = 0 := by
          have hnext : a + (step - a % step) = step * (a / step + 1) := by
            have hdiv := Nat.div_add_mod a step
            rw [Nat.mul_add, Nat.mul_one]
            omega
          rw [hnext, Nat.mul_mod_right]
        rw [hk, ih (by rw [halign]; omega)]
        simp only [upto_eq_range']
        rw [List.range'_append_1]
        congr 1
        omega

theorem flatMap_upto_cut {step : Nat} (hstep : 0 < step) (a n : Nat) : (cut step a n).flatMap (fun r => upto r.1 r.2) = upto a n := by
  refine flatMap_upto_chunks hstep ?_
  have hmod := Nat.mod_lt a hstep
  have hdiv := Nat.lt_mul_div_succ n hstep
  calc a % step + n ≤ step + step * (n / step + 1) := by omega
    _ = (n / step + 2) * step := by ring

/-- Bytes just after one that a stack holds lie on its die (R232). -/
theorem paDie_of_near {a b : Nat} (h : hbmExists a = true) (hab : a ≤ b) (hb : b < a + 4096) : paDie b = paDie a := by
  have hstack : a % 2 ^ 37 < 96000000000 := of_decide_eq_true (Bool.and_eq_true_iff.mp h).2
  have hsame : b / 2 ^ 37 = a / 2 ^ 37 := by omega
  rw [paDie, hsame, paDie]

/-! Reading an entry of the task table (R26, R27, R303). -/

section
variable {s : State} {slot a n : Nat} {p : Tlb} (hpage : s.rankPage slot a n p)
include hpage

/-- The tables of a rank's page are those of its home die, which is a die of the module. -/
theorem State.homeCore_of_rankPage : s.homeCore slot < 512 := by
  obtain ⟨-, -, -, -, -, -, -, hdie, -, -⟩ := hpage
  simp only [paDie, coreDie, State.homeCore] at hdie ⊢
  omega

/-- An agent's read of the page is one piece. -/
theorem State.agentPieces_rankPage (hn : 0 < n) :
    s.agentPieces (s.listAgent slot) slot a n .eread = .ok ([⟨a, n, .glob (p.phys a) p⟩], s) := by
  have hcore := State.homeCore_of_rankPage hpage
  obtain ⟨hend, hpage4, htlb, hpsn, hpoison, hhome, hexists, -, -, -⟩ := hpage
  have hagent : s.listAgent slot % 512 = s.homeCore slot := by rw [State.listAgent, agentOf]; omega
  have hspw : Config.spwbase < 2 ^ 56 := by decide
  have hwin : inWindow a = false := by simp [inWindow]; omega
  have hleaf : s.leaf (s.homeCore slot) slot a .eread = .ok (p, false, s) := by
    have hnoCore : AKind.eread.engine = true := rfl
    simp [State.leaf, hnoCore, htlb, State.tlbAdd]
  have hxlat : s.xlat (s.homeCore slot) slot a .eread = .ok (p, s) := by
    have hread : AKind.eread.writes = false := rfl
    have hdata : (AKind.eread == AKind.fetch) = false := rfl
    simp only [State.xlat, hleaf]
    rw [if_neg (by omega), if_neg (by simp [hpsn, hpoison]), if_neg (by simp [hread]), if_neg (by simp [hdata]), if_neg (by simp [hhome]),
      if_neg (by simp [hexists])]
  have hplace : s.pieces (agentStream slot (s.rank slot).ctx) (s.homeCore slot) a n .eread = .ok ([⟨a, n, .glob (p.phys a) p⟩], s) := by
    simp [State.pieces, cut_single hn hpage4, State.placeAll, State.place, hwin, agentStream, hxlat]
  unfold State.agentPieces
  rw [hagent, hplace]
  simp [hhome]

/-- The runs of an agent's read of the home die's memory are its bytes, and leave nothing behind. -/
theorem State.foldl_readRun_home {key ctx die : Nat} {rs : List (Nat × Nat)} (hdie : coreDie (key / 2) = die) (hrs : ∀ r ∈ rs, paDie r.1 = die)
    (f : Nat → Nat) (acc : List Byte) :
    rs.foldl (fun (b : List Byte × State) r => (b.1 ++ (b.2.readRun key slot ctx (f r.1) r.1 r.2 p false).1,
      (b.2.readRun key slot ctx (f r.1) r.1 r.2 p false).2)) (acc, s) = (acc ++ (rs.flatMap (fun r => upto r.1 r.2)).map (s.homeByte ctx p.buf), s) := by
  obtain ⟨-, -, -, -, -, hhome, -, -, -, -⟩ := hpage
  induction rs generalizing acc with
  | nil => simp
  | cons r rs ih =>
    have hrun : s.readRun key slot ctx (f r.1) r.1 r.2 p false = (s.homeBytes ctx p.buf r.1 r.2, s) := by
      have hhere : paDie r.1 = coreDie (key / 2) := (hrs r List.mem_cons_self).trans hdie.symm
      simp [State.readRun, hhome, hhere]
    rw [List.foldl_cons, hrun]
    dsimp only
    rw [ih fun r hr => hrs r (List.mem_cons_of_mem _ hr)]
    simp [State.homeBytes]

/-- The read of such a page by its rank's agents gives the bytes at their home, and leaves the state as it is. -/
theorem State.listRead_rankPage (hn : 0 < n) : s.listRead slot a n = .ok (s.homeBytes (s.rank slot).ctx p.buf (p.phys a) n, s) := by
  have hcore := State.homeCore_of_rankPage hpage
  have hpieces := State.agentPieces_rankPage hpage hn
  have hagent : s.listAgent slot % 512 = s.homeCore slot := by rw [State.listAgent, agentOf]; omega
  have hfold := State.foldl_readRun_home hpage (key := 2 * s.homeCore slot) (ctx := (s.rank slot).ctx) (die := coreDie (s.homeCore slot))
    (rs := cut 128 (p.phys a) n) (by rw [Nat.mul_div_cancel_left _ (by decide)])
  obtain ⟨-, hpage4, -, -, -, hhome, hexists, hdie, hbump, hrq⟩ := hpage
  have hlines : s.streamLines [⟨a, n, .glob (p.phys a) p⟩] = [] := by
    have hhomes (b : Nat) : s.homeOf 0#2 b = 0#2 := by simp [State.homeOf]
    simp [State.streamLines, State.streamed, hhome, hhomes]
  have hwait : s.piecesWait (s.rank slot).ctx 2048 [⟨a, n, .glob (p.phys a) p⟩] = false := by
    have hbanks : s.bankHeld 2048 [] = false := by
      refine List.any_eq_false.mpr fun e _ => ?_
      split <;> simp
    have hnoBump : p.buf.toNat ∉ (s.ctxAt (s.rank slot).ctx).bumps := by simpa using hbump
    simp [State.piecesWait, State.bumping, winKeys, hbanks, State.dramWait, hlines, hnoBump]
  have hfresh : s.freshen (coreDie (s.homeCore slot)) (p.phys a) n = s := by
    refine List.foldl_fixed' (fun r => ?_) _
    have hnone : s.mem.rq.filter (fun q => q.dst == coreDie (s.homeCore slot) &&
        serialLe (q.clock.getD q.src 0) ((s.mem.lclk.at (r.1 / 128) []).getD q.src 0)) = [] :=
      List.filter_eq_nil_iff.mpr fun q hq => by simp [hrq q hq]
    rw [State.settle, hnone]
    rfl
  have hread : s.readPiece s.mem.spad (2 * s.homeCore slot) slot (s.rank slot).ctx ⟨a, n, .glob (p.phys a) p⟩ false =
      (s.homeBytes (s.rank slot).ctx p.buf (p.phys a) n, s) := by
    have hruns := hfold (fun r hr => by
      obtain ⟨hlo, hhi⟩ := mem_chunks_bounds hr
      exact (paDie_of_near hexists hlo (by omega)).trans hdie) (fun b => a + (b - p.phys a)) []
    rw [flatMap_upto_cut (by decide)] at hruns
    simp only [State.readPiece, hhome]
    rw [if_neg (show ¬(0 : BitVec 2) = 2 by decide), hruns]
    rfl
  unfold State.listRead State.agentRead
  rw [hpieces]
  dsimp only
  rw [hagent, hwait]
  simp only [Bool.false_eq_true, if_false, if_true, List.foldl_cons, List.foldl_nil, hfresh, hlines, State.latDone, State.readPieces, hread,
    List.append_nil]

end

theorem fld_eq_wbits (w : List Word64) (k hi lo : Nat) : fld (wordAt w k) hi lo = wbits w k hi lo := by
  rw [fld, Nat.shiftRight_eq_div_pow, wbits]

/-- The words of an entry name what it says (R26). -/
def Entry.of (e : Entry) (w : List Word64) : Prop :=
  wbits w 2 63 16 = 0 ∧ wbits w 2 15 11 ≤ 20 ∧ e.wid = wordAt w 0 ∧ e.pred = wbits w 1 63 48 ∧ e.heat = wbits w 1 47 32 ∧ e.off = wbits w 1 31 0 ∧
    e.pair = (wordAt w 2).getLsbD 10 ∧ e.grans = wbits w 2 9 5 ∧ e.tiles = wbits w 2 4 0 ∧ e.succ.length = wbits w 2 15 11 ∧
    ∀ i, i < e.succ.length → e.succ.getD i 0 = wbits w (3 + i / 4) (16 * (i % 4) + 15) (16 * (i % 4))

/-- A sound entry of a launch in free mode stands (R27). -/
theorem State.readEntry_good {s : State} {l : Launch} {slot i : Nat} {e : Entry} {w : List Word64} (hw : s.entryWords l slot i = .ok w) (he : e.of w)
    (hdet : l.det = false) (hsucc : ∀ t ∈ e.succ, t < l.taskcnt) (htiles : e.tiles = 4 ∨ e.tiles = 8) (hmax : e.tiles ≤ l.tiles)
    (hgrans : e.grans ≤ l.grans) (hgrans16 : e.grans ≤ 16) : s.readEntry l slot i = .good e := by
  obtain ⟨hrsv, hcount, hwid, hpred, hheat, hoff, hpair, hg, ht, hlen, hget⟩ := he
  have hlist : (upto 0 (min (wbits w 2 15 11) 20)).map (fun j => wbits w (3 + j / 4) (16 * (j % 4) + 15) (16 * (j % 4))) = e.succ := by
    rw [Nat.min_eq_left hcount, ← hlen, upto_eq_range', ← List.range_eq_range']
    refine List.ext_getElem (by simp) fun j _ hj => ?_
    rw [List.getElem_map, List.getElem_range, ← hget j hj, List.getD_eq_getElem _ _ hj]
  have hnone : e.succ.any (fun t => decide (l.taskcnt ≤ t)) = false := List.any_eq_false.mpr fun t ht => by simpa using hsucc t ht
  have hbadTiles : (decide (e.tiles ≠ 4) && decide (e.tiles ≠ 8)) = false := by rcases htiles with h | h <;> simp [h]
  unfold State.readEntry
  simp only [hw, fld_eq_wbits, hlist, ← hg, ← ht, hdet, hnone, hbadTiles, hrsv, ← hpred, ← hheat, ← hoff, ← hpair, ← hwid]
  simp [Nat.not_lt.mpr hcount, Nat.not_lt.mpr hmax, Nat.not_lt.mpr hgrans, Nat.not_lt.mpr hgrans16]

/-! The lone launch (R44, R47-R49). -/

/-- The next task of a rank in free mode, whose lower tasks have all started: the lowest unstarted one, once its count is reached. -/
theorem State.nextTask_next {s : State} {l : Launch} {r : LRank} {task : Nat} {e : Entry} (hdisc : r.discarded = false) (hbad : r.bad = false)
    (hcatch : (s.rank r.slot).caughtExec = false) (hactive : (s.rank r.slot).state = .active) (hdet : l.det = false)
    (hstarted : r.started = List.range task) (htask : task < l.taskcnt) (hentry : s.readEntry l r.slot task = .good e)
    (hready : e.pred ≤ r.decs.at task 0) (hheat : e.heat < 65536) : s.nextTask l r = some (task, .good e) := by
  obtain ⟨rest, hsplit⟩ : ∃ rest, upto 0 l.taskcnt = List.range task ++ task :: rest := by
    obtain ⟨d, hd⟩ := Nat.exists_eq_add_of_lt htask
    exact ⟨_, by rw [upto_eq_range', ← List.range_eq_range', hd, Nat.add_assoc, List.range_add, List.range_succ_eq_map]; rfl⟩
  have hwaits : ¬(r.discarded || r.bad || (s.rank r.slot).caughtExec || decide ((s.rank r.slot).state ≠ .active)) = true := by
    simp [hdisc, hbad, hcatch, hactive]
  unfold State.nextTask
  rw [if_neg hwaits, hdet, hstarted, hsplit]
  simp only [Bool.false_eq_true, if_false]
  rw [List.findSome?_append, List.findSome?_eq_none_iff.mpr fun i hi => if_pos (by simpa using hi)]
  simp [hentry, LRank.ready, hready, Nat.lt_succ_iff.mp hheat]

section
variable {s : State} {c q task : Nat} {l : Launch} {r : LRank} {e : Entry} (h : s.mayStart c q l r task e)
include h

theorem State.readEntry_mayStart : s.readEntry l r.slot task = .good e := by
  obtain ⟨-, -, -, -, -, -, -, hdet, -, -, -, -, hctx, -, -, ⟨p, hpage, hentry⟩, hsucc, htiles, hmax, hgrans, hgrans16, -, -, -⟩ := h
  have hread := State.listRead_rankPage hpage (by decide)
  rw [hctx] at hread
  refine State.readEntry_good (w := words64 (s.homeBytes c p.buf (p.phys (l.tasktab + 64 * task)) 64)) ?_ hentry hdet hsucc htiles hmax hgrans hgrans16
  rw [State.entryWords, hread]

theorem State.startable_mayStart : s.startable c q = [(l, r, task, .good e)] := by
  have hgood := State.readEntry_mayStart h
  obtain ⟨-, hqueue, hweight, -, hranks, hstarted, hdone, hdet, hdisc, hbad, hcatch, hactive, -, htasks, htask, ⟨p, -, hentry⟩, -, -, -, -, -, hready, -,
    -⟩ := h
  have hheat : e.heat < 65536 := by
    obtain ⟨-, -, -, -, hheat, -⟩ := hentry
    rw [hheat]
    exact Nat.mod_lt _ (by decide)
  have hnext := State.nextTask_next hdisc hbad hcatch hactive hdet htasks htask hgood hready hheat
  simp [State.startable, hweight, hqueue, hranks, hstarted, hdone, hnext]

theorem State.picks_mayStart : s.picks c q l r task (.good e) := by
  simp [State.picks, State.startable_mayStart h]

/-- A core of the home die is free, so there is one for the task. -/
theorem State.chooseCore_mayStart : ∃ k, s.chooseCore c q l r.slot e = some k := by
  obtain ⟨-, -, -, -, -, -, -, -, -, -, -, -, -, -, -, -, -, -, -, -, -, -, ⟨n, hlo, hhi, hfence, hprim, hsec, hroom⟩, -⟩ := h
  have hfits : s.fitsFree n e = true := (State.fitsFree_iff n).mpr ⟨hfence, hprim, hsec, hroom⟩
  have hmem : n ∈ s.coreOrder c q l.lid r.slot l.widths e.wid := by
    rw [State.coreOrder_eq]
    refine List.mem_append_left _ (List.mem_append_right _ (List.mem_map.mpr ⟨n - 128 * (s.rank r.slot).homedie, ?_, ?_⟩))
    · exact List.mem_range.mpr (by omega)
    · omega
  obtain ⟨k, hk⟩ := Option.isSome_iff_exists.mp (List.find?_isSome (p := fun k => s.fitsFree k e) |>.mpr ⟨n, hmem, hfits⟩)
  exact ⟨k * 2, by simp [State.chooseCore, hk]⟩

theorem State.notResumable_mayStart : s.resumable (c, q) = false := by
  obtain ⟨-, -, -, hsaved, -⟩ := h
  simp [State.resumable, hsaved]

/-- No other queue has a task to start or to resume. -/
theorem State.winner_mayStart : s.winner c q = true := by
  obtain ⟨-, -, -, -, -, -, -, -, -, -, -, -, -, -, -, -, -, -, -, -, -, -, -, hothers⟩ := h
  refine (s.winner_iff c q).mpr fun d hd hne hmay => absurd hmay ?_
  obtain ⟨hempty, hsaved⟩ := hothers d hd hne
  simp [State.placeable, State.startable, hempty, State.resumable, hsaved]

theorem taskStart_mayStart : ∃ k, s.chooseCore c q l r.slot e = some k ∧
    exec (.taskStart c q l.serial r.slot task) s = .next (s.rebase.bind k c q l r.slot task e) := by
  obtain ⟨k, hk⟩ := State.chooseCore_mayStart h
  exact ⟨k, hk, taskStart_binds (State.picks_mayStart h) hk (State.winner_mayStart h) (State.notResumable_mayStart h)⟩

end

end Sys2Proof.Machine
end

section
/-! The state of a task at its start (R31): what is cleared before it, its first registers, and what its binding leaves of the rank. -/

namespace Sys2Proof.Machine

/-! Cleared ranges. -/

theorem Cells.get_of_unlisted {w : Nat} {m : Cells w} {a : Nat} (h : ∀ e ∈ m, e.1 ≠ a) : m.get a = 0 := by
  induction m with
  | nil => rfl
  | cons e r ih =>
    obtain ⟨k, v⟩ := e
    have hk : ¬a = k := fun hak => h (k, v) List.mem_cons_self hak.symm
    rw [Cells.get, if_neg hk]
    split
    · rfl
    · exact ih fun e he => h e (List.mem_cons_of_mem _ he)

theorem Cells.not_mem_zero {w : Nat} {m : Cells w} {a n : Nat} {e : Nat × BitVec w} (he : e ∈ m.zero a n) : ¬(a ≤ e.1 ∧ e.1 < a + n) := by
  have h := (List.mem_filter.mp he).2
  simp only [Bool.or_eq_true, decide_eq_true_eq] at h
  omega

theorem Cells.get_zero_within {w : Nat} (m : Cells w) {a n i : Nat} (hlo : a ≤ i) (hhi : i < a + n) : (m.zero a n).get i = 0 :=
  Cells.get_of_unlisted fun _ he hei => Cells.not_mem_zero he (hei ▸ ⟨hlo, hhi⟩)

/-- No byte and no full/empty bit of a granule is listed. -/
def MemSys.Blank (m : MemSys) (core g : Nat) : Prop :=
  (∀ e ∈ m.spad, ¬(core * 2 ^ 20 + g * 65536 ≤ e.1 ∧ e.1 < core * 2 ^ 20 + g * 65536 + 65536)) ∧
    ∀ e ∈ m.fe, ¬((core * 2 ^ 20 + g * 65536) / 4 ≤ e.1 ∧ e.1 < (core * 2 ^ 20 + g * 65536) / 4 + 16384)

theorem MemSys.blank_clearGran (m : MemSys) (core g : Nat) : (m.clearGran core g).Blank core g :=
  ⟨fun _ he => Cells.not_mem_zero (w := 8) (m := m.spad) he, fun _ he => Cells.not_mem_zero he⟩

theorem MemSys.Blank.clearGran {m : MemSys} {core g : Nat} (h : m.Blank core g) (g' : Nat) : (m.clearGran core g').Blank core g :=
  ⟨fun e he => h.1 e (List.mem_filter.mp he).1, fun e he => h.2 e (List.mem_filter.mp he).1⟩

/-- Granules cleared one after another are all blank. -/
theorem MemSys.blank_clearGrans (m : MemSys) (core : Nat) (gs : List Nat) : ∀ g ∈ gs, (gs.foldl (fun m g => m.clearGran core g) m).Blank core g := by
  induction gs using List.reverseRecOn with
  | nil => exact fun g hg => absurd hg List.not_mem_nil
  | append_singleton l g ih =>
    intro h hh
    rw [List.foldl_append]
    rcases List.mem_append.mp hh with hold | hnew
    · exact (ih h hold).clearGran g
    · rw [List.mem_singleton.mp hnew]
      exact MemSys.blank_clearGran ..

theorem MemSys.Blank.reads {m : MemSys} {core g : Nat} (h : m.Blank core g) {i : Nat} (hi : i < 65536) :
    m.spad.get (core * 2 ^ 20 + g * 65536 + i) = 0 ∧ m.fe.get ((core * 2 ^ 20 + g * 65536 + i) / 4) = 0 := by
  constructor
  · exact Cells.get_of_unlisted (w := 8) fun e he hei => h.1 e he (by omega)
  · exact Cells.get_of_unlisted fun e he hei => h.2 e he (by omega)

/-! Binding. -/

theorem State.coreOf_putCore_same (s : State) (c : Nat) (x : Core) : (s.putCore c x).coreOf c = x := by
  unfold State.putCore State.coreOf
  split
  case isTrue => rfl
  case isFalse => exact Tbl.at_put_same ..

/-- The core and its granules as a new task finds them: pinned lines given up, tiles, microprogram and granules cleared (R31, R235). -/
def State.cleared (s : State) (key : Nat) (e : Entry) (gs : List Nat) : State :=
  let t := s.shrinkPins (key / 2) gs
  let t := t.putCore (key / 2) ((t.coreOf (key / 2)).clearFor (e.tiles == 4) (key % 2 == 1))
  { t with mem := gs.foldl (fun m g => m.clearGran (key / 2) g) t.mem }

theorem State.cleared_offMemory (s : State) (key : Nat) (e : Entry) (gs : List Nat) : (s.cleared key e gs).offMemory = s.offMemory :=
  (State.putCore_offMemory ..).trans (s.unpinIf_offMemory ..)

theorem State.cleared_coreOf (s : State) (key : Nat) (e : Entry) (gs : List Nat) : ((s.cleared key e gs).coreOf (key / 2)) =
    ((s.shrinkPins (key / 2) gs).coreOf (key / 2)).clearFor (e.tiles == 4) (key % 2 == 1) :=
  State.coreOf_putCore_same (s.shrinkPins (key / 2) gs) _ _

/-- Where no granule is on its way, none is delivered. -/
theorem State.deliverAll_none {s : State} (h : ∀ o ∈ s.ops, ∀ a b d g, o.kind ≠ .gran a b d g) (key : Nat) : s.deliverAll key = s := by
  refine foldl_fixed_of_mem fun o ho => ?_
  split
  case h_1 a b d g _ heq _ => exact absurd heq (h o ho a b d g)
  case h_2 => rfl

section
variable {s : State} (key c q : Nat) (l : Launch) (slot task : Nat) (e : Entry)

/-- The launch with one more task started on a rank. -/
def State.countStarted (s : State) (c q : Nat) (l : Launch) (slot task : Nat) : State :=
  s.modLaunch c q l.serial (fun l =>
    { l with ranks := mapIf (fun r => r.slot == slot) (fun r => { r with started := r.started ++ [task] }) l.ranks })

theorem State.countStarted_offCtxs (s : State) : (s.countStarted c q l slot task).offCtxs = s.offCtxs := s.modCtx_offCtxs ..

variable (hops : ∀ o ∈ s.ops, ∀ a b d g, o.kind ≠ .gran a b d g)
include hops

/-- A task's binding where no granule is on its way: the cleared core, the first state, and the launch's count. -/
theorem State.bind_eq : s.bind key c q l slot task e =
    ((s.cleared key e ((s.freeGrans (key / 2)).take e.grans)).putStream key
      (taskStream (s.ctxAt c) c q l slot (s.rank slot) task e ((s.freeGrans (key / 2)).take e.grans) s.cycle.toNat)).countStarted c q l slot task := by
  let gs := (s.freeGrans (key / 2)).take e.grans
  let t := s.cleared key e gs
  have hframe : t.offMemory = s.offMemory := s.cleared_offMemory key e gs
  have hctx : t.ctxAt c = s.ctxAt c := (congrArg (fun u : State => u.ctxAt c) hframe :)
  have hrank : t.rank slot = s.rank slot := (congrArg (fun u : State => u.rank slot) hframe :)
  have hcycle : t.cycle = s.cycle := (congrArg State.cycle hframe :)
  let u := (t.putStream key (taskStream (t.ctxAt c) c q l slot (t.rank slot) task e gs t.cycle.toNat)).countStarted c q l slot task
  have huops : u.ops = s.ops := calc
    u.ops = (t.putStream key _).ops := (congrArg State.ops (State.countStarted_offCtxs c q l slot task _) :)
    _ = t.ops := State.ops_putStream ..
    _ = s.ops := State.ops_of_offMemory hframe
  have hnone : u.deliverAll key = u := State.deliverAll_none (huops ▸ hops) key
  change u.deliverAll key = _
  rw [hnone, ← hctx, ← hrank, ← hcycle]

theorem State.bind_stream : (s.bind key c q l slot task e).stream key =
    some (taskStream (s.ctxAt c) c q l slot (s.rank slot) task e ((s.freeGrans (key / 2)).take e.grans) s.cycle.toNat) := by
  rw [State.bind_eq key c q l slot task e hops]
  exact ((congrArg (fun u : State => u.stream key) (State.countStarted_offCtxs c q l slot task _) :)).trans (State.stream_putStream_same ..)

theorem State.bind_core : (s.bind key c q l slot task e).coreOf (key / 2) =
    ((s.shrinkPins (key / 2) ((s.freeGrans (key / 2)).take e.grans)).coreOf (key / 2)).clearFor (e.tiles == 4) (key % 2 == 1) := by
  rw [State.bind_eq key c q l slot task e hops, ← State.cleared_coreOf]
  exact ((congrArg (fun u : State => u.coreOf (key / 2)) (State.countStarted_offCtxs c q l slot task _) :)).trans
    (congrArg (fun u : State => u.coreOf (key / 2)) (State.putStream_offStreams _ key _) :)

theorem State.bind_mem : (s.bind key c q l slot task e).mem = (s.cleared key e ((s.freeGrans (key / 2)).take e.grans)).mem := by
  rw [State.bind_eq key c q l slot task e hops]
  exact (State.mem_of_offCtxs (State.countStarted_offCtxs c q l slot task _)).trans (State.mem_putStream ..)

theorem State.bind_rank (i : Nat) : (s.bind key c q l slot task e).rank i = s.rank i := by
  refine State.rank_congr ?_ i
  rw [State.bind_eq key c q l slot task e hops, State.ranks_of_offCtxs (State.countStarted_offCtxs c q l slot task _), State.front_putStream,
    State.front_of_offMemory (s.cleared_offMemory ..)]

/-- The tiles of a new task are clear. -/
theorem State.bind_tiles {tiles : Nat × Nat} (htiles : tiles = if e.tiles = 4 then (if key % 2 = 1 then (4, 4) else (0, 4)) else (0, 8)) {i : Nat}
    (hlo : 4096 * tiles.1 ≤ i) (hhi : i < 4096 * (tiles.1 + tiles.2)) : ((s.bind key c q l slot task e).coreOf (key / 2)).mrf.get i = 0 := by
  have hrange : tileRange (e.tiles == 4) (key % 2 == 1) = tiles := by
    rw [htiles, tileRange]
    simp only [beq_iff_eq]
  rw [State.bind_core key c q l slot task e hops]
  simp only [Core.clearFor, hrange]
  exact Cells.get_zero_within _ hlo (by omega)

/-- The granules of a new task are clear. -/
theorem State.bind_grans {g i : Nat} (hg : g ∈ (s.freeGrans (key / 2)).take e.grans) (hi : i < 65536) :
    (s.bind key c q l slot task e).mem.spad.get (key / 2 * 2 ^ 20 + g * 65536 + i) = 0 ∧
      (s.bind key c q l slot task e).mem.fe.get ((key / 2 * 2 ^ 20 + g * 65536 + i) / 4) = 0 := by
  rw [State.bind_mem key c q l slot task e hops]
  exact (MemSys.blank_clearGrans _ (key / 2) _ g hg).reads hi

end

/-- The registers s1 to s3 of a new task, and the others (R31). -/
theorem get_puts_three (a b c : Word64) : ∃ m : Cells 64, Cells.puts (w := 64) [] [(1, a), (2, b), (3, c)] = m ∧ m.get 1 = a ∧ m.get 2 = b ∧ m.get 3 = c ∧
    ∀ r, r ≠ 1 → r ≠ 2 → r ≠ 3 → m.get r = 0 := by
  have h0 : Cells.wf (w := 64) [] = true := rfl
  have h1 := Cells.wf_set 1 a h0
  have h2 := Cells.wf_set 2 b h1
  refine ⟨_, rfl, ?_, ?_, Cells.get_set_same 3 c h2, fun r hr1 hr2 hr3 => ?_⟩
  · exact (Cells.get_set_other 3 1 c h2 (by decide)).trans ((Cells.get_set_other 2 1 b h1 (by decide)).trans (Cells.get_set_same 1 a h0))
  · exact (Cells.get_set_other 3 2 c h2 (by decide)).trans (Cells.get_set_same 2 b h1)
  · exact (Cells.get_set_other 3 r c h2 hr3).trans ((Cells.get_set_other 2 r b h1 hr2).trans (Cells.get_set_other 1 r a h0 hr1))

end Sys2Proof.Machine
end

section
/-! The end of a retirement (R345): every operation before a stream's removal leaves the streams on their cores and the kinship marks, and every one after
it does too. -/

namespace Sys2Proof.Machine

/-! Who sits where: what no operation on memory, ranks, contexts, requests or events changes. -/

/-- Whose a stream is: its context, queue, launch, rank and work identity. -/
def Stream.who (x : Stream) : Nat × Nat × Nat × Nat × Word64 := (x.ctx, x.queue, x.lid, x.slot, x.wid)

/-- The focus, whose the streams in and out of it are, and the kinship marks (R48). -/
def State.seats (s : State) : Bool × Nat × (Nat × Nat × Nat × Nat × Word64) × (Nat → Option (Nat × Nat × Nat × Nat × Word64)) ×
    List (Nat × Nat × Nat × Nat × Nat × Word64) :=
  (s.curLive, s.curKey, s.cur.who, fun k => (s.streams.find k).map Stream.who, s.front.lastRun)

section
variable {s t : State}

theorem State.seats_of_offMemory (h : t.offMemory = s.offMemory) : t.seats = s.seats := (congrArg State.seats h :)

theorem State.modCtx_seats (s : State) (c : Nat) (g : Ctx → Ctx) : (s.modCtx c g).seats = s.seats := (congrArg State.seats (s.modCtx_offCtxs c g) :)

theorem State.stream_of_seats {k : Nat} (h : t.seats = s.seats) : (t.stream k).map Stream.who = (s.stream k).map Stream.who := by
  obtain ⟨hlive, hkey, hcur, hfind, -⟩ : t.curLive = s.curLive ∧ t.curKey = s.curKey ∧ t.cur.who = s.cur.who ∧
      (fun k => (t.streams.find k).map Stream.who) = (fun k => (s.streams.find k).map Stream.who) ∧ t.front.lastRun = s.front.lastRun := by
    simpa [State.seats] using h
  simp only [State.stream, hlive, hkey]
  split
  · exact congrArg some hcur
  · exact congrFun hfind k

theorem State.putStream_seats {k : Nat} {x y : Stream} (hx : s.stream k = some x) (hwho : y.who = x.who) : (s.putStream k y).seats = s.seats := by
  cases h : s.curLive && k == s.curKey with
  | true =>
    have hcur : x = s.cur := by simpa [State.stream, h, eq_comm] using hx
    simp [State.putStream, h, State.seats, hwho, hcur]
  | false =>
    have hfind : s.streams.find k = some x := by simpa [State.stream, h] using hx
    have hput : (fun i => ((s.streams.put k y).find i).map Stream.who) = fun i => (s.streams.find i).map Stream.who := by
      funext i
      by_cases hi : i = k
      · subst hi
        rw [Tbl.find_put_same, hfind, Option.map_some, Option.map_some, hwho]
      · rw [Tbl.find_put_other _ _ _ _ hi]
    simp [State.putStream, h, State.seats, hput]

theorem State.modStream_seats (s : State) (k : Nat) {f : Stream → Stream} (hf : ∀ x, (f x).who = x.who) : (s.modStream k f).seats = s.seats := by
  unfold State.modStream
  split
  case h_1 x hx => exact State.putStream_seats hx (hf x)
  case h_2 => rfl

end

/-! Memory (R234, R257-R260, R273, R314). -/

theorem State.pinHome_offMemory (s : State) (slot va pa n : Nat) : (s.pinHome slot va pa n).offMemory = s.offMemory := by
  refine foldl_keeps State.offMemory _ _ _ fun a r => ?_
  dsimp only
  split <;> rfl

theorem State.landHome_offMemory (s : State) (w : PWrite) (pa n : Nat) (kept : List Nat) : (s.landHome w pa n kept).offMemory = s.offMemory :=
  State.feedReplicas_offMemory ..

theorem State.performRun_seats (s : State) (w : PWrite) (pa : Nat) (bytes : List Byte) : (s.performRun w pa bytes).1.seats = s.seats := by
  unfold State.performRun
  dsimp only
  split
  · exact State.seats_of_offMemory (State.landHome_offMemory ..)
  · split
    · exact (State.seats_of_offMemory (State.landHome_offMemory ..)).trans (s.modCtx_seats ..)
    · exact State.seats_of_offMemory (State.landHome_offMemory ..)

theorem State.countDrop_seats (s : State) (w : PWrite) : (s.countDrop w).seats = s.seats := s.modCtx_seats ..

theorem State.bucketCount_seats (s : State) (slot : Nat) (vas : List Nat) : (s.bucketCount slot vas).seats = s.seats := by
  unfold State.bucketCount
  dsimp only
  split <;> rfl

theorem State.perform_seats (s : State) (w : PWrite) : (s.perform w).seats = s.seats := by
  let s1 := if w.home = 2 then s.pinHome w.slot w.va w.pa w.bytes.length else s
  let done := (cut 128 w.pa w.bytes.length).foldl (fun (a : State × List Nat) r =>
    let v := a.1.performRun w r.1 ((w.bytes.drop (r.1 - w.pa)).take r.2)
    (v.1, a.2 ++ v.2)) (s1, [])
  let s2 := if w.tag.isSome && done.2.length < w.bytes.length && !w.dropped then done.1.countDrop w else done.1
  have h1 : s1.seats = s.seats := by
    dsimp only [s1]
    split
    · exact State.seats_of_offMemory (State.pinHome_offMemory ..)
    · rfl
  have hdone : done.1.seats = s1.seats := foldl_keeps (fun a : State × List Nat => a.1.seats) _ _ _ fun a r => State.performRun_seats ..
  have h2 : s2.seats = done.1.seats := by
    dsimp only [s2]
    split
    · exact State.countDrop_seats ..
    · rfl
  have h3 : (s.perform w).seats = s2.seats := by
    change (if w.cnt then s2.bucketCount w.slot done.2 else s2).seats = _
    split
    · exact State.bucketCount_seats ..
    · rfl
  exact h3.trans (h2.trans (hdone.trans h1))

theorem State.applyR_seats (s : State) (r : RWrite) : (s.applyR r).seats = s.seats := by
  unfold State.applyR
  dsimp only
  split
  · split
    · exact State.perform_seats ..
    · rfl
  · rfl

theorem State.roomFor_seats (s : State) (d : Nat) : (s.roomFor d).seats = s.seats := by
  unfold State.roomFor
  split
  · rfl
  · exact foldl_keeps State.seats _ _ _ fun a r => a.applyR_seats r

theorem State.settle_seats (s : State) (d : Nat) (clk : List Nat) : (s.settle d clk).seats = s.seats :=
  foldl_keeps State.seats _ _ _ fun a r => ((a.roomFor d).applyR_seats r).trans (a.roomFor_seats d)

theorem State.sendWrite_seats (s : State) (w : PWrite) : (s.sendWrite w).seats = s.seats := State.seats_of_offMemory (State.broadcast_offMemory ..)

theorem State.direct_seats (s : State) (id : Nat) : (s.direct id).seats = s.seats := by
  unfold State.direct
  split
  · rfl
  · next w _ =>
    let u := (s.roomFor (coreDie (w.key / 2))).roomFor (paDie w.pa)
    have hroom : u.seats = s.seats := (State.roomFor_seats ..).trans (State.roomFor_seats ..)
    refine Eq.trans ?_ hroom
    dsimp only
    split
    · exact State.perform_seats ..
    · have hsent : (if w.sent then u else u.sendWrite w).seats = u.seats := by
        split
        · rfl
        · exact State.sendWrite_seats ..
      split
      · exact (State.settle_seats ..).trans hsent
      · exact hsent

theorem State.force_seats (s : State) (id : Nat) : (s.force id).seats = s.seats := by
  unfold State.force
  split
  · rfl
  · exact (State.direct_seats ..).trans (foldl_keeps State.seats _ _ _ fun a v => a.direct_seats v.id)

theorem State.performAll_seats (s : State) (ids : List Nat) (p : Nat → Bool) : (s.performAll ids p).seats = s.seats := by
  have hforce : (ids.foldl (fun s i => s.force i) s).seats = s.seats := foldl_keeps State.seats (fun s i => s.force i) ids s fun a i => a.force_seats i
  have hsettle (u : State) (rs : List RWrite) : (rs.foldl (fun s r => s.settle r.dst r.clock) u).seats = u.seats := by
    refine foldl_keeps State.seats _ _ _ fun a r => ?_
    exact a.settle_seats r.dst r.clock
  rw [State.performAll, hsettle, hforce]

/-! Reads (R234, R258-R261). -/

theorem State.pinTouch_offMemory (s : State) (core slot ctx va line : Nat) (e : Tlb) : (s.pinTouch core slot ctx va line e).offMemory = s.offMemory := by
  unfold State.pinTouch
  dsimp only
  split
  · rfl
  · split
    · rfl
    · exact State.putCore_offMemory ..

theorem State.ownSeen_seats (s : State) (key line : Nat) : (s.ownSeen key line).seats = s.seats :=
  foldl_keeps State.seats _ _ _ fun a _ => a.settle_seats ..

theorem State.observe_seats (s : State) (key place pa n : Nat) : (s.observe key place pa n).seats = s.seats := by
  unfold State.observe
  dsimp only
  split
  · rfl
  · exact s.modStream_seats key fun _ => rfl

/-- A read observes only as one of the stream's own. -/
theorem State.observeOwn_seats (s : State) (own : Bool) (key place pa n : Nat) : (if own then s.observe key place pa n else s).seats = s.seats := by
  split
  · exact s.observe_seats ..
  · rfl

theorem State.readRun_seats (s : State) (key slot ctx va pa n : Nat) (e : Tlb) (own : Bool) : (s.readRun key slot ctx va pa n e own).2.seats = s.seats := by
  let u := if e.home = 3 then s.pinTouch (key / 2) slot ctx (va - pa % 128) (pa / 128) e else s
  have hu : u.seats = s.seats := by
    dsimp only [u]
    split
    · exact State.seats_of_offMemory (State.pinTouch_offMemory ..)
    · rfl
  refine Eq.trans ?_ hu
  unfold State.readRun
  dsimp only
  split
  · exact State.observeOwn_seats ..
  · split
    · exact State.observeOwn_seats ..
    · split
      · exact (State.observeOwn_seats ..).trans (State.ownSeen_seats ..)
      · let v := (u.ownSeen key (pa / 128)).settle (coreDie (key / 2)) ((u.ownSeen key (pa / 128)).mem.lclk.at (pa / 128) [])
        have hv : v.seats = u.seats := (State.settle_seats ..).trans (State.ownSeen_seats ..)
        let w := if own then v.observe key (paDie pa) pa n else v
        have hw : w.seats = u.seats := (v.observeOwn_seats own key (paDie pa) pa n).trans hv
        refine Eq.trans ?_ hw
        change (if w.homeOf e.home pa = 0 then (_, if Config.freePick w.draw.1 then w.draw.2.replicate ctx e.buf (pa / 128) (coreDie (key / 2)) else w.draw.2)
          else (_, w) : List Byte × State).2.seats = w.seats
        by_cases hhome : w.homeOf e.home pa = 0
        · rw [if_pos hhome]
          dsimp only
          split <;> rfl
        · rw [if_neg hhome]

/-- The runs of a piece, read one after another. -/
def readOn (key slot ctx pa : Nat) (e : Tlb) (own : Bool) (p : Piece) (a : List Byte × State) (r : Nat × Nat) : List Byte × State :=
  let v := a.2.readRun key slot ctx (p.va + (r.1 - pa)) r.1 r.2 e own
  (a.1 ++ v.1, v.2)

theorem State.readPiece_seats (s : State) (spad : Memory) (key slot ctx : Nat) (p : Piece) (own : Bool) :
    (s.readPiece spad key slot ctx p own).2.seats = s.seats := by
  unfold State.readPiece
  split
  · rfl
  · next pa e _ =>
    let u := if e.home = 2 then s.pinHome slot p.va pa p.n else s
    have hu : u.seats = s.seats := by
      dsimp only [u]
      split
      · exact State.seats_of_offMemory (State.pinHome_offMemory ..)
      · rfl
    exact (foldl_keeps (fun a : List Byte × State => a.2.seats) (readOn key slot ctx pa e own p) _ _ fun a r => State.readRun_seats ..).trans hu

theorem State.readParts_seats (ps : List RPart) (s : State) : (s.readParts ps).2.seats = s.seats := by
  induction ps generalizing s with
  | nil => rfl
  | cons p r ih =>
    obtain ⟨v, hv, hread⟩ : ∃ v : List Byte × State, v.2.seats = s.seats ∧ (s.readParts (p :: r)).2 = (v.2.readParts r).2 := by
      cases h : p.win with
      | some l => exact ⟨(l, s), rfl, by rw [State.readParts, h]⟩
      | none => exact ⟨_, State.readPiece_seats s [] s.curKey s.cur.slot s.cur.ctx p.piece true, by rw [State.readParts, h]⟩
    rw [hread, ih, hv]

theorem State.resolve_seats (s : State) (p : Pend) : (s.resolve p).seats = s.seats := by
  unfold State.resolve
  split
  · rfl
  · exact State.readParts_seats ..

theorem State.resolveAll_seats (s : State) : s.resolveAll.seats = s.seats := foldl_keeps State.seats _ _ _ fun a p => a.resolve_seats p

/-! Releases (R262, R265, R298). -/

theorem State.arriveAll_seats (s : State) (key : Nat) (before : Option Nat) : (s.arriveAll key before).seats = s.seats := by
  refine foldl_keeps State.seats _ _ _ fun a t => ?_
  dsimp only
  split <;> rfl

theorem State.sealOps_seats (s : State) (key level : Nat) (before : Option Nat) : (s.sealOps key level before).seats = s.seats := by
  unfold State.sealOps
  split <;> rfl

theorem State.relMem_seats (s : State) (key level : Nat) (before : Option Nat) : (s.relMem key level before).seats = s.seats := by
  refine (State.sealOps_seats ..).trans ((State.arriveAll_seats ..).trans ((State.performAll_seats ..).trans ?_))
  split
  · exact State.resolveAll_seats s
  · rfl

theorem State.relAll_seats (s : State) (key level : Nat) (before : Option Nat) : (s.relAll key level before).seats = s.seats := by
  refine (foldl_keeps State.seats _ _ _ fun a d => ?_).trans (s.relMem_seats key level before)
  split
  · exact State.settle_seats ..
  · rfl

/-! Leaving a core, and the frames of untaken traps (R69, R235). -/

theorem State.leaveCore_seats (s : State) (key slot : Nat) : (s.leaveCore key slot).seats = s.seats := by
  rw [State.leaveCore]
  generalize s.stream (if key % 2 = 0 then key + 1 else key - 1) = other
  split_ifs
  · rfl
  · exact State.seats_of_offMemory (State.unpinIf_offMemory ..)

theorem State.poisonFrame_seats (s : State) (frame : Nat) : (s.poisonFrame frame).seats = s.seats := by
  unfold State.poisonFrame
  dsimp only
  split
  · rfl
  · split <;> rfl

theorem State.contain_seats (s : State) (slot va frame : Nat) : (s.contain slot va frame).seats = s.seats := by
  refine Eq.trans ?_ (s.poisonFrame_seats frame)
  unfold State.contain
  dsimp only
  split <;> rfl

theorem State.containAll_seats (s : State) (slot : Nat) (ts : List TrapRec) : (s.containAll slot ts).seats = s.seats := by
  refine foldl_keeps State.seats _ _ _ fun a t => ?_
  split
  · exact State.contain_seats ..
  · rfl

/-! The catch (R348-R350). -/

theorem State.sendTo_seats (s : State) (n : Nat) (p : Pkt) : (s.sendTo n p).seats = s.seats := by
  unfold State.sendTo
  split <;> rfl

theorem State.readMap_seats (s : State) (c : Nat) (job : Word32) (i : Nat) : (s.readMap c job i).seats = s.seats := by
  unfold State.readMap
  split
  · dsimp only
    split
    · rfl
    · exact s.poisonFrame_seats _
  · rfl

theorem State.countCaught_seats (s : State) (k : Nat) (j : Job) (step : Word32) (n : Nat) : (s.countCaught k j step n).seats = s.seats := by
  unfold State.countCaught
  dsimp only
  split
  · rfl
  · refine (foldl_keeps State.seats _ _ _ fun a d => ?_).trans (foldl_keeps State.seats _ _ _ fun a r => a.readMap_seats ..)
    exact State.sendTo_seats ..

theorem State.reportCaught_seats (s : State) (c : Nat) (job : Word32) : (s.reportCaught c job).seats = s.seats := by
  unfold State.reportCaught
  split
  · rfl
  · next k j _ =>
    dsimp only
    split
    · rfl
    · split
      · exact (State.countCaught_seats ..).trans (foldl_keeps State.seats _ _ _ fun _ _ => rfl)
      · exact (State.sendTo_seats ..).trans (foldl_keeps State.seats _ _ _ fun _ _ => rfl)

theorem State.discardStep_seats (s : State) (c slot : Nat) (step : Word32) : (s.discardStep c slot step).seats = s.seats := s.modCtx_seats ..

theorem State.checkCaught_seats (s : State) (slot : Nat) : (s.checkCaught slot).seats = s.seats := by
  unfold State.checkCaught
  dsimp only
  split
  · rfl
  · split
    · rfl
    · split
      · rfl
      · exact (State.reportCaught_seats ..).trans (State.discardStep_seats ..)

/-! The removal of a stream. -/

theorem Tbl.find_of_unlisted {α : Type} {t : Tbl α} {a : Nat} (h : ∀ e ∈ t, e.1 ≠ a) : t.find a = none := by
  induction t with
  | nil => rfl
  | cons e r ih =>
    obtain ⟨k, v⟩ := e
    have hk : ¬a = k := fun hak => h (k, v) List.mem_cons_self hak.symm
    rw [Tbl.find, if_neg hk]
    split
    · rfl
    · exact ih fun e he => h e (List.mem_cons_of_mem _ he)

@[simp] theorem Tbl.find_del_same {α : Type} (t : Tbl α) (a : Nat) : (t.del a).find a = none :=
  Tbl.find_of_unlisted fun e he => by simpa using (List.mem_filter.mp he).2

/-- A stream's writes performed, its pinned lines given up, and the frames of its untaken traps contained. -/
def State.contained (s : State) (k : Nat) (x : Stream) : State :=
  let s := (s.relMem k 3).leaveCore k x.slot
  s.containAll x.slot (x.async ++ (s.ops.filter (fun o => o.key == k && o.kind == .trap)).filterMap (fun o => o.trap))

theorem State.contained_seats (s : State) (k : Nat) (x : Stream) : (s.contained k x).seats = s.seats := by
  rw [State.contained, State.containAll_seats, State.leaveCore_seats, State.relMem_seats]

/-- Its operations cut, and its requests and window receives withdrawn. -/
def State.cutOff (s : State) (k : Nat) (x : Stream) : State :=
  let s := s.keepSends k x
  let s := State.dropReqs { s with ops := s.ops.filter (fun o => !(o.key == k && o.abortable)) }
    ((s.treqs.filter (fun t => t.key == k && t.kind != .dep && !t.far)).map (fun t => t.id))
  let s := { s with treqs := mapIf (fun t => t.key == k) TReq.abandon s.treqs }
  let r := s.rank x.slot
  let own (p : Post) : Bool := p.key == k && p.window
  let r := { r with rows := r.rows.map (fun (e : Nat × Row) => (e.1, { e.2 with posted := e.2.posted.filter (fun p => !own p) })) }
  (s.putRank x.slot r).rekey x.slot k deadKey

theorem State.cutOff_seats (s : State) (k : Nat) (x : Stream) : (s.cutOff k x).seats = s.seats := rfl

/-- Its queue entries discarded: what of a stream's removal comes before its seat is emptied. -/
def State.undone (s : State) (k : Nat) (x : Stream) : State :=
  let s := (s.contained k x).cutOff k x
  let c := s.coreOf (k / 2)
  s.putCore (k / 2) { c with calls := c.calls.filter (fun q => q.key != k), done := c.done.set k 0 }

theorem State.undone_seats (s : State) (k : Nat) (x : Stream) : (s.undone k x).seats = s.seats := by
  rw [State.undone, State.seats_of_offMemory (State.putCore_offMemory ..), State.cutOff_seats, State.contained_seats]

/-- A removed stream's core has its kinship mark, and its seat is empty. -/
theorem State.dropStream_gone {s : State} {k : Nat} {x : Stream} (hx : s.stream k = some x)
    (hone : s.curLive = true → k = s.curKey → s.streams.find k = none) :
    (s.dropStream k).stream k = none ∧ ∃ rest, (s.dropStream k).front.lastRun = (k / 2, x.who) :: rest := by
  let u := s.undone k x
  let v : State := { u with front := { u.front with lastRun := (k / 2, x.who) :: u.front.lastRun.filter (fun e => e.1 != k / 2) } }
  have hseats := s.undone_seats k x
  have hdrop : s.dropStream k = if v.curLive && k == v.curKey then { v with curLive := false, cur := { mark := v.cur.mark } }
      else { v with streams := v.streams.del k } := by
    rw [State.dropStream, hx]
    rfl
  have hlive : u.curLive = s.curLive := (congrArg (fun p => p.1) hseats :)
  have hkey : u.curKey = s.curKey := (congrArg (fun p => p.2.1) hseats :)
  have hfind : (u.streams.find k).map Stream.who = (s.streams.find k).map Stream.who := (congrArg (fun p => p.2.2.2.1 k) hseats :)
  rw [hdrop]
  cases h : v.curLive && k == v.curKey with
  | true =>
    obtain ⟨hl, hk⟩ : u.curLive = true ∧ k = u.curKey := by simpa using h
    have hnone : u.streams.find k = none := by simpa [hone (hlive ▸ hl) (hk.trans hkey)] using hfind
    exact ⟨hnone, _, rfl⟩
  | false =>
    refine ⟨?_, _, rfl⟩
    change (if v.curLive && k == v.curKey then _ else _) = none
    rw [h]
    exact Tbl.find_del_same ..

/-- Everything of a retirement before the stream's removal. -/
def State.parting (s : State) (key : Nat) (x : Stream) : State := ((s.setAside key x).leaveCore key x.slot).relAll key (if x.ending = 2 then 7 else 3)

theorem State.setAside_seats (s : State) (key : Nat) (x : Stream) : (s.setAside key x).seats = s.seats := rfl

theorem State.parting_seats (s : State) (key : Nat) (x : Stream) : (s.parting key x).seats = s.seats := by
  rw [State.parting, State.relAll_seats, State.leaveCore_seats, State.setAside_seats]

/-- The successors' decrements of a retirement set out, and the task counts as retired. -/
def State.parted (s : State) (x : Stream) : State :=
  (x.succ.foldl (fun (s : State) t => s.sendDec deadKey { ctx := x.ctx, queue := x.queue, lid := x.lid, slot := x.slot, task := t } 1) s).countRetired x

theorem State.parted_seats (s : State) (x : Stream) : (s.parted x).seats = s.seats := by
  rw [State.parted, State.countRetired, State.modLaunch, State.modCtx_seats]
  exact foldl_keeps State.seats _ _ _ fun _ _ => rfl

theorem State.retire_eq (s : State) (key : Nat) (x : Stream) : s.retire key x =
    (if x.ending = 2 then (((s.parting key x).dropStream key).parted x).discardStep x.ctx x.slot x.step
      else ((s.parting key x).dropStream key).parted x).checkCaught x.slot := rfl

/-- Everything of a retirement after the stream's removal leaves the seats. -/
theorem State.retire_seats (s : State) (key : Nat) (x : Stream) : (s.retire key x).seats = ((s.parting key x).dropStream key).seats := by
  rw [State.retire_eq, State.checkCaught_seats]
  split
  · rw [State.discardStep_seats, State.parted_seats]
  · rw [State.parted_seats]

/-- A retired task's stream is gone, and its core has its kinship mark (R48, R345). -/
theorem State.retire_gone {s : State} {k : Nat} {x : Stream} (hx : s.stream k = some x)
    (hone : s.curLive = true → k = s.curKey → s.streams.find k = none) :
    (s.retire k x).stream k = none ∧ ∃ rest, (s.retire k x).front.lastRun = (k / 2, x.ctx, x.queue, x.lid, x.slot, x.wid) :: rest := by
  have hparting := s.parting_seats k x
  have hlive : (s.parting k x).curLive = s.curLive := (congrArg (fun p => p.1) hparting :)
  have hkey : (s.parting k x).curKey = s.curKey := (congrArg (fun p => p.2.1) hparting :)
  have hfind : ((s.parting k x).streams.find k).map Stream.who = (s.streams.find k).map Stream.who := (congrArg (fun p => p.2.2.2.1 k) hparting :)
  obtain ⟨y, hy, hwho⟩ : ∃ y, (s.parting k x).stream k = some y ∧ y.who = x.who := by
    simpa [hx] using State.stream_of_seats (k := k) hparting
  obtain ⟨hnone, rest, hrun⟩ := State.dropStream_gone hy fun hl hk => by
    simpa [hone (hlive ▸ hl) (hk.trans hkey)] using hfind
  have hend := s.retire_seats k x
  have hlast : (s.retire k x).front.lastRun = ((s.parting k x).dropStream k).front.lastRun := (congrArg (fun p => p.2.2.2.2) hend :)
  refine ⟨?_, rest, ?_⟩
  · simpa [hnone] using State.stream_of_seats (k := k) hend
  · rw [hlast, hrun, hwho]
    rfl

end Sys2Proof.Machine
end

section
/-! The statement `Obligations.LaunchesAndTasks`, from the parts before. -/

namespace Sys2Proof.Machine

section
variable {s : State} {c q lid slot : Nat} {w : BitVec 42} {wid : Word64}

/-- The crews of class 1: the one of the deepest kinship first, and of several the lowest (R48). -/
theorem State.kinCrews_byKinship : (s.kinCrews c q lid slot w wid).Pairwise (fun a b =>
    (∀ v, (b, v) ∈ s.kinRuns c q lid slot → ∃ u, (a, u) ∈ s.kinRuns c q lid slot ∧ kinLevel w wid v ≤ kinLevel w wid u) ∧
      ((∀ u, (a, u) ∈ s.kinRuns c q lid slot → ∃ v, (b, v) ∈ s.kinRuns c q lid slot ∧ kinLevel w wid u ≤ kinLevel w wid v) → a < b)) := by
  refine State.kinCrews_pairwise.imp fun ⟨m, n, ha, hb, hle, hlt⟩ => ?_
  obtain ⟨u, hu, hm⟩ := crewLevel_attained ha
  refine ⟨fun v hv => ⟨u, hu, ?_⟩, fun hdeep => hlt ?_⟩
  · exact hm ▸ (le_crewLevel hb hv).trans hle
  · obtain ⟨v, hv, huv⟩ := hdeep u hu
    exact hm ▸ huv.trans (le_crewLevel hb hv)

end

/-! The first state of a task (R31). -/

section
variable (x : Ctx) (c q : Nat) (l : Launch) (slot : Nat) (r : Rank) (i : Nat) (e : Entry) (gs : List Nat) (cycle : Nat)

theorem taskStream_registers :
    let y := taskStream x c q l slot r i e gs cycle
    y.s.get 1 = e.wid ∧ y.s.get 2 = BitVec.ofNat 64 l.argptr ∧ y.s.get 3 = r.vrank.setWidth 64 ∧ ∀ k, k ≠ 1 → k ≠ 2 → k ≠ 3 → y.s.get k = 0 := by
  obtain ⟨_, rfl, h⟩ := get_puts_three e.wid (BitVec.ofNat 64 l.argptr) (r.vrank.setWidth 64)
  exact h

theorem taskStream_tvec : (taskStream x c q l slot r i e gs cycle).tvec = BitVec.ofNat 56 (l.codebase + wbits l.d 7 31 0) :=
  congrArg (fun n => BitVec.ofNat 56 (l.codebase + n)) (fld_eq_wbits l.d 7 31 0)

theorem taskStream_lgran : (taskStream x c q l slot r i e gs cycle).lgran = (List.range gs.length).zip gs := by
  rw [List.range_eq_range', ← upto_eq_range']
  rfl

end

/-- Settles O48, clause by clause: heads, task starts, decrements, retirements, and the state at each start and end. -/
theorem launchesAndTasks : Obligations.LaunchesAndTasks := by
  unfold Obligations.LaunchesAndTasks
  intro s c q n slot task id l r e ls st
  refine ⟨launchHead_none, launchHead_checked, ?failed, ?stale, ?evaluated, ?mask, ?task⟩
  case failed =>
    intro hhead hchecked hst
    rw [launchHead_unchecked hhead hchecked, if_pos hst]
  case stale =>
    intro hhead hchecked hst hstale
    rw [launchHead_unchecked hhead hchecked, if_neg (not_not.mpr hst), if_pos hstale]
  case evaluated =>
    intro hhead hchecked hst hstale
    rw [launchHead_unchecked hhead hchecked, if_neg (not_not.mpr hst), if_neg (by simp [hstale])]
  case mask =>
    intro hhead hweight hstarted hchecked hstale hwaits need
    have hmask := State.evalHead_mask hhead hweight hstarted hchecked hstale hwaits
    exact ⟨fun h => hmask.trans (if_pos h), fun h => hmask.trans (if_neg h)⟩
  case task =>
    intro picks start
    refine ⟨taskStart_notStartable, fun t => taskStart_bad, fun k => taskStart_binds, fun k => taskStart_waits, taskStart_mayStart, ?decs, ?retire,
      launchRetire_waits, State.heatsOpen_free, launchRetire_ends, ?head, ?core, ?state, fun x => State.retire_gone⟩
    case decs =>
      intro o pre post t amount cmd hops hnew hkind d
      exact ⟨predecessorDecrement_dropped hops hnew hkind, fun qq ll => predecessorDecrement_counts hops hnew hkind⟩
    case retire =>
      intro x hx done broken empty v
      have hretire := taskRetire_eq hx
      refine ⟨fun hd => ?_, fun hd hb => ?_, fun hd hb he => ?_, fun hd hb he ho => ?_, fun hd hb he ho => ?_, State.parkedOpen_settled⟩
      · rw [hretire, if_pos hd]
      · rw [hretire, if_neg (not_not.mpr hd), if_pos hb]
      · rw [hretire, if_neg (not_not.mpr hd), if_neg hb, if_pos he]
      · rw [hretire, if_neg (not_not.mpr hd), if_neg hb, if_neg (not_not.mpr he), if_pos ho]
      · rw [hretire, if_neg (not_not.mpr hd), if_neg hb, if_neg (not_not.mpr he), if_neg (by simp [v, ho])]
    case head =>
      intro hhead u slots
      have hc := State.has_of_headOf hhead
      refine ⟨s.mem_setSlots c l, State.startLaunch_ev hc, fun v hv hserial => ?_, fun i => ?_, fun k j hj => State.startLaunch_jobs hj⟩
      · obtain ⟨hstarted, hranks⟩ := State.startLaunch_begun hc hv hserial
        refine ⟨hstarted, by simp [hranks, slots, Function.comp_def, State.newRank], fun k hk => ?_⟩
        obtain ⟨i, -, rfl⟩ := List.mem_map.mp (hranks ▸ hk)
        exact ⟨rfl, rfl, rfl, rfl, rfl, rfl⟩
      · rw [State.startLaunch_rank, Rank.accepted, ← Bool.or_assoc]
    case core =>
      intro order ran deep cores
      have hran (k : Nat) (w : Word64) : ran k w ↔ (k, w) ∈ s.kinRuns c q l.lid slot := (State.mem_kinRuns ..).symm
      refine ⟨fun w r => lt_kinLevel_iff l.widths e.wid w, ⟨s.kinCrews c q l.lid slot l.widths e.wid, _, s.idleDie, State.coreOrder_eq .., fun k => ?_, ?_, rfl,
        s.idleDie_spec⟩, fun k pre post => State.chooseCore_free, fun k pre post => State.chooseCore_beside, State.chooseCore_none, State.fitsFree_iff,
        fun k x => State.fitsBeside_iff, s.winner_iff c q⟩
      · simpa only [hran] using State.mem_kinCrews
      · simpa only [hran] using State.kinCrews_byKinship
    case state =>
      intro hops u k gs tiles
      refine ⟨⟨_, State.bind_stream id c q l slot task e hops, ?first⟩, fun i => State.bind_tiles id c q l slot task e hops rfl,
        fun g hg i => State.bind_grans id c q l slot task e hops hg, ?stack⟩
      case first =>
        obtain ⟨hwid, harg, hrank, hzero⟩ := taskStream_registers (s.ctxAt c) c q l slot (s.rank slot) task e gs s.cycle.toNat
        exact ⟨rfl, rfl, rfl, rfl, rfl, rfl, hwid, harg, hrank, hzero, rfl, fun _ => ⟨rfl, rfl, rfl, rfl⟩, rfl, rfl, rfl, rfl, rfl, rfl, rfl, rfl, rfl, rfl,
          rfl, rfl, rfl, rfl, rfl, rfl, rfl, rfl, rfl, taskStream_tvec .., rfl, rfl, rfl, rfl, rfl, rfl, rfl, rfl, rfl, rfl, taskStream_lgran ..⟩
      case stack =>
        rw [State.bind_rank id c q l slot task e hops]
        exact ⟨rfl, rfl, rfl⟩

end Sys2Proof.Machine
end

section
/-! A bundle's fetch (R84, R85, R88, R289, R337): what the word at the pc and the words after it leave of the stream, and the statement
`Obligations.BundleFetch`. -/

namespace Sys2Proof.Machine

/-- Nothing halts the focused stream before its bundle: it stands in a hold, no enabled comparator matches, or CONT passes the one that does (R289, R337). -/
def State.passesBp (s : State) : Prop := s.cur.hold.isSome = true ∨ s.dbgMatch s.curKey s.cur = false ∨ s.cur.skipBp = true

section
variable {s u v : State} {h : Word32}

/-- The condition under which a breakpoint halts the stream. -/
theorem State.halts_iff (s : State) : (s.cur.hold.isNone && s.dbgMatch s.curKey s.cur && !s.cur.skipBp) = true ↔ ¬s.passesBp := by
  cases h : s.cur.hold <;> simp [State.passesBp, h]

/-! The words of a bundle. -/

theorem State.fetchWords_one_trap {pc : Word64} {t : TrapRec} (hw : s.fetchWord pc.toNat = .trap t) : s.fetchWords pc.toNat 1 = .error (some t) := by
  simp only [State.fetchWords, BitVec.toNat_mod_cancel, hw]

theorem State.fetchWords_one_wait {pc : Word64} (hw : s.fetchWord pc.toNat = .wait) : s.fetchWords pc.toNat 1 = .error none := by
  simp only [State.fetchWords, BitVec.toNat_mod_cancel, hw]

theorem State.fetchWords_one_word {pc : Word64} (hw : s.fetchWord pc.toNat = .word h u) : s.fetchWords pc.toNat 1 = .ok ([h], u) := by
  simp only [State.fetchWords, BitVec.toNat_mod_cancel, hw]

/-- The word at the pc does not come: its fault, or its wait, is the bundle's. -/
theorem State.fetchBundle_noHeader {e : Option TrapRec} (hw : s.fetchWords s.cur.pc.toNat 1 = .error e) : s.fetchBundle = .error e := by
  simp [State.fetchBundle, hw]

section
variable (hw : s.fetchWord s.cur.pc.toNat = .word h u)
include hw

theorem State.fetchBundle_notHeader (hh : isHeader h = false) :
    s.fetchBundle = .error (some { cause := 0x03, addr := s.cur.pc, info := info85 h.toNat 7 0x20 }) := by
  simp [State.fetchBundle, State.fetchWords_one_word hw, hh]

variable (hh : isHeader h = true)
include hh

theorem State.fetchBundle_badHeader {sub : Nat} (hf : headerFault h = some sub) :
    s.fetchBundle = .error (some { cause := 0x01, addr := s.cur.pc, info := info85 h.toNat 7 sub }) := by
  simp [State.fetchBundle, State.fetchWords_one_word hw, hh, hf]

variable (hf : headerFault h = none)
include hf

theorem State.fetchBundle_noSlots {e : Option TrapRec} (hws : u.fetchWords (s.cur.pc.toNat + 4) (present h).length = .error e) :
    s.fetchBundle = .error e := by
  simp [State.fetchBundle, State.fetchWords_one_word hw, hh, hf, hws]

variable {ws : List Word32} (hws : u.fetchWords (s.cur.pc.toNat + 4) (present h).length = .ok (ws, v))
include hws

theorem State.fetchBundle_badSlot {t : TrapRec} (hc : checkSlots v.cur s.cur.pc h (present h).length 0 false ((present h).zip ws) = .error t) :
    s.fetchBundle = .error (some t) := by
  simp [State.fetchBundle, State.fetchWords_one_word hw, hh, hf, hws, hc]

theorem State.fetchBundle_good {is : List (Slot × Instr)}
    (hc : checkSlots v.cur s.cur.pc h (present h).length 0 false ((present h).zip ws) = .ok is) :
    s.fetchBundle = .ok ({ addr := s.cur.pc, header := h, slots := is, succ := s.cur.pc + BitVec.ofNat 64 (4 * ((present h).length + 1)) }, v) := by
  simp [State.fetchBundle, State.fetchWords_one_word hw, hh, hf, hws, hc]

end

/-! What BUNDLE_FETCH leaves of the focused stream. -/

section
variable (hlive : s.curLive = true)
include hlive

theorem bundleFetch_halts (hbp : ¬s.passesBp) : exec (.bundleFetch s.curKey) s = .next s.haltCur := by
  change execBundleFetch s.curKey s = _
  simp only [execBundleFetch, State.focus_cur s hlive, hlive, s.halts_iff.mpr hbp]
  rfl

variable (hbp : s.passesBp)
include hbp

theorem bundleFetch_traps {t : TrapRec} (ht : s.fetchBundle = .error (some t)) : s.Traps (.bundleFetch s.curKey) t := by
  change execBundleFetch s.curKey s = _
  simp only [execBundleFetch, State.focus_cur s hlive, hlive, if_neg (mt s.halts_iff.mp (not_not.mpr hbp)), ht]
  rfl

theorem bundleFetch_stalls (ht : s.fetchBundle = .error none) :
    exec (.bundleFetch s.curKey) s = .next { s with cur := { s.cur with mark := .stalled false none .nothing } } := by
  change execBundleFetch s.curKey s = _
  simp only [execBundleFetch, State.focus_cur s hlive, hlive, if_neg (mt s.halts_iff.mp (not_not.mpr hbp)), ht]
  rfl

theorem bundleFetch_stands {b : Bundle} (ht : s.fetchBundle = .ok (b, v)) :
    exec (.bundleFetch s.curKey) s = .next { v with cur := { v.cur with bundle := some b, npc := b.succ, mark := .none } } := by
  change execBundleFetch s.curKey s = _
  simp only [execBundleFetch, State.focus_cur s hlive, hlive, if_neg (mt s.halts_iff.mp (not_not.mpr hbp)), ht]
  rfl

end

end

/-- Settles O7: by what the fetch of the word at the pc, and then of the slot words, comes to. -/
theorem bundleFetch : Obligations.BundleFetch := by
  unfold Obligations.BundleFetch
  intro s u v h ws hlive
  exact ⟨bundleFetch_halts hlive,
    fun t hbp hw => bundleFetch_traps hlive hbp (State.fetchBundle_noHeader (State.fetchWords_one_trap hw)),
    fun hbp hw => bundleFetch_stalls hlive hbp (State.fetchBundle_noHeader (State.fetchWords_one_wait hw)),
    fun hbp hw hh hf hws => bundleFetch_stalls hlive hbp (State.fetchBundle_noSlots hw hh hf hws),
    fun hbp hw hh => bundleFetch_traps hlive hbp (State.fetchBundle_notHeader hw hh),
    fun sub hbp hw hh hf => bundleFetch_traps hlive hbp (State.fetchBundle_badHeader hw hh hf),
    fun t hbp hw hh hf hws => bundleFetch_traps hlive hbp (State.fetchBundle_noSlots hw hh hf hws),
    fun t hbp hw hh hf hws hc => bundleFetch_traps hlive hbp (State.fetchBundle_badSlot hw hh hf hws hc),
    fun is hbp hw hh hf hws hc => bundleFetch_stands hlive hbp (State.fetchBundle_good hw hh hf hws hc)⟩

end Sys2Proof.Machine
end

section
/-! Translation events (R62, R63, R65, R374): what a walk fills, and what a shootdown that is ordered takes from the TLBs. -/

namespace Sys2Proof.Machine

/-! Walks (R62, R63). -/

/-- A TLB entry translates an address of a slot. -/
def Tlb.covers (e : Tlb) (slot va : Nat) : Prop := e.slot = slot ∧ e.vbase ≤ va ∧ va < e.vbase + e.size

theorem covers_of_tlbFind {l : List Tlb} {slot va : Nat} {e : Tlb} (h : tlbFind l slot va = some e) : e.covers slot va := by
  have hfound := List.find?_some h
  simpa [Tlb.covers, and_assoc] using hfound

theorem tlbFind_append {l : List Tlb} {slot va : Nat} {e : Tlb} (hnone : tlbFind l slot va = none) (he : e.covers slot va) :
    tlbFind (l ++ [e]) slot va = some e := by
  obtain ⟨hslot, hlo, hhi⟩ := he
  rw [tlbFind] at hnone
  simp [tlbFind, List.find?_append, hnone, hslot, hlo, hhi]

/-- A TLB without an entry for an address has the one that fills it, whichever it gives up. -/
theorem tlbFind_tlbFill {cap pick : Nat} {l : List Tlb} {slot va : Nat} {e : Tlb} (hnone : tlbFind l slot va = none) (he : e.covers slot va) :
    tlbFind (tlbFill cap pick l e) slot va = some e := by
  unfold tlbFill
  split
  · exact tlbFind_append hnone he
  · refine tlbFind_append (List.find?_eq_none.mpr fun d hd => ?_) he
    exact List.find?_eq_none.mp hnone d (List.mem_of_mem_eraseIdx hd)

/-- A page of a size that a level allows has bytes. -/
theorem szBytes_pos {level sz : Nat} (h : szAllowed level sz = true) : 0 < szBytes sz := by
  obtain rfl | rfl | rfl | rfl | rfl : sz = 1 ∨ sz = 2 ∨ sz = 3 ∨ sz = 4 ∨ sz = 5 := by
    rcases level with _ | _ | _ | level <;> simp [szAllowed] at h <;> omega
  all_goals decide

/-- An entry that is no BADENTRY and names no table is a leaf of a size that its level allows (R60). -/
theorem State.szAllowed_of_not_pteBad {s : State} {level : Nat} {p0 p1 : Word64} (h : s.pteBad level p0 p1 = false) (hsz : fld p0 11 9 ≠ 0) :
    szAllowed level (fld p0 11 9) = true := by
  unfold State.pteBad at h
  simp only [if_neg hsz, Bool.or_eq_false_iff, Bool.not_eq_false'] at h
  obtain ⟨-, ⟨⟨⟨hallowed, -⟩, -⟩, -⟩, -⟩ := h
  exact hallowed

theorem Tlb.of_covers {s : State} {slot va level : Nat} {p0 p1 : Word64} (h : s.pteBad level p0 p1 = false) (hsz : fld p0 11 9 ≠ 0) :
    (Tlb.of slot va level p0 p1).covers slot va := by
  have hpos : 0 < szBytes (fld p0 11 9) := szBytes_pos (State.szAllowed_of_not_pteBad h hsz)
  exact ⟨rfl, Nat.div_mul_le_self .., Nat.lt_div_mul_add hpos⟩

/-- A walk from a table answers a leaf that translates the address: a group's first entry, or the entry itself. -/
theorem State.walkFrom_covers {s : State} {slot va level table : Nat} {k : AKind} {e : Tlb} {a : Nat}
    (h : s.walkFrom slot va k level table = .ok (e, a)) : e.covers slot va := by
  fun_induction State.walkFrom s slot va k level table
  case case5 ih => exact ih h
  case case8 hsz _ _ _ _ _ hsame hgood =>
    obtain ⟨rfl, -⟩ := Prod.mk.inj (Except.ok.inj h)
    obtain ⟨-, hfld⟩ : _ ∧ fld _ 11 9 = _ := by simpa using hsame
    exact Tlb.of_covers (by simpa using hgood) (hfld ▸ hsz)
  case case9 hgood _ hsz _ =>
    obtain ⟨rfl, -⟩ := Prod.mk.inj (Except.ok.inj h)
    exact Tlb.of_covers (by simpa using hgood) hsz
  all_goals cases h

theorem State.walk_covers {s : State} {slot va : Nat} {k : AKind} {e : Tlb} {a : Nat} (h : s.walk slot va k = .ok (e, a)) : e.covers slot va :=
  State.walkFrom_covers h

section
variable {s : State} {core slot : Nat} {e : Tlb}

theorem State.coreOf_putCore_other (s : State) {c k : Nat} (x : Core) (h : k ≠ c) : (s.putCore c x).coreOf k = s.coreOf k := by
  unfold State.putCore State.coreOf
  split
  case isTrue hc =>
    have hk : k ≠ s.curKey / 2 := hc ▸ h
    simp only [if_neg hk]
  case isFalse => simp only [Tbl.at_put_other _ _ _ h]

/-- A core's TLB has come to hold a leaf of a slot's address, and nothing else of the module has changed but a crew's TLB (R62). -/
def State.Filled (s u : State) (core slot va : Nat) (e : Tlb) : Prop :=
  tlbFind (u.coreOf core).tlb slot va = some e ∧ u.mem = s.mem ∧ u.front = s.front ∧ u.streams = s.streams ∧ u.cur = s.cur ∧
    ∀ k, k ≠ core → (u.coreOf k).tlb = (s.coreOf k).tlb

theorem State.putCore_filled {va : Nat} {x : Core} (h : tlbFind x.tlb slot va = some e) : s.Filled (s.putCore core x) core slot va e := by
  refine ⟨by rwa [State.coreOf_putCore_same], ?mem, ?front, ?streams, ?cur, fun k hk => by rw [State.coreOf_putCore_other s x hk]⟩
  all_goals
    unfold State.putCore
    split <;> rfl

theorem State.tlbAdd_filled {va : Nat} (walked : Bool) (hnone : tlbFind (s.coreOf core).tlb slot va = none) (he : e.covers slot va) :
    s.Filled (s.tlbAdd core false walked e) core slot va e := by
  have hput := State.putCore_filled (s := s) (core := core) (x := { s.coreOf core with tlb := tlbFill 256 (Config.freeSched s.tick) (s.coreOf core).tlb e })
    (tlbFind_tlbFill hnone he)
  cases walked <;> exact hput

theorem State.tlbAdd_crew {va : Nat} (hnone : tlbFind (s.crews.at (core / 8) {}).tlb slot va = none) (he : e.covers slot va) :
    tlbFind ((s.tlbAdd core false true e).crews.at (core / 8) {}).tlb slot va = some e := by
  have hcrews (x : Core) : (s.putCore core x).crews = s.crews := by
    unfold State.putCore
    split <;> rfl
  simp only [State.tlbAdd, Bool.false_eq_true, if_false, if_true, Tbl.at_put_same, hcrews]
  exact tlbFind_tlbFill hnone he

variable {va : Word64}

/-- A core that holds the leaf asks nobody. -/
theorem pageWalk_held (h : tlbFind (s.coreOf core).tlb slot va.toNat = some e) : exec (.pageWalk core slot va) s = .next s := by
  change execPageWalk core slot va s = _
  simp [execPageWalk, State.leaf, AKind.engine, h]

variable (hcore : tlbFind (s.coreOf core).tlb slot va.toNat = none)
include hcore

theorem pageWalk_crew (hcrew : tlbFind (s.crews.at (core / 8) {}).tlb slot va.toNat = some e) :
    exec (.pageWalk core slot va) s = .next (s.tlbAdd core false false e) := by
  change execPageWalk core slot va s = _
  simp [execPageWalk, State.leaf, AKind.engine, hcore, hcrew]

variable (hcrew : tlbFind (s.crews.at (core / 8) {}).tlb slot va.toNat = none)
include hcrew

theorem pageWalk_faults {f : TrapRec} (hwalk : s.walk slot va.toNat .load = .error f) : exec (.pageWalk core slot va) s = .next s := by
  change execPageWalk core slot va s = _
  simp [execPageWalk, State.leaf, AKind.engine, hcore, hcrew, hwalk]

theorem pageWalk_walks {a : Nat} (hwalk : s.walk slot va.toNat .load = .ok (e, a)) :
    exec (.pageWalk core slot va) s = .next (s.tlbAdd core false true e) := by
  change execPageWalk core slot va s = _
  simp [execPageWalk, State.leaf, AKind.engine, hcore, hcrew, hwalk]

end

/-! Shootdowns as they are ordered (R65, R374). -/

/-- A served command ends as its own function says. -/
def Ans.out (s : State) (c : Cmd) : Ans → Out
  | .bad => .next (s.respond c.seq 1)
  | .now u status data => .next (u.respond c.seq status data)
  | .later u => .next u

theorem State.command_accepted {s : State} {c : Cmd} (h : s.accepts c) (f : State → Ans) : s.command c f = (f (s.taken c)).out s c := by
  obtain ⟨hpower, hsigned, hrsv, hseq⟩ := h
  have hnew : (s.mgmt.anySeq && decide (c.seq.toNat ≤ s.mgmt.lastSeq.toNat)) = false := by
    simpa using hseq
  unfold State.command State.taken
  rw [if_neg (not_not.mpr hpower), if_neg (by simp [hsigned, hrsv, hnew])]
  dsimp only
  generalize f _ = a
  cases a <;> rfl

theorem wbits_single (w : Word64) (hi lo : Nat) : wbits [w] 0 hi lo = fld w hi lo := (fld_eq_wbits [w] 0 hi lo).symm

/-- A field of one bit is that bit. -/
theorem fld_bit (w : Word64) (i : Nat) : fld w i i = 1 ↔ w.getLsbD i = true := by
  rw [fld, Nat.shiftRight_eq_div_pow, Nat.add_sub_cancel_left, BitVec.getLsbD, Nat.testBit_eq_decide_div_mod_eq, decide_eq_true_iff, pow_one]

theorem Tlb.hit_iff (slot va len : Nat) (e : Tlb) :
    e.hit slot va len = true ↔ e.slot = slot ∧ (len = 0 ∨ (e.vbase < va + len ∧ va < e.vbase + e.size)) := by
  simp [Tlb.hit]

section
variable {s : State} {c : Cmd} {s0 s1 : Word64}

/-- A shootdown breaks a limit: a reserved bit, a slot above 1,087, or, but for a whole slot, a range that begins in no page or has none (R65). -/
def badShoot (s0 s1 : Word64) : Prop :=
  wbits [s0] 0 62 56 ≠ 0 ∨ wbits [s1] 0 63 43 ≠ 0 ∨ 1087 < wbits [s1] 0 42 32 ∨
    (¬wbits [s0] 0 63 63 = 1 ∧ (wbits [s0] 0 55 0 % 4096 ≠ 0 ∨ wbits [s1] 0 31 0 = 0))

/-- The length of the range; 0 for a whole slot. -/
def shootLen (s0 s1 : Word64) : Nat := if wbits [s0] 0 63 63 = 1 then 0 else 4096 * wbits [s1] 0 31 0

/-- The length is 0 for a whole slot alone. -/
theorem shootLen_eq_zero (h : ¬badShoot s0 s1) : shootLen s0 s1 = 0 ↔ wbits [s0] 0 63 63 = 1 := by
  unfold shootLen
  split
  case isTrue hall => simp [hall]
  case isFalse hall =>
    have hn : wbits [s1] 0 31 0 ≠ 0 := fun hn => h (.inr (.inr (.inr ⟨hall, .inr hn⟩)))
    simp [hall, hn]

/-- A shootdown has begun: the TLBs have lost the range, and it waits to be acknowledged. -/
def State.shooting (s : State) (c : Cmd) (s0 s1 : Word64) : State :=
  let u := s.shoot (wbits [s1] 0 42 32) (wbits [s0] 0 55 0) (shootLen s0 s1)
  { u with
    nextId := u.nextId + 1
    front := { u.front with shoots := u.front.shoots ++
      [{ id := u.nextId, slot := wbits [s1] 0 42 32, va := wbits [s0] 0 55 0, len := shootLen s0 s1, seq := c.seq }] } }

theorem State.shooting_tlb (h : ¬badShoot s0 s1) (k : Nat) (e : Tlb) : e ∈ ((s.shooting c s0 s1).coreOf k).tlb ↔ e ∈ (s.coreOf k).tlb ∧
    ¬(e.slot = wbits [s1] 0 42 32 ∧ (wbits [s0] 0 63 63 = 1 ∨
      (e.vbase < wbits [s0] 0 55 0 + shootLen s0 s1 ∧ wbits [s0] 0 55 0 < e.vbase + e.size))) := by
  change e ∈ ((s.shoot (wbits [s1] 0 42 32) (wbits [s0] 0 55 0) (shootLen s0 s1)).coreOf k).tlb ↔ _
  rw [State.coreOf_shoot_tlb, List.mem_filter, Bool.not_eq_true', ← Bool.not_eq_true, Tlb.hit_iff, shootLen_eq_zero h]

variable (hacc : s.accepts c)
include hacc

theorem shootdown_refused (h : badShoot s0 s1) : s.Answers (.shootdown c s0 s1) c s 1 := by
  change execShootdown c s0 s1 s = _
  rw [execShootdown, State.command_accepted hacc, if_pos (by simpa [badShoot, wbits_single, fld_bit, and_or_left, or_assoc] using h)]
  rfl

theorem shootdown_begins (h : ¬badShoot s0 s1) : exec (.shootdown c s0 s1) s = .next ((s.taken c).shooting c s0 s1) := by
  have hlen : (if s0.getLsbD 63 = true then 0 else 4096 * fld s1 31 0) = shootLen s0 s1 := by
    simp only [shootLen, wbits_single, fld_bit]
  change execShootdown c s0 s1 s = _
  rw [execShootdown, State.command_accepted hacc, if_neg (by simpa [badShoot, wbits_single, fld_bit, and_or_left, or_assoc] using h), hlen]
  simp only [← wbits_single]
  rfl

end

end Sys2Proof.Machine
end

section
/-! The acknowledgement of a shootdown (R66, R235): the accesses that it waits for, and the pinned lines that it gives up. -/

namespace Sys2Proof.Machine

/-! What a shootdown waits for. -/

theorem Shoot.meets_iff (h : Shoot) (slot va n : Nat) :
    h.meets slot va n = true ↔ slot = h.slot ∧ (h.len = 0 ∨ (h.va < va + n ∧ va < h.va + h.len)) := by
  rw [eq_comm (a := slot)]
  simp [Shoot.meets]

/-- An access translated before a shootdown waits: a write not yet performed, or a load that has not read (R66). -/
theorem State.shootOpen_iff (s : State) (h : Shoot) : s.shootOpen h = true ↔ (∃ w ∈ s.mem.wq, h.meets w.slot w.va w.bytes.length = true) ∨
    ∃ e ∈ s.allStreams, ∃ p ∈ e.2.pend, ∃ r q, p.rd = some r ∧ q ∈ r.parts ∧ q.win = none ∧ h.meets e.2.slot q.va q.n = true := by
  unfold State.shootOpen
  rw [Bool.or_eq_true, List.any_eq_true, List.any_eq_true, or_comm]
  refine or_congr Iff.rfl (exists_congr fun e => and_congr_right fun _ => ?_)
  rw [List.any_eq_true]
  refine exists_congr fun p => and_congr_right fun _ => ?_
  cases p.rd <;> simp

/-! Pinned lines given up (R235). -/

theorem Tbl.find_of_mem {α : Type} {t : Tbl α} {e : Nat × α} (hs : (t.map (fun e => e.1)).Pairwise (· < ·)) (he : e ∈ t) : t.find e.1 = some e.2 := by
  induction t with
  | nil => cases he
  | cons d r ih =>
    rw [List.map_cons, List.pairwise_cons] at hs
    obtain ⟨hd, hr⟩ := hs
    obtain rfl | he := List.mem_cons.mp he
    · simp [Tbl.find]
    · have hlt : d.1 < e.1 := hd _ (List.mem_map_of_mem he)
      rw [Tbl.find, if_neg (by omega), if_neg (by omega), ih hr he]

theorem State.broadcast_coreOf (s : State) (d : Nat) (key : Option Nat) (wr : Option (Nat × Nat)) (pa : Nat) (bytes : List Byte) (w : Option PWrite) :
    (s.broadcast d key wr pa bytes w).coreOf = s.coreOf := by
  unfold State.broadcast
  refine foldl_keeps State.coreOf _ _ _ fun a t => ?_
  dsimp only
  split <;> rfl

theorem State.feedReplicas_coreOf (s : State) (key : Option Nat) (ctx : Nat) (buf : BitVec 24) (pa n : Nat) (w : Option PWrite) :
    (s.feedReplicas key ctx buf pa n w).coreOf = s.coreOf := by
  unfold State.feedReplicas
  dsimp only
  split
  · exact State.broadcast_coreOf ..
  · rfl

/-- A line that a core holds is written back and leaves its pin pool; no other core changes. -/
theorem State.unpin_coreOf {s : State} {core line : Nat} {p : PinLine} (hp : (s.coreOf core).pins.find line = some p) :
    (s.unpin core line).coreOf = (s.putCore core { s.coreOf core with pins := (s.coreOf core).pins.del line }).coreOf := by
  simp only [State.unpin, hp]
  refine (foldl_keeps State.coreOf _ _ _ fun a i => ?_).trans rfl
  split
  · exact State.feedReplicas_coreOf ..
  · rfl

theorem State.unpin_absent {s : State} {core line : Nat} (hp : (s.coreOf core).pins.find line = none) : s.unpin core line = s := by
  simp only [State.unpin, hp]

/-- A core keeps its TLB, and pins no line that it did not. -/
def Core.Keeps (c d : Core) : Prop := d.tlb = c.tlb ∧ d.pins.Sublist c.pins

theorem Core.Keeps.refl (c : Core) : c.Keeps c := ⟨rfl, List.Sublist.refl _⟩

theorem Core.Keeps.trans {c d e : Core} (h : c.Keeps d) (h' : d.Keeps e) : c.Keeps e := by
  obtain ⟨htlb, hpins⟩ := h
  obtain ⟨htlb', hpins'⟩ := h'
  exact ⟨htlb'.trans htlb, hpins'.trans hpins⟩

theorem State.unpin_keeps (s : State) (core line k : Nat) : (s.coreOf k).Keeps ((s.unpin core line).coreOf k) := by
  cases hp : (s.coreOf core).pins.find line with
  | none =>
    rw [State.unpin_absent hp]
    exact Core.Keeps.refl _
  | some p =>
    rw [State.unpin_coreOf hp]
    by_cases hk : k = core
    · rw [hk, State.coreOf_putCore_same]
      exact ⟨rfl, List.filter_sublist⟩
    · rw [State.coreOf_putCore_other _ _ hk]
      exact Core.Keeps.refl _

/-- Every core's pinned lines stand in the order of their addresses. -/
def State.pinsSorted (s : State) : Prop := ∀ k, ((s.coreOf k).pins.map (fun e => e.1)).Pairwise (· < ·)

theorem State.pinsSorted.of_keeps {s u : State} (hs : s.pinsSorted) (h : ∀ k, (s.coreOf k).Keeps (u.coreOf k)) : u.pinsSorted := by
  intro k
  obtain ⟨-, hpins⟩ := h k
  exact (hs k).sublist (hpins.map _)

theorem State.unpin_gone {s : State} (hs : s.pinsSorted) (core line : Nat) : ∀ e ∈ ((s.unpin core line).coreOf core).pins, e.1 ≠ line := by
  intro e he
  cases hp : (s.coreOf core).pins.find line with
  | none =>
    rw [State.unpin_absent hp] at he
    rintro rfl
    exact absurd (Tbl.find_of_mem (hs core) he) (by simp [hp])
  | some p =>
    rw [State.unpin_coreOf hp, State.coreOf_putCore_same] at he
    simpa using (List.mem_filter.mp he).2

section
variable {s : State} {core : Nat} {ls : List (Nat × PinLine)}

theorem State.foldl_unpin_keeps (k : Nat) : (s.coreOf k).Keeps ((ls.foldl (fun s e => s.unpin core e.1) s).coreOf k) := by
  induction ls generalizing s with
  | nil => exact Core.Keeps.refl _
  | cons e ls ih => exact (s.unpin_keeps core e.1 k).trans ih

theorem State.foldl_unpin_gone (hs : s.pinsSorted) :
    ∀ p ∈ ((ls.foldl (fun s e => s.unpin core e.1) s).coreOf core).pins, ∀ e ∈ ls, p.1 ≠ e.1 := by
  induction ls generalizing s with
  | nil => exact fun p _ e he => absurd he List.not_mem_nil
  | cons d ls ih =>
    intro p hp e he
    obtain rfl | he := List.mem_cons.mp he
    · obtain ⟨-, hpins⟩ := State.foldl_unpin_keeps (s := s.unpin core e.1) (ls := ls) (core := core) core
      exact State.unpin_gone hs core e.1 p (hpins.subset hp)
    · exact ih (hs.of_keeps fun k => s.unpin_keeps core d.1 k) p hp e he

theorem State.unpinIf_gone (hs : s.pinsSorted) (p : PinLine → Bool) : ∀ e ∈ ((s.unpinIf core p).coreOf core).pins, p e.2 = false := by
  intro e he
  by_contra hpe
  obtain ⟨-, hpins⟩ := State.foldl_unpin_keeps (s := s) (ls := (s.coreOf core).pins.filter (fun e => p e.2)) (core := core) core
  exact State.foldl_unpin_gone hs e he e (List.mem_filter.mpr ⟨hpins.subset he, by simpa using hpe⟩) rfl

end

/-- One core gives up the pinned lines that a test picks. -/
def State.giveUp (s : State) (p : PinLine → Bool) (k : Nat) : State := if (s.coreOf k).pins.isEmpty then s else s.unpinIf k p

section
variable {s : State} {p : PinLine → Bool}

theorem State.giveUp_offMemory (k : Nat) : (s.giveUp p k).offMemory = s.offMemory := by
  unfold State.giveUp
  split
  · rfl
  · exact State.unpinIf_offMemory ..

theorem State.giveUp_keeps (k j : Nat) : (s.coreOf j).Keeps ((s.giveUp p k).coreOf j) := by
  unfold State.giveUp
  split
  · exact Core.Keeps.refl _
  · exact State.foldl_unpin_keeps j

theorem State.giveUp_gone (hs : s.pinsSorted) (k : Nat) : ∀ e ∈ ((s.giveUp p k).coreOf k).pins, p e.2 = false := by
  unfold State.giveUp
  split
  case isTrue hempty => simp [List.isEmpty_iff.mp hempty]
  case isFalse => exact State.unpinIf_gone hs p

theorem State.foldl_giveUp_keeps (ks : List Nat) (j : Nat) : (s.coreOf j).Keeps ((ks.foldl (fun s k => s.giveUp p k) s).coreOf j) := by
  induction ks generalizing s with
  | nil => exact Core.Keeps.refl _
  | cons k ks ih => exact (State.giveUp_keeps k j).trans ih

theorem State.foldl_giveUp_gone (hs : s.pinsSorted) (ks : List Nat) :
    ∀ k ∈ ks, ∀ e ∈ ((ks.foldl (fun s k => s.giveUp p k) s).coreOf k).pins, p e.2 = false := by
  induction ks generalizing s with
  | nil => exact fun k hk => absurd hk List.not_mem_nil
  | cons j ks ih =>
    intro k hk e he
    obtain rfl | hk := List.mem_cons.mp hk
    · obtain ⟨-, hpins⟩ := State.foldl_giveUp_keeps (s := s.giveUp p k) (p := p) ks k
      exact State.giveUp_gone hs k e (hpins.subset he)
    · exact ih (hs.of_keeps fun i => State.giveUp_keeps j i) k hk e he

end

/-! Acknowledgement. -/

section
variable {s : State} {h : Shoot}

/-- The TLBs have lost the range again, and no core pins a line of it. -/
def State.shotAgain (s : State) (h : Shoot) : State :=
  (upto 0 512).foldl (fun s k => s.giveUp (fun p => h.meets p.slot p.va 128) k) (s.shoot h.slot h.va h.len)

/-- A shootdown is acknowledged: no home slice pins a line of its range either (R66, R235). -/
def State.acknowledge (u : State) (h : Shoot) : State :=
  let v : State := { u with mem := { u.mem with pins := u.mem.pins.filter (fun p => !h.meets p.2.1 p.2.2 128) } }
  State.respond { v with front := { v.front with shoots := v.front.shoots.filter (fun g => g.id != h.id) } } h.seq 0

theorem State.acknowledge_coreOf (u : State) (h : Shoot) (k : Nat) : (u.acknowledge h).coreOf k = u.coreOf k := rfl

theorem State.acknowledge_resp (u : State) (h : Shoot) : (u.acknowledge h).outs.resp = u.outs.resp ++ [(h.seq, 0, [])] := rfl

theorem State.acknowledge_front (u : State) (h : Shoot) :
    (u.acknowledge h).front = { u.front with shoots := u.front.shoots.filter (fun g => g.id != h.id) } := rfl

theorem State.acknowledge_streams (u : State) (h : Shoot) : (u.acknowledge h).streams = u.streams := rfl

theorem State.acknowledge_homePins (u : State) (h : Shoot) : ∀ p ∈ (u.acknowledge h).mem.pins, h.meets p.2.1 p.2.2 128 = false := by
  intro p hp
  simpa using (List.mem_filter.mp hp).2

theorem State.shotAgain_offMemory : (s.shotAgain h).offMemory = (s.shoot h.slot h.va h.len).offMemory := by
  unfold State.shotAgain
  exact foldl_keeps State.offMemory _ _ _ fun _ k => State.giveUp_offMemory k

theorem State.outs_of_offMemory {s t : State} (h : t.offMemory = s.offMemory) : t.outs = s.outs := (congrArg State.outs h :)

theorem State.shotAgain_outs : (s.shotAgain h).outs = s.outs := (State.outs_of_offMemory State.shotAgain_offMemory).trans rfl

theorem State.shotAgain_front : (s.shotAgain h).front = s.front := (State.front_of_offMemory State.shotAgain_offMemory).trans rfl

theorem State.shotAgain_streams : (s.shotAgain h).streams = s.streams := (State.streams_of_offMemory State.shotAgain_offMemory).trans rfl

theorem State.shotAgain_tlb (k : Nat) : ∀ e ∈ ((s.shotAgain h).coreOf k).tlb, e.hit h.slot h.va h.len = false := by
  intro e he
  unfold State.shotAgain at he
  obtain ⟨htlb, -⟩ := State.foldl_giveUp_keeps (s := s.shoot h.slot h.va h.len) (p := fun p => h.meets p.slot p.va 128) (upto 0 512) k
  rw [htlb, State.coreOf_shoot_tlb] at he
  simpa using (List.mem_filter.mp he).2

theorem State.shoot_pins (s : State) (slot va len k : Nat) : ((s.shoot slot va len).coreOf k).pins = (s.coreOf k).pins := by
  unfold State.coreOf State.shoot
  dsimp only
  split
  · rfl
  · exact (congrArg Core.pins (Tbl.at_map s.cores (fun c => { c with tlb := c.tlb.filter (fun e => !e.hit slot va len) }) k {}) :)

theorem State.shotAgain_pins (hs : s.pinsSorted) {k : Nat} (hk : k < 512) : ∀ p ∈ ((s.shotAgain h).coreOf k).pins, h.meets p.2.slot p.2.va 128 = false := by
  have hsorted : (s.shoot h.slot h.va h.len).pinsSorted := fun j => by simpa only [State.shoot_pins] using hs j
  unfold State.shotAgain
  exact State.foldl_giveUp_gone hsorted _ k (mem_upto.mpr ⟨Nat.zero_le k, by omega⟩)

theorem shootdownAck_unknown {id : Nat} (h : ∀ h ∈ s.front.shoots, h.id ≠ id) : exec (.shootdownAck id) s = .next s := by
  change execShootdownAck id s = _
  have hnone : s.front.shoots.find? (fun h => h.id == id) = none := List.find?_eq_none.mpr (by simpa using h)
  simp [execShootdownAck, hnone]

variable (hfind : s.front.shoots.find? (fun g => g.id == h.id) = some h)
include hfind

theorem shootdownAck_waits (hopen : s.shootOpen h = true) : exec (.shootdownAck h.id) s = .next s := by
  change execShootdownAck h.id s = _
  simp [execShootdownAck, hfind, hopen]

theorem shootdownAck_acks (hopen : ¬s.shootOpen h = true) : exec (.shootdownAck h.id) s = .next ((s.shotAgain h).acknowledge h) := by
  change execShootdownAck h.id s = _
  simp only [execShootdownAck, hfind, hopen, State.acknowledge, State.shotAgain, State.giveUp]
  rfl

end

end Sys2Proof.Machine
end

section
/-! Uncorrectable errors of HBM (R69, R383): where the access that met one lies, and the store that is told. -/

namespace Sys2Proof.Machine

/-- The store of part of a line that an error tells, with the byte's physical address (R383). -/
def State.told (s : State) (key : Option Nat) (va : Nat) (kind : BitVec 4) : Option (PWrite × Nat) := key.bind (fun k => s.failing k va kind)

section
variable {s : State} {key : Option Nat} {slot : Nat} {va : Nat} {kind : BitVec 4}

theorem State.told_none (h : key = none ∨ kind ≠ 2) : s.told key va kind = none := by
  cases key with
  | none => rfl
  | some k => exact if_pos (h.resolve_left (by simp))

/-! The physical address of an error (R62, R69). -/

theorem State.errorPa_load {k : Nat} {x : Stream} {p : Pend} {r : PRead} {q : RPart} (hkey : key = some k) (hx : s.stream k = some x) (hpend : x.pend = [p])
    (hrd : p.rd = some r) (hparts : r.parts = [q]) (hwin : q.win = none) (hcovers : q.va ≤ va ∧ va < q.va + q.n) :
    s.errorPa key slot va = some (q.pa + (va - q.va)) := by
  simp [State.errorPa, hkey, hx, hpend, hrd, hparts, hwin, hcovers]

theorem State.errorPa_write {w : PWrite} (hkey : key = none)
    (hw : s.mem.wq.find? (fun w => w.slot == slot && decide (w.va ≤ va) && decide (va < w.va + w.bytes.length)) = some w) :
    s.errorPa key slot va = some (w.pa + (va - w.va)) := by
  simp [State.errorPa, hkey, hw]

section
variable (hquiet : ∀ w ∈ s.mem.wq, ¬(w.slot = slot ∧ w.va ≤ va ∧ va < w.va + w.bytes.length))
include hquiet

theorem State.find_quiet :
    s.mem.wq.find? (fun w => w.slot == slot && decide (w.va ≤ va) && decide (va < w.va + w.bytes.length)) = none :=
  List.find?_eq_none.mpr fun w hw => by simpa [and_assoc] using hquiet w hw

variable (hkey : key = none)
include hkey

/-- With no access under way, the tables say where a page lies. -/
theorem State.errorPa_walk {e : Tlb} {a : Nat} (hwalk : s.walk slot va .load = .ok (e, a)) : s.errorPa key slot va = some (e.phys va) := by
  simp [State.errorPa, hkey, State.find_quiet hquiet, hwalk]

/-- Past the tables the TLBs do; an address that neither knows has no place. -/
theorem State.errorPa_nowhere {f : TrapRec} (hwalk : s.walk slot va .load = .error f) (hcores : ∀ k ∈ s.allCores, tlbFind k.2.tlb slot va = none)
    (hcrews : ∀ k ∈ s.crews, tlbFind k.2.tlb slot va = none) : s.errorPa key slot va = none := by
  simp only [State.errorPa, hkey, State.find_quiet hquiet, hwalk, List.findSome?_eq_none_iff.mpr hcores, List.findSome?_eq_none_iff.mpr hcrews]
  rfl

end

end

/-! What the error leaves. -/

section
variable {s : State} {key : Option Nat} {slot : Nat} {va : Word64} {kind : BitVec 4}

theorem hbmError_nowhere (htold : s.told key va.toNat kind = none) (hpa : s.errorPa key slot va.toNat = none) :
    exec (.hbmUncorrectableError key slot va kind) s = .next s := by
  change execHbmUncorrectableError key slot va kind s = _
  unfold State.told at htold
  simp only [execHbmUncorrectableError, htold, hpa]

theorem hbmError_contains {pa : Nat} (htold : s.told key va.toNat kind = none) (hpa : s.errorPa key slot va.toNat = some pa) :
    exec (.hbmUncorrectableError key slot va kind) s = .next (s.contain slot va.toNat (pa / 4096)) := by
  change execHbmUncorrectableError key slot va kind s = _
  unfold State.told at htold
  simp only [execHbmUncorrectableError, htold, hpa]

theorem hbmError_tells {w : PWrite} {pa : Nat} (htold : s.told key va.toNat kind = some (w, pa)) :
    exec (.hbmUncorrectableError key slot va kind) s = .next ((s.contain slot va.toNat (pa / 4096)).failStore w (pa / 128)) := by
  change execHbmUncorrectableError key slot va kind s = _
  unfold State.told at htold
  simp only [execHbmUncorrectableError, htold]

end

/-- A write within one line leaves nothing outside it. -/
theorem PWrite.without_own {w : PWrite} {line : Nat} (hfirst : w.pa / 128 = line) (hlast : (w.pa + w.bytes.length - 1) / 128 = line) :
    w.without line = [] := by
  have hbefore : min (line * 128) (w.pa + w.bytes.length) - w.pa = 0 := by omega
  have hafter : w.pa + w.bytes.length - max w.pa (line * 128 + 128) = 0 := by omega
  simp [PWrite.without, hbefore, hafter]

/-- A store within the line that met the error is not performed at all, and its issuer is told (R383). -/
theorem State.failStore_own {s : State} {w : PWrite} {line : Nat} (hfirst : w.pa / 128 = line) (hlast : (w.pa + w.bytes.length - 1) / 128 = line) :
    s.failStore w line = (s.dropWrite w.id).asyncTrap w.key (trap68 0x08 w.addr 0xF .store 0x20) := by
  simp only [State.failStore, PWrite.without_own hfirst hlast]

/-- The store of part of a line that a stream's error tells, and its key. -/
theorem State.told_store {s : State} {k va : Nat} {w : PWrite}
    (hw : s.mem.wq.find? (fun w => w.key == k && decide (w.va ≤ va) && decide (va < w.va + w.bytes.length)
      && w.partOf ((w.pa + (va - w.va)) / 128)) = some w) : w.key = k ∧ s.told (some k) va 2 = some (w, w.pa + (va - w.va)) := by
  have hfound := List.find?_some hw
  simp only [Bool.and_eq_true, beq_iff_eq] at hfound
  obtain ⟨⟨⟨hkey, -⟩, -⟩, -⟩ := hfound
  exact ⟨hkey, by simp [State.told, State.failing, hw]⟩

end Sys2Proof.Machine
end

section
/-! What the performing of writes reads and reaches (R234, R257-R260, R273, R314): nothing of management, and only memory, the rank table, the heat counters
of contexts and the counter of identities. -/

namespace Sys2Proof.Machine

/-- A context but for its heat counters. -/
def Ctx.offHeat (x : Ctx) : Ctx := { x with heatspill := 0, heatdrop := 0 }

/-- A state but for memory, the rank table, the heat counters of its contexts and the counter of identities. -/
def State.offHeat (s : State) : State :=
  { s with mem := {}, nextId := 0, front := { s.front with ranks := [], ctxs := s.front.ctxs.map (fun e => (e.1, e.2.offHeat)) } }

theorem Tbl.map_put {α β : Type} (t : Tbl α) (g : α → β) (a : Nat) (x : α) :
    Tbl.put (t.map (fun e => (e.1, g e.2))) a (g x) = (t.put a x).map (fun e => (e.1, g e.2)) := by
  induction t with
  | nil => rfl
  | cons e r ih =>
    simp only [List.map_cons, Tbl.put, ih]
    split_ifs <;> rfl

theorem Tbl.put_of_find {α : Type} {t : Tbl α} {a : Nat} {x : α} (h : t.find a = some x) : t.put a x = t := by
  induction t with
  | nil => cases h
  | cons e r ih =>
    obtain ⟨k, v⟩ := e
    rw [Tbl.find] at h
    rw [Tbl.put]
    split_ifs at h with heq hlt
    · rw [if_neg (by omega), if_pos heq, heq, Option.some.inj h]
    · rw [if_neg hlt, if_neg heq, ih h]

/-- A change of a context's heat counters is not seen past them. -/
theorem State.modCtx_offHeat (s : State) (c : Nat) {g : Ctx → Ctx} (hg : ∀ x, (g x).offHeat = x.offHeat) : (s.modCtx c g).offHeat = s.offHeat := by
  unfold State.modCtx
  split
  case h_2 => rfl
  case h_1 x hx =>
    have hfind : Tbl.find (s.front.ctxs.map (fun e => (e.1, e.2.offHeat))) c = some x.offHeat := by rw [Tbl.find_map, hx, Option.map_some]
    have hput : (s.front.ctxs.put c (g x)).map (fun e => (e.1, e.2.offHeat)) = s.front.ctxs.map (fun e => (e.1, e.2.offHeat)) := by
      rw [← Tbl.map_put, hg, Tbl.put_of_find hfind]
    simp only [State.putCtx, State.offHeat, hput]

section
variable {s t : State} (h : t.offHeat = s.offHeat)
include h

theorem State.outs_of_offHeat : t.outs = s.outs := (congrArg State.outs h :)

theorem State.bumpSeqs_of_offHeat : t.front.bumpSeqs = s.front.bumpSeqs := (congrArg (fun u : State => u.front.bumpSeqs) h :)

theorem State.ctxs_of_offHeat (c : Nat) : (t.front.ctxs.find c).map Ctx.offHeat = (s.front.ctxs.find c).map Ctx.offHeat := by
  rw [← Tbl.find_map, ← Tbl.find_map]
  exact (congrArg (fun u : State => u.front.ctxs.find c) h :)

theorem State.has_of_offHeat (c : Nat) : t.front.ctxs.has c = s.front.ctxs.has c := by
  simpa [Tbl.has] using congrArg Option.isSome (State.ctxs_of_offHeat h c)

/-- A context stands but for its heat counters. -/
theorem State.ctxAt_of_offHeat (c : Nat) : (t.ctxAt c).offHeat = (s.ctxAt c).offHeat := by
  have hget (u : State) : (u.ctxAt c).offHeat = ((u.front.ctxs.find c).map Ctx.offHeat).getD {} := by
    unfold State.ctxAt Tbl.at
    cases u.front.ctxs.find c <;> rfl
  rw [hget, hget, State.ctxs_of_offHeat h c]

end

/-- A write's runs, one after another, and the addresses changed. -/
def State.performRuns (s : State) (w : PWrite) : State × List Nat :=
  (cut 128 w.pa w.bytes.length).foldl (fun (a : State × List Nat) r =>
    let v := a.1.performRun w r.1 ((w.bytes.drop (r.1 - w.pa)).take r.2)
    (v.1, a.2 ++ v.2)) (if w.home = 2 then s.pinHome w.slot w.va w.pa w.bytes.length else s, [])

/-- What a performed write counts: a drop by a heat tag, and the bytes of its rank's buckets (R273, R314). -/
def State.countRuns (s : State) (w : PWrite) (vas : List Nat) : State :=
  let s := if w.tag.isSome && vas.length < w.bytes.length && !w.dropped then s.countDrop w else s
  if w.cnt then s.bucketCount w.slot vas else s

theorem State.perform_eq (s : State) (w : PWrite) : s.perform w = (s.performRuns w).1.countRuns w (s.performRuns w).2 := rfl

/-- Two states that differ in management alone, and past what writes reach hold what the state `o` holds. -/
structure State.Along (o : State) (m : Mgmt) (s t : State) : Prop where
  twin : t = { s with mgmt := m }
  frame : s.offHeat = o.offHeat

section
variable {o s t : State} {m : Mgmt}

theorem State.Along.ite {p : Prop} [Decidable p] {s' t' : State} (h : p → o.Along m s t) (h' : ¬p → o.Along m s' t') :
    o.Along m (if p then s else s') (if p then t else t') := by
  split
  case isTrue hp => exact h hp
  case isFalse hp => exact h' hp

theorem State.Along.foldl {α : Type} {g : State → α → State} (hg : ∀ a s t, o.Along m s t → o.Along m (g s a) (g t a)) (l : List α)
    (h : o.Along m s t) : o.Along m (l.foldl g s) (l.foldl g t) :=
  List.foldl_rel h fun a _ s t h => hg a s t h

theorem State.Along.setMem (h : o.Along m s t) (M : MemSys) : o.Along m { s with mem := M } { t with mem := M } := by
  obtain ⟨rfl, hf⟩ := h
  exact ⟨rfl, hf⟩

section
variable (h : o.Along m s t)
include h

theorem State.Along.mem_eq : t.mem = s.mem := by
  rw [h.twin]

theorem State.Along.homeBytes_eq : t.homeBytes = s.homeBytes := by
  rw [h.twin]
  rfl

theorem State.Along.homeSlice_eq : t.homeSlice = s.homeSlice := by
  rw [h.twin]
  rfl

theorem State.Along.pinShare_eq : t.pinShare = s.pinShare := by
  rw [h.twin]
  rfl

theorem State.Along.homePut (ctx : Nat) (buf : BitVec 24) (pa : Nat) (bytes : List Byte) :
    o.Along m (s.homePut ctx buf pa bytes) (t.homePut ctx buf pa bytes) := by
  obtain ⟨rfl, hf⟩ := h
  exact ⟨rfl, hf⟩

theorem State.Along.modCtx (c : Nat) {g : Ctx → Ctx} (hg : ∀ x, (g x).offHeat = x.offHeat) : o.Along m (s.modCtx c g) (t.modCtx c g) := by
  obtain ⟨rfl, hf⟩ := h
  refine ⟨?_, (s.modCtx_offHeat c hg).trans hf⟩
  unfold State.modCtx
  dsimp only
  split <;> rfl

theorem State.Along.broadcast (d : Nat) (key : Option Nat) (wr : Option (Nat × Nat)) (pa : Nat) (bytes : List Byte) (w : Option PWrite) :
    o.Along m (s.broadcast d key wr pa bytes w) (t.broadcast d key wr pa bytes w) := by
  unfold State.broadcast
  rw [h.mem_eq]
  refine State.Along.foldl (fun a u v huv => ?_) _ (h.setMem _)
  obtain ⟨rfl, huf⟩ := huv
  exact State.Along.ite (fun _ => ⟨rfl, huf⟩) fun _ => ⟨rfl, huf⟩

theorem State.Along.feedReplicas (key : Option Nat) (ctx : Nat) (buf : BitVec 24) (pa n : Nat) (w : Option PWrite) :
    o.Along m (s.feedReplicas key ctx buf pa n w) (t.feedReplicas key ctx buf pa n w) := by
  unfold State.feedReplicas
  rw [h.mem_eq, h.homeBytes_eq]
  dsimp only
  split
  · rw [(h.broadcast ..).mem_eq]
    exact (h.broadcast ..).setMem _
  · rw [h.mem_eq]
    exact h.setMem _

theorem State.Along.landHome (w : PWrite) (pa n : Nat) (kept : List Nat) : o.Along m (s.landHome w pa n kept) (t.landHome w pa n kept) := by
  unfold State.landHome
  rw [h.mem_eq]
  exact (h.setMem _).feedReplicas ..

theorem State.Along.pinHome (slot va pa n : Nat) : o.Along m (s.pinHome slot va pa n) (t.pinHome slot va pa n) := by
  refine State.Along.foldl (fun r u v huv => ?_) _ h
  dsimp only
  rw [huv.mem_eq, huv.homeSlice_eq, huv.pinShare_eq]
  exact State.Along.ite (fun _ => huv) fun _ => huv.setMem _

/-- One line's run: both states come along, and answer the same addresses. -/
theorem State.Along.performRun (w : PWrite) (pa : Nat) (bytes : List Byte) :
    o.Along m (s.performRun w pa bytes).1 (t.performRun w pa bytes).1 ∧ (t.performRun w pa bytes).2 = (s.performRun w pa bytes).2 := by
  unfold State.performRun
  rw [h.mem_eq, h.homeSlice_eq, h.pinShare_eq]
  dsimp only
  split
  case h_1 => exact ⟨(h.homePut ..).landHome .., rfl⟩
  case h_2 key _ =>
    split
    · have hspill := h.modCtx w.ctx (g := fun c => { c with heatspill := c.heatspill + 1 }) fun _ => rfl
      exact ⟨(hspill.homePut ..).landHome .., rfl⟩
    · have htag := h.setMem
        { s.mem with tags := s.mem.tags.put (pa / 128) ((s.mem.tags.at (pa / 128) {}).filter key w.wid (pa % 128) bytes).1 }
      rw [htag.homeBytes_eq]
      exact ⟨(htag.homePut ..).landHome .., rfl⟩

theorem State.Along.countDrop (w : PWrite) : o.Along m (s.countDrop w) (t.countDrop w) := by
  have hctx := h.modCtx w.ctx (g := fun c => { c with heatdrop := c.heatdrop + 1 }) fun _ => rfl
  unfold State.countDrop
  dsimp only
  rw [hctx.mem_eq]
  exact hctx.setMem _

theorem State.Along.bucketCount (slot : Nat) (vas : List Nat) : o.Along m (s.bucketCount slot vas) (t.bucketCount slot vas) := by
  obtain ⟨rfl, hf⟩ := h
  exact State.Along.ite (fun _ => ⟨rfl, hf⟩) fun _ => ⟨rfl, hf⟩

theorem State.Along.performRuns (w : PWrite) : o.Along m (s.performRuns w).1 (t.performRuns w).1 ∧ (t.performRuns w).2 = (s.performRuns w).2 := by
  have hpin := State.Along.ite (p := w.home = 2) (fun _ => h.pinHome w.slot w.va w.pa w.bytes.length) fun _ => h
  refine List.foldl_rel (r := fun a b : State × List Nat => o.Along m a.1 b.1 ∧ b.2 = a.2) ⟨hpin, rfl⟩ fun r _ a b hab => ?_
  obtain ⟨hstate, hsame⟩ := hab
  obtain ⟨hrun, hnew⟩ := hstate.performRun w r.1 ((w.bytes.drop (r.1 - w.pa)).take r.2)
  exact ⟨hrun, congrArg₂ (· ++ ·) hsame hnew⟩

theorem State.Along.countRuns (w : PWrite) (vas : List Nat) : o.Along m (s.countRuns w vas) (t.countRuns w vas) := by
  unfold State.countRuns
  dsimp only
  split_ifs
  · exact (h.countDrop w).bucketCount ..
  · exact h.bucketCount ..
  · exact h.countDrop w
  · exact h

theorem State.Along.perform (w : PWrite) : o.Along m (s.perform w) (t.perform w) := by
  obtain ⟨hruns, hvas⟩ := h.performRuns w
  rw [State.perform_eq, State.perform_eq, hvas]
  exact hruns.countRuns w _

theorem State.Along.dropWrite (id : Nat) : o.Along m (s.dropWrite id) (t.dropWrite id) := by
  unfold State.dropWrite
  rw [h.mem_eq]
  exact h.setMem _

theorem State.Along.applyR (r : RWrite) : o.Along m (s.applyR r) (t.applyR r) := by
  unfold State.applyR
  rw [h.mem_eq]
  dsimp only
  split
  · split
    · exact ((h.setMem _).dropWrite _).perform _
    · exact h.setMem _
  · exact h.setMem _

theorem State.Along.roomFor (d : Nat) : o.Along m (s.roomFor d) (t.roomFor d) := by
  unfold State.roomFor
  rw [h.mem_eq]
  exact State.Along.ite (fun _ => h) fun _ => State.Along.foldl (fun r s t hst => hst.applyR r) _ h

theorem State.Along.settle (d : Nat) (clk : List Nat) : o.Along m (s.settle d clk) (t.settle d clk) := by
  unfold State.settle
  rw [h.mem_eq]
  exact State.Along.foldl (fun r s t hst => (hst.roomFor d).applyR r) _ h

theorem State.Along.sendWrite (w : PWrite) : o.Along m (s.sendWrite w) (t.sendWrite w) := by
  unfold State.sendWrite
  rw [h.mem_eq]
  exact (h.setMem _).broadcast ..

theorem State.Along.direct (id : Nat) : o.Along m (s.direct id) (t.direct id) := by
  unfold State.direct
  rw [h.mem_eq]
  split
  case h_1 => exact h
  case h_2 w _ =>
    have hroom := (h.roomFor (coreDie (w.key / 2))).roomFor (paDie w.pa)
    have hsent := State.Along.ite (p := w.sent = true) (fun _ => hroom) fun _ => hroom.sendWrite w
    refine State.Along.ite (fun _ => (hroom.dropWrite id).perform w) fun _ => ?_
    dsimp only
    rw [hsent.mem_eq]
    split
    · exact hsent.settle ..
    · exact hsent

theorem State.Along.force (id : Nat) : o.Along m (s.force id) (t.force id) := by
  unfold State.force
  rw [h.mem_eq]
  split
  · exact h
  · exact (State.Along.foldl (fun v s t hst => hst.direct v.id) _ h).direct id

end

end

end Sys2Proof.Machine
end

section
/-! The begin of a version bump (R72, R232): the buffer's writes performed, the version in its place, and what a bump that begins leaves. -/

namespace Sys2Proof.Machine

section
variable {s : State} {c : Cmd} {ctx : Nat} {buf : BitVec 24}

/-- The pending writes to a buffer are performed. -/
def State.performBuf (s : State) (ctx : Nat) (buf : BitVec 24) : State :=
  (s.mem.wq.filter (fun w => w.ctx == ctx && w.buf == buf)).foldl (fun s w => s.force w.id) s

/-- The performing of a buffer's writes is the same whatever management holds. -/
theorem State.performBuf_along (s : State) (m : Mgmt) (ctx : Nat) (buf : BitVec 24) :
    s.Along m (s.performBuf ctx buf) (({ s with mgmt := m } : State).performBuf ctx buf) :=
  State.Along.foldl (fun w _ _ h => h.force w.id) _ ⟨rfl, rfl⟩

/-- The new version is written to its place, or that frame is contained where no stack holds it (R232). -/
def State.putVersion (u : State) (a : Nat) (v : Word32) : State :=
  if hbmExists a then { u with mem := { u.mem with hbm := u.mem.hbm.put a (leBytes (v.toNat + 1) 4) } } else u.badAgent a

theorem State.poisonFrame_keeps (u : State) (frame : Nat) :
    (u.poisonFrame frame).front = u.front ∧ (u.poisonFrame frame).outs = u.outs ∧ (u.poisonFrame frame).mem.hbm = u.mem.hbm := by
  unfold State.poisonFrame
  dsimp only
  split_ifs <;> exact ⟨rfl, rfl, rfl⟩

section
variable (u : State) (a : Nat) (v : Word32)

theorem State.badAgent_keeps : (u.badAgent a).front = u.front ∧ (u.badAgent a).outs.resp = u.outs.resp ∧ (u.badAgent a).mem.hbm = u.mem.hbm ∧
    (u.badAgent a).outs.cevents.length = u.outs.cevents.length + 1 := by
  obtain ⟨hfront, houts, hhbm⟩ := u.poisonFrame_keeps (a / 4096)
  have hevents : (u.badAgent a).outs.cevents.length = (u.poisonFrame (a / 4096)).outs.cevents.length + 1 := List.length_append
  exact ⟨hfront, (congrArg Outs.resp houts :), hhbm, houts ▸ hevents⟩

theorem State.putVersion_held (h : hbmExists a = true) :
    u.putVersion a v = { u with mem := { u.mem with hbm := u.mem.hbm.put a (leBytes (v.toNat + 1) 4) } } := if_pos h

theorem State.putVersion_contained (h : hbmExists a = false) : u.putVersion a v = u.badAgent a := if_neg (by simp [h])

theorem State.putVersion_keeps : (u.putVersion a v).front = u.front ∧ (u.putVersion a v).outs.resp = u.outs.resp := by
  cases h : hbmExists a with
  | true =>
    rw [State.putVersion_held u a v h]
    exact ⟨rfl, rfl⟩
  | false =>
    obtain ⟨hfront, hresp, -, -⟩ := u.badAgent_keeps a
    rw [State.putVersion_contained u a v h]
    exact ⟨hfront, hresp⟩

end

/-- A buffer's version advances, and its pages stall. -/
def Ctx.bump (buf : BitVec 24) (v : Word32) (x : Ctx) : Ctx := { x with vers := x.vers.set buf.toNat (v + 1), bumps := x.bumps ++ [buf.toNat] }

/-- The state in which a bump writes its version: the buffer's writes performed, its pages stalled. -/
def State.stallBuf (s : State) (c : Cmd) (ctx : Nat) (buf : BitVec 24) : State :=
  ((s.taken c).performBuf ctx buf).modCtx ctx (Ctx.bump buf ((s.ctxAt ctx).vers.get buf.toNat))

/-- A bump has begun (R72). -/
def State.bumped (s : State) (c : Cmd) (ctx : Nat) (buf : BitVec 24) : State :=
  let u := (s.stallBuf c ctx buf).putVersion ((s.ctxAt ctx).verbase + 4 * buf.toNat) ((s.ctxAt ctx).vers.get buf.toNat)
  { u with front := { u.front with bumpSeqs := u.front.bumpSeqs ++ [(ctx, buf.toNat, c.seq)] } }

section
variable (hacc : s.accepts c)
include hacc

theorem versionBump_noContext (h : s.front.ctxs.has ctx = false) : s.Answers (.versionBump c ctx buf) c (s.taken c) 6 := by
  change execVersionBump c ctx buf s = _
  have hc : (s.taken c).front.ctxs.has ctx = false := h
  simp [execVersionBump, State.command_accepted hacc, hc, Ans.out, State.respond]

variable (hctx : s.front.ctxs.has ctx = true)
include hctx

theorem versionBump_wraps (hv : (s.ctxAt ctx).vers.get buf.toNat = 0xFFFFFFFF) : s.Answers (.versionBump c ctx buf) c (s.taken c) 5 := by
  change execVersionBump c ctx buf s = _
  have hc : (s.taken c).front.ctxs.has ctx = true := hctx
  have hlast : ((s.taken c).ctxAt ctx).vers.get buf.toNat = 0xFFFFFFFF := hv
  simp [execVersionBump, State.command_accepted hacc, hc, hlast, Ans.out, State.respond]

theorem versionBump_begins (hv : (s.ctxAt ctx).vers.get buf.toNat ≠ 0xFFFFFFFF) :
    exec (.versionBump c ctx buf) s = .next (s.bumped c ctx buf) := by
  change execVersionBump c ctx buf s = _
  have hc : (!(s.taken c).front.ctxs.has ctx) = false := congrArg Bool.not hctx
  have hnew : ¬((s.taken c).ctxAt ctx).vers.get buf.toNat = 0xFFFFFFFF := hv
  rw [execVersionBump, State.command_accepted hacc]
  dsimp only
  rw [hc, if_neg Bool.false_ne_true, if_neg hnew]
  rfl

end

/-! What a bump that begins leaves (R72). -/

section
variable (s : State) (c : Cmd) (ctx : Nat) (buf : BitVec 24)

theorem State.taken_performBuf : (s.taken c).performBuf ctx buf = { s.performBuf ctx buf with mgmt := (s.taken c).mgmt } :=
  (s.performBuf_along (s.taken c).mgmt ctx buf).twin

theorem State.performBuf_offHeat : (s.performBuf ctx buf).offHeat = s.offHeat := (s.performBuf_along s.mgmt ctx buf).frame

theorem State.stallBuf_offCtxs : (s.stallBuf c ctx buf).offCtxs = ({ s.performBuf ctx buf with mgmt := (s.taken c).mgmt } : State).offCtxs := by
  rw [State.stallBuf, State.modCtx_offCtxs, State.taken_performBuf]

theorem State.stallBuf_mem : (s.stallBuf c ctx buf).mem = (s.performBuf ctx buf).mem :=
  (State.mem_of_offCtxs (s.stallBuf_offCtxs c ctx buf) :)

theorem State.stallBuf_outs : (s.stallBuf c ctx buf).outs = (s.performBuf ctx buf).outs :=
  (State.outs_of_offCtxs (s.stallBuf_offCtxs c ctx buf) :)

theorem State.stallBuf_bumpSeqs : (s.stallBuf c ctx buf).front.bumpSeqs = s.front.bumpSeqs :=
  have hstall : (s.stallBuf c ctx buf).front.bumpSeqs = (s.performBuf ctx buf).front.bumpSeqs :=
    (congrArg (fun u : State => u.front.bumpSeqs) (s.stallBuf_offCtxs c ctx buf) :)
  hstall.trans (State.bumpSeqs_of_offHeat (s.performBuf_offHeat ctx buf))

theorem State.stallBuf_ctxAt (hctx : s.front.ctxs.has ctx = true) :
    (s.stallBuf c ctx buf).ctxAt ctx = ((s.performBuf ctx buf).ctxAt ctx).bump buf ((s.ctxAt ctx).vers.get buf.toNat) := by
  have hhas : (s.performBuf ctx buf).front.ctxs.has ctx = true := (State.has_of_offHeat (s.performBuf_offHeat ctx buf) ctx).trans hctx
  rw [State.stallBuf, State.taken_performBuf]
  exact State.ctxAt_modCtx_same _ ctx _ hhas

/-- A bump begins with the version and the stall of its buffer in the context's record. -/
theorem State.bumped_ctx (hctx : s.front.ctxs.has ctx = true) :
    ((s.bumped c ctx buf).ctxAt ctx).vers = (s.ctxAt ctx).vers.set buf.toNat ((s.ctxAt ctx).vers.get buf.toNat + 1) ∧
      ((s.bumped c ctx buf).ctxAt ctx).bumps = (s.ctxAt ctx).bumps ++ [buf.toNat] := by
  obtain ⟨hfront, -⟩ := (s.stallBuf c ctx buf).putVersion_keeps ((s.ctxAt ctx).verbase + 4 * buf.toNat) ((s.ctxAt ctx).vers.get buf.toNat)
  have hctxs : (s.bumped c ctx buf).ctxAt ctx = (s.stallBuf c ctx buf).ctxAt ctx := (congrArg (fun f : Front => f.ctxs.at ctx {}) hfront :)
  have hold := State.ctxAt_of_offHeat (s.performBuf_offHeat ctx buf) ctx
  have hvers : ((s.performBuf ctx buf).ctxAt ctx).vers = (s.ctxAt ctx).vers := (congrArg Ctx.vers hold :)
  have hbumps : ((s.performBuf ctx buf).ctxAt ctx).bumps = (s.ctxAt ctx).bumps := (congrArg Ctx.bumps hold :)
  rw [hctxs, s.stallBuf_ctxAt c ctx buf hctx, Ctx.bump, hvers, hbumps]
  exact ⟨rfl, rfl⟩

/-- The version's place takes the new version, after the buffer's pending writes. -/
theorem State.bumped_held (h : hbmExists ((s.ctxAt ctx).verbase + 4 * buf.toNat) = true) : (s.bumped c ctx buf).mem =
    { (s.performBuf ctx buf).mem with
      hbm := (s.performBuf ctx buf).mem.hbm.put ((s.ctxAt ctx).verbase + 4 * buf.toNat) (leBytes (((s.ctxAt ctx).vers.get buf.toNat).toNat + 1) 4) } := by
  rw [← s.stallBuf_mem c ctx buf]
  exact congrArg State.mem (State.putVersion_held _ _ _ h)

/-- Where no stack holds the version's place, its frame is contained. -/
theorem State.bumped_contained (h : hbmExists ((s.ctxAt ctx).verbase + 4 * buf.toNat) = false) :
    (s.bumped c ctx buf).mem.hbm = (s.performBuf ctx buf).mem.hbm ∧
      (s.bumped c ctx buf).outs.cevents.length = (s.performBuf ctx buf).outs.cevents.length + 1 := by
  obtain ⟨-, -, hhbm, hevents⟩ := (s.stallBuf c ctx buf).badAgent_keeps ((s.ctxAt ctx).verbase + 4 * buf.toNat)
  have hput := (s.stallBuf c ctx buf).putVersion_contained _ ((s.ctxAt ctx).vers.get buf.toNat) h
  rw [s.stallBuf_mem c ctx buf] at hhbm
  rw [s.stallBuf_outs c ctx buf] at hevents
  exact ⟨(congrArg (fun u : State => u.mem.hbm) hput).trans hhbm, (congrArg (fun u : State => u.outs.cevents.length) hput).trans hevents⟩

theorem State.bumped_bumpSeqs : (s.bumped c ctx buf).front.bumpSeqs = s.front.bumpSeqs ++ [(ctx, buf.toNat, c.seq)] := by
  obtain ⟨hfront, -⟩ := (s.stallBuf c ctx buf).putVersion_keeps ((s.ctxAt ctx).verbase + 4 * buf.toNat) ((s.ctxAt ctx).vers.get buf.toNat)
  rw [← s.stallBuf_bumpSeqs c ctx buf]
  exact congrArg (fun f : Front => f.bumpSeqs ++ [(ctx, buf.toNat, c.seq)]) hfront

theorem State.bumped_resp : (s.bumped c ctx buf).outs.resp = s.outs.resp := by
  obtain ⟨-, hresp⟩ := (s.stallBuf c ctx buf).putVersion_keeps ((s.ctxAt ctx).verbase + 4 * buf.toNat) ((s.ctxAt ctx).vers.get buf.toNat)
  rw [s.stallBuf_outs c ctx buf, State.outs_of_offHeat (s.performBuf_offHeat ctx buf)] at hresp
  exact hresp

end

end

end Sys2Proof.Machine
end

section
/-! The end of a version bump (R72): every line of a buffer's pages reads as zero under the new version; and the statement
`Obligations.TranslationAndBumps`. -/

namespace Sys2Proof.Machine

/-! Zeros. -/

theorem Tbl.find_filter {α : Type} {t : Tbl α} {p : Nat × α → Bool} {a : Nat} {x : α} (h : t.find a = some x) (hp : p (a, x) = true) :
    Tbl.find (t.filter p) a = some x := by
  induction t with
  | nil => cases h
  | cons e r ih =>
    obtain ⟨k, v⟩ := e
    rw [Tbl.find] at h
    split_ifs at h with heq hlt
    · cases h
      subst heq
      simp [hp, Tbl.find]
    · rw [List.filter_cons]
      split
      · rw [Tbl.find, if_neg heq, if_neg hlt, ih h]
      · exact ih h

theorem Tbl.find_foldl_put {α : Type} (t : Tbl α) (x : α) (ks : List Nat) (a : Nat) :
    Tbl.find (ks.foldl (fun t k => t.put k x) t) a = if a ∈ ks then some x else t.find a := by
  induction ks generalizing t with
  | nil => simp
  | cons k ks ih =>
    rw [List.foldl_cons, ih]
    by_cases hk : a = k
    · subst hk
      simp [Tbl.find_put_same]
    · simp [Tbl.find_put_other _ _ _ _ hk, hk]

/-- A memory reads as zero where it lists nothing. -/
theorem Memory.get_of_unlisted {m : Memory} {a : Nat} (h : ∀ e ∈ m, e.1 ≠ a) : m.get a = 0 := by
  unfold Memory.get
  induction m with
  | nil => rfl
  | cons e r ih =>
    obtain ⟨k, v⟩ := e
    have hk : ¬a = k := fun heq => h (k, v) List.mem_cons_self heq.symm
    rw [Cells.get, if_neg hk]
    split
    · rfl
    · exact ih fun d hd => h d (List.mem_cons_of_mem _ hd)

/-- A byte is zero, in a line written under a tag. -/
def State.zeroAt (s : State) (t : Enc) (a : Nat) : Prop := (∀ e ∈ s.mem.hbm, e.1 ≠ a) ∧ s.mem.enc.find (a / 128) = some t

section
variable {s : State} {pa n : Nat} {t : Enc} (hpa : 128 ∣ pa) (hn : 128 ∣ n)
include hpa hn

theorem State.zeroUnder_enc (line : Nat) : (s.zeroUnder pa n t).mem.enc.find line =
    if pa ≤ line * 128 ∧ line * 128 < pa + n then some t else (s.wipe pa n).mem.enc.find line := by
  have hline : line ∈ upto (pa / 128) (n / 128) ↔ pa ≤ line * 128 ∧ line * 128 < pa + n := by
    rw [mem_upto]
    omega
  refine (Tbl.find_foldl_put ..).trans ?_
  simp only [hline]

/-- Every byte of the range is zero under the tag. -/
theorem State.zeroUnder_zeroAt {k : Nat} (hk : k < n) : (s.zeroUnder pa n t).zeroAt t (pa + k) := by
  refine ⟨fun e he => ?_, ?_⟩
  · have hout := (List.mem_filter.mp he).2
    simp only [Bool.or_eq_true, decide_eq_true_eq] at hout
    omega
  · rw [State.zeroUnder_enc hpa hn, if_pos (by omega)]

/-- What is zero under the tag stays so. -/
theorem State.zeroAt.zeroUnder {a : Nat} (h : s.zeroAt t a) : (s.zeroUnder pa n t).zeroAt t a := by
  obtain ⟨hzero, htag⟩ := h
  refine ⟨fun e he => hzero e (List.mem_filter.mp he).1, ?_⟩
  rw [State.zeroUnder_enc hpa hn]
  split
  case isTrue => rfl
  case isFalse hout =>
    refine Tbl.find_filter htag ?_
    simp only [Bool.or_eq_true, decide_eq_true_eq]
    omega

end

/-! A bump completes. -/

/-- A leaf begins and ends at a line. -/
def Leaf.aligned (l : Leaf) : Prop := 128 ∣ l.pa ∧ 128 ∣ l.size

theorem leafOf_aligned {level va i : Nat} {p0 p1 : Word64} : ∀ l ∈ leafOf level va i p0 p1, l.aligned := by
  intro l hl
  unfold leafOf at hl
  dsimp only at hl
  split at hl
  case isFalse => cases hl
  case isTrue hleaf =>
    rw [List.mem_singleton] at hl
    subst hl
    refine ⟨Dvd.dvd.mul_left (by decide) _, ?_⟩
    change 128 ∣ szBytes (fld p0 11 9)
    unfold szBytes
    split <;> decide

theorem State.tree_aligned (s : State) (ctx level addr va : Nat) : ∀ l ∈ (s.tree ctx level addr va).2, l.aligned := by
  induction level generalizing addr va with
  | zero =>
    intro l hl
    simp only [State.tree, List.mem_flatten, List.mem_map] at hl
    obtain ⟨ls, ⟨e, -, rfl⟩, hmem⟩ := hl
    exact leafOf_aligned l hmem
  | succ level ih =>
    intro l hl
    simp only [State.tree, List.map_map, List.mem_flatten, List.mem_map] at hl
    obtain ⟨ls, ⟨e, -, rfl⟩, hmem⟩ := hl
    dsimp only [Function.comp] at hmem
    split at hmem
    · exact ih _ _ l hmem
    · exact leafOf_aligned l hmem

theorem State.leaves_aligned (s : State) (slot : Nat) : ∀ l ∈ s.leaves slot, l.aligned := s.tree_aligned _ _ _ _

/-- Pages become zero one after another. -/
def State.zeroPages (s : State) (t : Enc) (ls : List Leaf) : State := ls.foldl (fun s l => s.zeroUnder l.pa l.size t) s

theorem State.zeroPages_front (s : State) (t : Enc) (ls : List Leaf) : (s.zeroPages t ls).front = s.front := foldl_keeps State.front _ ls s fun _ _ => rfl

theorem State.zeroPages_outs (s : State) (t : Enc) (ls : List Leaf) : (s.zeroPages t ls).outs = s.outs := foldl_keeps State.outs _ ls s fun _ _ => rfl

theorem State.zeroAt.zeroPages {s : State} {t : Enc} {ls : List Leaf} (hls : ∀ l ∈ ls, l.aligned) {a : Nat} (h : s.zeroAt t a) :
    (s.zeroPages t ls).zeroAt t a := by
  induction ls generalizing s with
  | nil => exact h
  | cons d ls ih =>
    obtain ⟨hpa, hsize⟩ := hls d List.mem_cons_self
    exact ih (fun l hl => hls l (List.mem_cons_of_mem _ hl)) (h.zeroUnder hpa hsize)

/-- Every byte of every page is zero under the tag in the end, whichever pages lie over each other. -/
theorem State.zeroPages_zeroAt {s : State} {t : Enc} {ls : List Leaf} (hls : ∀ l ∈ ls, l.aligned) {l : Leaf} (hl : l ∈ ls) {k : Nat}
    (hk : k < l.size) : (s.zeroPages t ls).zeroAt t (l.pa + k) := by
  induction ls generalizing s with
  | nil => cases hl
  | cons d ls ih =>
    have hrest : ∀ l ∈ ls, l.aligned := fun l hl => hls l (List.mem_cons_of_mem _ hl)
    obtain rfl | hl := List.mem_cons.mp hl
    · obtain ⟨hpa, hsize⟩ := hls l List.mem_cons_self
      exact (State.zeroUnder_zeroAt hpa hsize hk).zeroPages hrest
    · exact ih hrest hl

section
variable {s : State} {ctx : Nat} {buf : BitVec 24}

/-- The ranks of a context. -/
def State.ranksOf (s : State) (ctx : Nat) : List (Nat × Rank) := s.front.ranks.filter (fun e => e.2.ctx == ctx && e.2.state != .free)

/-- The pages of a buffer in HBM. -/
def State.bufPages (s : State) (ctx : Nat) (buf : BitVec 24) : List Leaf :=
  (((s.ranksOf ctx).filter (fun e => e.2.state == .active)).map (fun e => (s.leaves e.1).filter (fun l => l.buf == buf))).flatten

/-- Every line of a buffer reads as zero under its new version, in HBM and in LP6, and the bump is no longer due (R72). -/
def State.zeroBuf (s : State) (ctx : Nat) (buf : BitVec 24) (e : Nat × Nat × BitVec 32) : State :=
  let t := s.encNow ctx buf
  let u := s.zeroPages t (s.bufPages ctx buf)
  let cold (i : Nat) : Bool := (s.ranksOf ctx).any (fun e => e.1 == i && e.2.state == .cold)
  { u with front := { u.front with
    images := mapIf (fun g => cold g.slot) (fun g => g.zeroBuf t) u.front.images, bumpSeqs := u.front.bumpSeqs.filter (fun q => q != e) } }

/-- A bump has completed: its buffer's pages stall no more, and its command is answered. -/
def State.bumpEnded (s : State) (ctx : Nat) (buf : BitVec 24) (e : Nat × Nat × BitVec 32) : State :=
  ((s.zeroBuf ctx buf e).modCtx ctx (fun x => { x with bumps := x.bumps.erase buf.toNat })).respond e.2.2 0

/-- A rank of the context is on its way between HBM and LP6, or to another module. -/
def State.ranksMove (s : State) (ctx : Nat) : Prop := ∃ r ∈ s.front.ranks, r.2.ctx = ctx ∧ r.2.state ≠ .free ∧ r.2.state ≠ .active ∧ r.2.state ≠ .cold

theorem State.ranksMove_iff : (s.ranksOf ctx).any (fun e => e.2.state != .active && e.2.state != .cold) = true ↔ s.ranksMove ctx := by
  simp [State.ranksOf, State.ranksMove, and_assoc]

theorem bumpComplete_none (h : ∀ e ∈ s.front.bumpSeqs, ¬(e.1 = ctx ∧ e.2.1 = buf.toNat)) : exec (.bumpComplete ctx buf) s = .next s := by
  change execBumpComplete ctx buf s = _
  have hnone : s.front.bumpSeqs.find? (fun e => e.1 == ctx && e.2.1 == buf.toNat) = none :=
    List.find?_eq_none.mpr fun e he => by simpa using h e he
  simp only [execBumpComplete, hnone]

variable {e : Nat × Nat × BitVec 32} (hfind : s.front.bumpSeqs.find? (fun e => e.1 == ctx && e.2.1 == buf.toNat) = some e)
include hfind

theorem bumpComplete_waits (hmove : s.ranksMove ctx) : exec (.bumpComplete ctx buf) s = .next s := by
  change execBumpComplete ctx buf s = _
  have hany := State.ranksMove_iff.mpr hmove
  unfold State.ranksOf at hany
  simp only [execBumpComplete, hfind, hany, if_true]

theorem bumpComplete_ends (hmove : ¬s.ranksMove ctx) : exec (.bumpComplete ctx buf) s = .next (s.bumpEnded ctx buf e) := by
  change execBumpComplete ctx buf s = _
  have hany := mt State.ranksMove_iff.mp hmove
  unfold State.ranksOf at hany
  rw [execBumpComplete, hfind]
  dsimp only
  rw [if_neg hany]
  rfl

end

/-! What a bump that completes leaves (R72). -/

section
variable (s : State) (ctx : Nat) (buf : BitVec 24) (e : Nat × Nat × BitVec 32)

theorem State.zeroBuf_front : (s.zeroBuf ctx buf e).front.ctxs = s.front.ctxs ∧ (s.zeroBuf ctx buf e).front.ranks = s.front.ranks ∧
    (s.zeroBuf ctx buf e).front.bumpSeqs = s.front.bumpSeqs.filter (fun q => q != e) := by
  have hfront := s.zeroPages_front (s.encNow ctx buf) (s.bufPages ctx buf)
  exact ⟨(congrArg Front.ctxs hfront :), (congrArg Front.ranks hfront :), (congrArg (fun f : Front => f.bumpSeqs.filter (fun q => q != e)) hfront :)⟩

theorem State.respond_offOuts (s : State) (seq : BitVec 32) (status : Nat) (data : List Word64) : (s.respond seq status data).offOuts = s.offOuts := rfl

theorem State.bumpEnded_offCtxs_offOuts : (s.bumpEnded ctx buf e).offCtxs.offOuts = (s.zeroBuf ctx buf e).offCtxs.offOuts := by
  rw [State.bumpEnded, State.offCtxs_offOuts, State.respond_offOuts, ← State.offCtxs_offOuts, State.modCtx_offCtxs]

theorem State.bumpEnded_mem : (s.bumpEnded ctx buf e).mem = (s.zeroPages (s.encNow ctx buf) (s.bufPages ctx buf)).mem := by
  obtain ⟨-, -, -, hmem, -⟩ := State.agree_of_offCtxs_offOuts (s.bumpEnded_offCtxs_offOuts ctx buf e)
  exact hmem

theorem State.bumpSeqs_of_offCtxs_offOuts {s t : State} (h : t.offCtxs.offOuts = s.offCtxs.offOuts) : t.front.bumpSeqs = s.front.bumpSeqs :=
  (congrArg (fun u : State => u.front.bumpSeqs) h :)

theorem State.bumpEnded_front : (s.bumpEnded ctx buf e).front.ranks = s.front.ranks ∧
    (s.bumpEnded ctx buf e).front.bumpSeqs = s.front.bumpSeqs.filter (fun q => q != e) := by
  obtain ⟨-, hranks, hseqs⟩ := s.zeroBuf_front ctx buf e
  have hsame := s.bumpEnded_offCtxs_offOuts ctx buf e
  obtain ⟨hkept, -⟩ := State.agree_of_offCtxs_offOuts hsame
  exact ⟨hkept.trans hranks, (State.bumpSeqs_of_offCtxs_offOuts hsame).trans hseqs⟩

theorem State.bumpEnded_resp : (s.bumpEnded ctx buf e).outs.resp = s.outs.resp ++ [(e.2.2, 0, [])] := by
  have hctx := State.outs_of_offCtxs ((s.zeroBuf ctx buf e).modCtx_offCtxs ctx (fun x => { x with bumps := x.bumps.erase buf.toNat }))
  have houts : (s.zeroBuf ctx buf e).outs = s.outs := s.zeroPages_outs ..
  exact congrArg (fun o : Outs => o.resp ++ [(e.2.2, 0, [])]) (hctx.trans houts)

theorem State.bumpEnded_bumps (hctx : s.front.ctxs.has ctx = true) :
    ((s.bumpEnded ctx buf e).ctxAt ctx).bumps = (s.ctxAt ctx).bumps.erase buf.toNat := by
  obtain ⟨hctxs, -, -⟩ := s.zeroBuf_front ctx buf e
  have hsame := (s.zeroBuf ctx buf e).ctxAt_modCtx_same ctx (fun x => { x with bumps := x.bumps.erase buf.toNat }) (by rwa [hctxs])
  have hold : (s.zeroBuf ctx buf e).ctxAt ctx = s.ctxAt ctx := congrArg (fun t : Tbl Ctx => t.at ctx {}) hctxs
  exact (congrArg Ctx.bumps hsame).trans (congrArg (fun x : Ctx => x.bumps.erase buf.toNat) hold)

/-- Every byte of every page of the buffer that a rank of the context has in HBM is zero, under the version as it stands. -/
theorem State.bumpEnded_zeroAt {r : Nat × Rank} (hr : r ∈ s.front.ranks) (hctx : r.2.ctx = ctx) (hactive : r.2.state = .active) {l : Leaf}
    (hl : l ∈ s.leaves r.1) (hbuf : l.buf = buf) {k : Nat} (hk : k < l.size) : (s.bumpEnded ctx buf e).zeroAt (s.encNow ctx buf) (l.pa + k) := by
  have haligned : ∀ l ∈ s.bufPages ctx buf, l.aligned := by
    intro l hl
    simp only [State.bufPages, List.mem_flatten, List.mem_map, List.mem_filter] at hl
    obtain ⟨ls, ⟨r, -, rfl⟩, hmem⟩ := hl
    exact s.leaves_aligned r.1 l (List.mem_filter.mp hmem).1
  have hpage : l ∈ s.bufPages ctx buf := by
    simp only [State.bufPages, State.ranksOf, List.mem_flatten, List.mem_map, List.mem_filter]
    exact ⟨_, ⟨r, by simp [hr, hctx, hactive], rfl⟩, List.mem_filter.mpr ⟨hl, by simp [hbuf]⟩⟩
  have hzero := State.zeroPages_zeroAt (s := s) (t := s.encNow ctx buf) haligned hpage hk
  unfold State.zeroAt at hzero ⊢
  rwa [s.bumpEnded_mem ctx buf e]

end

/-- Settles O57: walks, shootdowns, errors and bumps, clause by clause from what each leaves. -/
theorem translationAndBumps : Obligations.TranslationAndBumps := by
  unfold Obligations.TranslationAndBumps
  intro s c core slot ctx va s0 s1 buf key kind
  refine ⟨fun f hf hwalk => ?fault, fun e a hf hwalk => ?walk, fun hheld => ?held, fun e hcore hcrew => ?crew, fun hacc => ?shoot,
    fun h pre post hs hnew => ?ack, fun id hid => shootdownAck_unknown hid, ?error, fun hacc => ?bump, fun hnone => bumpComplete_none hnone,
    fun e he => ?ended⟩
  case fault =>
    obtain ⟨hcore, hcrew⟩ := Option.or_eq_none_iff.mp (Option.orElse_eq_or.symm.trans hf)
    exact pageWalk_faults hcore hcrew hwalk
  case walk =>
    obtain ⟨hcore, hcrew⟩ := Option.or_eq_none_iff.mp (Option.orElse_eq_or.symm.trans hf)
    have hcovers := State.walk_covers hwalk
    exact ⟨_, pageWalk_walks hcore hcrew hwalk, State.tlbAdd_filled true hcore hcovers, State.tlbAdd_crew hcrew hcovers⟩
  case held =>
    obtain ⟨e, he⟩ := Option.isSome_iff_exists.mp hheld
    exact pageWalk_held he
  case crew => exact ⟨_, pageWalk_crew hcore hcrew, State.tlbAdd_filled false hcore (covers_of_tlbFind hcrew)⟩
  case shoot =>
    exact ⟨shootdown_refused hacc, fun hgood => ⟨_, shootdown_begins hacc hgood, rfl, rfl, rfl, State.shooting_tlb (s := s.taken c) hgood⟩⟩
  case ack =>
    have hfind : s.front.shoots.find? (fun g => g.id == h.id) = some h := by
      rw [hs]
      exact List.find?_eq_some_iff_append.mpr ⟨by simp, pre, post, rfl, by simpa using hnew⟩
    have hopen := s.shootOpen_iff h
    have hrange (slot va n : Nat) (hmeets : h.meets slot va n = false) : ¬(slot = h.slot ∧ (h.len = 0 ∨ (h.va < va + n ∧ va < h.va + h.len))) :=
      fun hin => Bool.false_ne_true (hmeets.symm.trans ((h.meets_iff slot va n).mpr hin))
    simp only [Shoot.meets_iff] at hopen
    refine ⟨fun hwait => shootdownAck_waits hfind (hopen.mpr hwait), fun hdone => ⟨_, shootdownAck_acks hfind (mt hopen.mp hdone), ?_⟩⟩
    simp only [State.acknowledge_coreOf, State.acknowledge_resp, State.acknowledge_front, State.acknowledge_streams, State.shotAgain_outs,
      State.shotAgain_front, State.shotAgain_streams, true_and, and_true]
    exact ⟨State.shotAgain_tlb, fun hsorted k hk p hp => hrange _ _ _ (State.shotAgain_pins hsorted hk p hp),
      fun p hp => hrange _ _ _ (State.acknowledge_homePins _ h p hp)⟩
  case error =>
    refine ⟨State.told_none, hbmError_nowhere, fun pa => hbmError_contains, fun e a hkey hquiet => State.errorPa_walk hquiet hkey,
      fun f hkey hquiet => State.errorPa_nowhere hquiet hkey, fun w hkey => State.errorPa_write hkey,
      fun k x p r q hkey hx hpend hrd hparts hwin => State.errorPa_load hkey hx hpend hrd hparts hwin,
      fun k w hkey hkind hw hfirst hlast => ?_⟩
    subst hkey hkind
    obtain ⟨hown, htold⟩ := State.told_store hw
    rw [hbmError_tells htold, State.failStore_own hfirst hlast, hown]
    rfl
  case bump =>
    refine ⟨versionBump_noContext hacc, versionBump_wraps hacc, fun hctx hv => ⟨_, versionBump_begins hacc hctx hv, ?_⟩⟩
    obtain ⟨hvers, hbumps⟩ := s.bumped_ctx c ctx buf hctx
    exact ⟨hvers, hbumps, ⟨s.bumped_held c ctx buf, s.bumped_contained c ctx buf⟩, s.bumped_bumpSeqs c ctx buf, s.bumped_resp c ctx buf⟩
  case ended =>
    refine ⟨bumpComplete_waits he, fun hmove => ⟨_, bumpComplete_ends he hmove, s.bumpEnded_resp ctx buf e, s.bumpEnded_bumps ctx buf e, ?_⟩⟩
    obtain ⟨hranks, hseqs⟩ := s.bumpEnded_front ctx buf e
    refine ⟨hseqs, hranks, fun r hr hctx hactive l hl hbuf k hk => ?_⟩
    obtain ⟨hzero, htag⟩ := s.bumpEnded_zeroAt ctx buf e hr hctx hactive hl hbuf hk
    exact ⟨fun _ => Memory.get_of_unlisted hzero, htag⟩

end Sys2Proof.Machine
end

section
/-! Slot words (R79-R83, R98): each field's decoder accepts the encodings of its operands and nothing else, and so each slot kind's decoder accepts the
encodings of its instructions and nothing else; the statements `Obligations.SlotWordsAgree` and `Obligations.DecodedWords`. -/

namespace Sys2Proof

/-! Operand fields: each decoder accepts exactly the encodings of what it returns (R80-R82). -/

/-- A decoder that reads back what was encoded, and whose argument is always the encoding of its result, accepts the encodings and nothing else. -/
theorem ok_iff_enc {α β : Type} [DecidableEq α] {dec : α → Except DecErr β} {enc : β → α} (hdec : ∀ r, dec (enc r) = .ok r)
    (henc : ∀ x, (dec x).toOption.all (fun r => x == enc r) = true) {x : α} {r : β} : dec x = .ok r ↔ x = enc r := by
  constructor
  · intro h
    simpa [h, Except.toOption] using henc x
  · rintro rfl
    exact hdec r

section
variable {x : BitVec 7} {y : BitVec 3}

theorem dReg_eq_ok {r : SReg} : dReg x = .ok r ↔ x = SReg.enc r := ok_iff_enc dReg_enc (by decide)

theorem dPred_eq_ok {p : PReg} : dPred x = .ok p ↔ x = PReg.enc p := ok_iff_enc dPred_enc (by decide)

theorem dSop_eq_ok {a : SOp} : dSop x = .ok a ↔ x = a.enc := ok_iff_enc dSop_enc (by decide)

theorem dDst_eq_ok {d : Dst} : dDst x = .ok d ↔ x = d.enc := ok_iff_enc dDst_enc (by decide)

theorem dLidx_eq_ok {l : BitVec 2} : dLidx x = .ok l ↔ x = 24#5 ++ l := ok_iff_enc dLidx_enc (by decide)

theorem dLine_eq_ok {l : Line} : dLine x = .ok l ↔ x = l.enc := ok_iff_enc dLine_enc (by decide)

theorem dDir11_eq_ok {r : SReg} : dDir11 x = .ok r ↔ x = dir11 r := ok_iff_enc dDir11_enc (by decide)

theorem dSrc_eq_ok {v : VSrc} : dSrc x = .ok v ↔ x = v.enc := ok_iff_enc dSrc_enc (by decide)

theorem dScale_eq_ok {c : Scale} : dScale x = .ok c ↔ x = c.enc := ok_iff_enc dScale_enc (by decide)

theorem dRaw1_eq_ok {v : BitVec 1} : dRaw 1 x = .ok v ↔ x = 0#6 ++ v := ok_iff_enc dRaw1_enc (by decide)

theorem dRaw2_eq_ok {v : BitVec 2} : dRaw 2 x = .ok v ↔ x = 0#5 ++ v := ok_iff_enc dRaw2_enc (by decide)

theorem dRaw3_eq_ok {v : BitVec 3} : dRaw 3 x = .ok v ↔ x = 0#4 ++ v := ok_iff_enc dRaw3_enc (by decide)

theorem dRaw4_eq_ok {v : BitVec 4} : dRaw 4 x = .ok v ↔ x = 0#3 ++ v := ok_iff_enc dRaw4_enc (by decide)

theorem dFlag_eq_ok {b : Bool} : dFlag y = .ok b ↔ y = flagF b := ok_iff_enc dFlag_enc (by decide)

theorem dDbl_eq_ok {b : Bool} : dDbl y = .ok b ↔ y = dblF b := ok_iff_enc dDbl_enc (by decide)

theorem dSTy_eq_ok {t : STy} : dSTy y = .ok t ↔ y = t.bits := ok_iff_enc dSTy_bits (by decide)

theorem dFCond_eq_ok {c : FCond} : dFCond y = .ok c ↔ y = c.bits := ok_iff_enc dFCond_bits (by decide)

theorem dBFun_eq_ok {f : BFun} : dBFun y = .ok f ↔ y = f.bits := ok_iff_enc dBFun_bits (by decide)

theorem dSz_eq_ok {z : Sz} : dSz y = .ok z ↔ y = z.bits := ok_iff_enc dSz_bits (by decide)

theorem dASz_eq_ok {z : ASz} : dASz y = .ok z ↔ y = z.bits := ok_iff_enc dASz_bits (by decide)

theorem dKFmt_eq_ok {f : KFmt} : dKFmt y = .ok f ↔ y = f.bits := ok_iff_enc dKFmt_bits (by decide)

theorem dEvMode_eq_ok {m : EvMode} : dEvMode y = .ok m ↔ y = m.bits := ok_iff_enc dEvMode_bits (by decide)

theorem Fmt.bits_of (y : BitVec 3) : (Fmt.of y).bits = y := by revert y; decide

theorem MFmt.bits_of (y : BitVec 3) : (MFmt.of y).bits = y := by revert y; decide

theorem Cond.bits_of (y : BitVec 3) : (Cond.of y).bits = y := by revert y; decide

theorem PFun.bits_of (y : BitVec 3) : (PFun.of y).bits = y := by revert y; decide

theorem Fmt.f32_bits : Fmt.f32.bits = 0#3 := rfl

theorem Fmt.i32_bits : Fmt.i32.bits = 6#3 := rfl

theorem dFmt_eq_ok {ok : Fmt → Bool} {f : Fmt} : dFmt ok y = .ok f ↔ ok f = true ∧ y = f.bits := by
  unfold dFmt
  constructor
  · intro h
    split at h
    · next hok =>
      cases h
      exact ⟨hok, (Fmt.bits_of y).symm⟩
    · nomatch h
  · rintro ⟨hok, rfl⟩
    rw [Fmt.of_bits, if_pos hok]

theorem dI32_eq_ok {u : Unit} : dI32 y = .ok u ↔ y = 6 := by simp [dI32]

end

/-- A system register has the index that is read as it, and no other (R152). -/
theorem dSys_eq_ok {x : BitVec 14} {r : SysReg} : dSys x = .ok r ↔ x = r.index := by
  constructor
  · intro h
    unfold dSys at h
    split at h <;> cases h <;> exact BitVec.eq_of_toNat_eq ‹_›
  · rintro rfl
    exact dSys_index r

theorem dZero_eq_ok {n : Nat} {x : BitVec n} {u : Unit} : dZero x = .ok u ↔ x = 0 := by simp [dZero]

theorem dOff_eq_ok {b : Bool} {u : Unit} : dOff b = .ok u ↔ b = false := by simp [dOff]

theorem checked_eq_ok {i j : Instr} : checked i = .ok j ↔ i.wf = true ∧ i = j := by
  unfold checked
  split <;> simp_all

/-- A sequence of field decoders accepts when each of them does. -/
theorem bind_eq_ok {α β : Type} {x : Except DecErr α} {f : α → Except DecErr β} {b : β} :
    (x >>= f) = .ok b ↔ ∃ a, x = .ok a ∧ f a = .ok b := by
  cases x <;> simp [bind, Except.bind]

/-! The same on encoded fields. -/

theorem ok_bind {α β : Type} (a : α) (f : α → Except DecErr β) : ((Except.ok a : Except DecErr α) >>= f) = f a := rfl

theorem dZero_zero (n : Nat) : dZero (0 : BitVec n) = .ok () := rfl

theorem dZero_flagF : dZero (flagF false) = .ok () := rfl

theorem dZero_f32 : dZero Fmt.f32.bits = .ok () := rfl

theorem dOff_false : dOff false = .ok () := rfl

theorem dI32_six : dI32 6 = .ok () := rfl

theorem dI32_i32 : dI32 Fmt.i32.bits = .ok () := rfl

theorem dFlag_zero : dFlag 0 = .ok false := rfl

theorem dFlag_one : dFlag 1 = .ok true := rfl

theorem dFmt_bits {ok : Fmt → Bool} {f : Fmt} (h : ok f = true) : dFmt ok f.bits = .ok f := dFmt_eq_ok.mpr ⟨h, rfl⟩

theorem checked_of_wf {i : Instr} (h : i.wf = true) : checked i = .ok i := if_pos h

/-! Joined immediates (R83): the fields that hold one are its parts, and the parts make it up again. -/

section
variable (op : BitVec 6) (f : BitVec 3) (b : Bool) (d a e : BitVec 7)

theorem imm18_parts (v : BitVec 18) : imm18 ⟨op, v.extractLsb' 15 3, v.getLsbD 14, d, v.extractLsb' 7 7, v.extractLsb' 0 7⟩ = v := by
  ext i hi
  simp only [imm18]
  grind

theorem off25_eOff (o : BitVec 25) : off25 (eOff op o) = o := by
  ext i hi
  simp only [off25, eOff]
  grind

theorem off17_parts (o : BitVec 17) : off17 ⟨op, o.extractLsb' 14 3, b, d, o.extractLsb' 7 7, o.extractLsb' 0 7⟩ = o := by
  ext i hi
  simp only [off17]
  grind

theorem code14_parts (c : BitVec 14) : code14 ⟨op, f, b, d, c.extractLsb' 7 7, c.extractLsb' 0 7⟩ = c :=
  BitVec.extractLsb'_append_extractLsb' (w := 7) (len := 7)

theorem eImm_imm18 (r : SReg) : eImm op r (imm18 ⟨op, f, b, d, a, e⟩) = ⟨op, f, b, SReg.enc r, a, e⟩ := by
  simp only [eImm, imm18, Fields.mk.injEq]
  grind

theorem eOff_off25 : eOff op (off25 ⟨op, f, b, d, a, e⟩) = ⟨op, f, b, d, a, e⟩ := by
  simp only [eOff, off25, Fields.mk.injEq]
  grind

theorem off17_high : (off17 ⟨op, f, b, d, a, e⟩).extractLsb' 14 3 = f := BitVec.extractLsb'_append_eq_left

theorem off17_mid : (off17 ⟨op, f, b, d, a, e⟩).extractLsb' 7 7 = a := by
  simp only [off17]
  grind

theorem off17_low : (off17 ⟨op, f, b, d, a, e⟩).extractLsb' 0 7 = e := by
  simp only [off17]
  grind

theorem code14_high : (code14 ⟨op, f, b, d, a, e⟩).extractLsb' 7 7 = a := BitVec.extractLsb'_append_eq_left

theorem code14_low : (code14 ⟨op, f, b, d, a, e⟩).extractLsb' 0 7 = e := BitVec.extractLsb'_append_eq_right

end

/-- The fields of a word and its stop bit make up the word (R79). -/
theorem Fields.word_of (w : Word32) : (Fields.of w).word (w.getLsbD 31) = w := by
  ext i hi
  simp only [Fields.word, Fields.of]
  grind

/-! Encoding, then decoding: each shape of fields decodes to the instruction it was made of. -/

section
variable (op : BitVec 6)

theorem shNone_fz (i : Instr) : shNone (fz op) i = .ok i := rfl

theorem shInt_eInt {k : Bool → Bool → SReg → SOp → SOp → Instr} (u w : Bool) (d : SReg) (a b : SOp) :
    shInt (eInt op u w d a b) k = .ok (k u w d a b) := by
  simp only [shInt, eInt, ok_bind, dFlag_enc, dReg_enc, dSop_enc]

theorem shFp_eFp {k : Bool → Bool → SReg → SReg → SReg → Instr} (s t : Bool) (d a b : SReg) :
    shFp (eFp op s t d a b) k = .ok (k s t d a b) := by
  simp only [shFp, eFp, ok_bind, dFlag_enc, dReg_enc]

section
variable {ok : Fmt → Bool} {f : Fmt} (hf : ok f = true) (s : Bool) (d : Line) (a b : VSrc)
include hf

theorem shV3s_eV3 {k : Fmt → Bool → Line → VSrc → VSrc → Instr} : shV3s (eV3 op f s d a b) ok k = .ok (k f s d a b) := by
  simp only [shV3s, eV3, ok_bind, dFmt_bits hf, dLine_enc, dSrc_enc]

theorem shV3_eV3 {k : Fmt → Line → VSrc → VSrc → Instr} : shV3 (eV3 op f false d a b) ok k = .ok (k f d a b) := by
  simp only [shV3, eV3, ok_bind, dFmt_bits hf, dOff_false, dLine_enc, dSrc_enc]

theorem shV2s_eV2 {k : Fmt → Bool → Line → VSrc → Instr} : shV2s (eV2 op f s d a) ok k = .ok (k f s d a) := by
  simp only [shV2s, eV2, ok_bind, dFmt_bits hf, dLine_enc, dSrc_enc, dZero_zero]

theorem shV2_eV2 {k : Fmt → Line → VSrc → Instr} : shV2 (eV2 op f false d a) ok k = .ok (k f d a) := by
  simp only [shV2, eV2, ok_bind, dFmt_bits hf, dOff_false, dLine_enc, dSrc_enc, dZero_zero]

theorem shVred_eRed {k : Fmt → SReg → VSrc → Instr} (r : SReg) : shVred (eRed op f false r a) ok k = .ok (k f r a) := by
  simp only [shVred, eRed, ok_bind, dFmt_bits hf, dOff_false, dDir11_enc, dSrc_enc, dZero_zero]

end

theorem shVbit_eV3 {k : Line → VSrc → VSrc → Instr} (d : Line) (a b : VSrc) : shVbit (eV3 op .f32 false d a b) k = .ok (k d a b) := by
  simp only [shVbit, eV3, ok_bind, dZero_f32, dOff_false, dLine_enc, dSrc_enc]

theorem shAB_eAB {k : SReg → SOp → Instr} (a : SReg) (b : SOp) : shAB (eAB op a b) k = .ok (k a b) := by
  simp only [shAB, eAB, ok_bind, dZero_zero, dOff_false, dReg_enc, dSop_enc]

theorem shAtom_eC {k : ASz → Bool → SReg → SReg → SOp → Instr} {sz : ASz} {o : Bool} {d a : SReg} {b : SOp} (h : (k sz o d a b).wf = true) :
    shAtom (eC op sz.bits o d a b) k = .ok (k sz o d a b) := by
  simp only [shAtom, eC, ok_bind, dASz_bits, dReg_enc, dSop_enc, checked_of_wf h]

/-- Bits 1:0 of the type of AMIN and AMAX are its size, and bit 2 its sign (R281). -/
theorem minMaxType_parts (s : Bool) (z : Sz) :
    0#1 ++ (BitVec.ofBool s ++ z.bits.extractLsb' 0 2).extractLsb' 0 2 = z.bits ∧ (BitVec.ofBool s ++ z.bits.extractLsb' 0 2).getLsbD 2 = s := by
  cases s <;> cases z <;> decide

theorem shMinMax_eC {k : Bool → Sz → Bool → SReg → SReg → SOp → Instr} (s : Bool) (z : Sz) (o : Bool) (d a : SReg) (b : SOp) :
    shMinMax (eC op (BitVec.ofBool s ++ z.bits.extractLsb' 0 2) o d a b) k = .ok (k s z o d a b) := by
  obtain ⟨hsize, hsign⟩ := minMaxType_parts s z
  simp only [shMinMax, eC, ok_bind, hsize, hsign, dSz_bits, dReg_enc, dSop_enc]

theorem shDab_eC {k : SReg → SReg → SOp → Instr} (d a : SReg) (b : SOp) : shDab (eC op 0 false d a b) k = .ok (k d a b) := by
  simp only [shDab, eC, ok_bind, dZero_zero, dOff_false, dReg_enc, dSop_enc]

theorem shRing_eRing {k : BitVec 4 → SOp → Instr} (r : BitVec 4) (b : SOp) : shRing (eRing op r b) k = .ok (k r b) := by
  simp only [shRing, eRing, ok_bind, dZero_zero, dOff_false, dRaw4_enc, dSop_enc]

end

/-- A slot word stands for an instruction: its operands are well-formed, and these are its slot kind and its fields. -/
def Instr.HasWord (i : Instr) (sk : SlotKind) (F : Fields) : Prop := i.wf = true ∧ encodeFields i = some (sk, F)

/-- The guard value of SEL is f3 with b below it (R141). -/
theorem selGuard_parts (p : PReg) : p.extractLsb' 1 3 ++ BitVec.ofBool (p.getLsbD 0) = p := by revert p; decide

/-- The last field of VCVT is its rounding above its source format, with bit 6 zero (R169). -/
theorem vcvtField_parts (p s : BitVec 3) :
    let e := 0#1 ++ (p ++ s)
    e.getLsbD 6 = false ∧ e.extractLsb' 3 3 = p ∧ e.extractLsb' 0 3 = s := by
  revert p s
  decide

/-- The mask of BKLOCK lies in f3[1:0] and the last two fields (R287). -/
theorem bklockMask_parts (m : BitVec 16) :
    (0#1 ++ m.extractLsb' 14 2).extractLsb' 2 1 = 0 ∧
      (0#1 ++ m.extractLsb' 14 2).extractLsb' 0 2 ++ (m.extractLsb' 7 7 ++ m.extractLsb' 0 7) = m := by
  constructor
  · ext i hi
    grind
  · ext i hi
    grind

section
variable {F : Fields} {i : Instr}

/-! An instruction's own word: its opcode picks the decoder's arm, by computation (`Eq.trans … rfl`), and the arm reads its fields back. -/

theorem decodeS_of_hasWord (h : i.HasWord .s F) : decodeS F = .ok i := by
  obtain ⟨hwf, h⟩ := h
  cases i <;> cases h
  case nop | ret | eret | tend | taskCatch | isync | yield => exact shNone_fz ..
  case lixstepAll => rfl
  case add | sub | mul | mulh | div | rem | and | or | xor | shl | shr | min | max => exact shInt_eInt ..
  case fadd | fma => exact shFp_eFp ..
  case br | call | loop => exact congrArg Except.ok (congrArg _ (off25_eOff ..))
  case widf k d a | widfPfx k d a =>
    have hk : k ≠ 6 := by
      rintro rfl
      nomatch hwf
    refine (if_neg hk).trans ?_
    simp only [ok_bind, dReg_enc, dSop_enc, dZero_zero, Bool.false_eq_true, if_false, if_true, checked_of_wf hwf]
  case fcvt =>
    refine Eq.trans (b := _ >>= _) rfl ?_
    simp only [ok_bind, dSTy_bits, dReg_enc, dRaw3_enc, checked_of_wf hwf]
  all_goals
    refine Eq.trans (b := _ >>= _) rfl ?_
    simp only [eFp, eC, eImm, ok_bind, dZero_zero, dZero_flagF, dOff_false, dReg_enc, dSop_enc, dDst_enc, dPred_enc, dLidx_enc, dRaw4_enc, dFlag_enc,
      dFlag_zero, dFlag_one, dBFun_bits, dFCond_bits, dSys_index, Cond.of_bits, PFun.of_bits, selGuard_parts, imm18_parts, off17_parts, code14_parts,
      Bool.false_eq_true, if_false, if_true]

theorem decodeV_of_hasWord (h : i.HasWord .v F) : decodeV F = .ok i := by
  obtain ⟨hwf, h⟩ := h
  cases i <;> cases h
  case vadd | vsub | vmul | vmac | vmsb => exact shV3s_eV3 _ rfl ..
  case vscalb | radd | rsub | rmul | rscalb => exact shV3s_eV3 _ hwf ..
  case vmin | vmax | vsel | vceq | vclt | vcle => exact shV3_eV3 _ rfl ..
  case vcun | uadd | usub | umul | uscalb => exact shV3_eV3 _ hwf ..
  case vabs | vneg => exact shV2s_eV2 _ rfl ..
  case vrcp | vrsq | vsqrt | vexp2 | vlog2 | vtanh | verf => exact shV2s_eV2 _ hwf ..
  case rrelu | urelu => exact shV2_eV2 _ hwf ..
  case vand | vor | vxor | vshuf => exact shVbit_eV3 ..
  case vredmax | vredmin => exact shVred_eRed _ rfl ..
  case vargmax | vnfchk => exact shVred_eRed _ hwf ..
  case vcvt t s sat p d a =>
    obtain ⟨htop, hround, hsrc⟩ := vcvtField_parts p s.bits
    refine Eq.trans (b := _ >>= _) rfl ?_
    simp only [ok_bind, dLine_enc, dSrc_enc, htop, hround, hsrc, Fmt.of_bits, Bool.false_eq_true, if_false]
  case vqnt | vqspt | vdqnt =>
    refine Eq.trans (b := _ >>= _) rfl ?_
    simp only [ok_bind, dZero_zero, dLine_enc, dSrc_enc, dScale_enc, Fmt.of_bits, checked_of_wf hwf]
  case vredadd f _ _ _ | vdrop f _ _ _ =>
    have hf : f.isFWI = true := hwf
    refine Eq.trans (b := _ >>= _) rfl ?_
    simp only [eRed, ok_bind, dFmt_bits hf, dOff_false, dZero_zero, dLine_enc, dSrc_enc, dDir11_enc, dRaw4_enc]
  case rnarw f _ _ _ _ | unarw f _ _ _ =>
    have hf : f.isHalf = true := hwf
    refine Eq.trans (b := _ >>= _) rfl ?_
    simp only [ok_bind, dFmt_bits hf, dOff_false, dLine_enc, dSrc_enc, dRaw1_enc]
  all_goals
    refine Eq.trans (b := _ >>= _) rfl ?_
    simp only [eV3, eV2, ok_bind, dZero_zero, dZero_f32, dOff_false, dI32_six, dI32_i32, dLine_enc, dSrc_enc, dDir11_enc]

theorem decodeC_of_hasWord (h : i.HasWord .c F) : decodeC F = .ok i := by
  obtain ⟨hwf, h⟩ := h
  cases i <;> cases h
  case aand | aor | axor | aswap | acas => exact shAtom_eC _ hwf
  case amin | amax => exact shMinMax_eC ..
  case feclr | feset | lblk | owngive | bkarm => exact shAB_eAB ..
  case tdep | chsend | chrecv => exact shDab_eC ..
  case rgadvt | rgadvh | rgwaitf | rgwaite => exact shRing_eRing ..
  case rssync | rssyncFlush => rfl
  case fenceAcq | fenceRel | fenceFull | fenceJoin =>
    refine Eq.trans (b := _ >>= _) rfl ?_
    simp [ok_bind, dZero]
  case ld | cpyt =>
    refine Eq.trans (b := _ >>= _) rfl ?_
    simp only [eC, ok_bind, dSz_bits, dReg_enc, dSop_enc, Fmt.of_bits, checked_of_wf hwf]
  case bklock m n =>
    obtain ⟨htop, hparts⟩ := bklockMask_parts m
    refine Eq.trans (b := _ >>= _) rfl ?_
    simp only [ok_bind, htop, hparts, dZero_zero, dOff_false, dRaw4_enc, checked_of_wf hwf]
  case afadd f o d a b =>
    cases f <;> refine Eq.trans (b := _ >>= _) rfl ?_ <;> simp only [eC, ok_bind, dReg_enc, dSop_enc]
  all_goals
    refine Eq.trans (b := _ >>= _) rfl ?_
    simp only [eC, ok_bind, dZero_zero, dOff_false, dLine_enc, dReg_enc, dPred_enc, dSop_enc, dRaw4_enc, dSz_bits, dDbl_enc, dFlag_enc, dEvMode_bits]

theorem decodeM_of_hasWord (h : i.HasWord .m F) : decodeM F = .ok i := by
  obtain ⟨hwf, h⟩ := h
  cases i <;> cases h
  case mwait => exact shNone_fz ..
  case mload => exact shAB_eAB ..
  case mcall =>
    refine Eq.trans (b := _ >>= _) rfl ?_
    simp only [ok_bind, dSop_enc, dRaw3_enc, MFmt.of_bits, checked_of_wf hwf]
  all_goals
    refine Eq.trans (b := _ >>= _) rfl ?_
    simp only [ok_bind, dZero_zero, dOff_false, dReg_enc, dSop_enc, dRaw3_enc]

theorem decodeK_of_hasWord (h : i.HasWord .k F) : decodeK F = .ok i := by
  obtain ⟨-, h⟩ := h
  cases i <;> cases h
  all_goals
    refine Eq.trans (b := _ >>= _) rfl ?_
    simp only [ok_bind, dZero_zero, dOff_false, dReg_enc, dSop_enc, dRaw2_enc, dRaw4_enc, dKFmt_bits, dFlag_enc]

/-! Joined fields, decoded and encoded again. -/

theorem selGuard_high (f : BitVec 3) (b : Bool) : (f ++ BitVec.ofBool b).extractLsb' 1 3 = f := by revert f b; decide

theorem selGuard_low (f : BitVec 3) (b : Bool) : (f ++ BitVec.ofBool b).getLsbD 0 = b := by revert f b; decide

theorem vcvtField_of_parts {e : BitVec 7} (h : e.getLsbD 6 = false) : (0#1 ++ (e.extractLsb' 3 3 ++ e.extractLsb' 0 3) : BitVec 7) = e := by
  revert e
  decide

theorem minMaxType_of_parts {f : BitVec 3} {z : Sz} (h : 0#1 ++ f.extractLsb' 0 2 = z.bits) :
    BitVec.ofBool (f.getLsbD 2) ++ z.bits.extractLsb' 0 2 = f := by
  rw [← h]
  clear h
  revert f
  decide

section
variable (f : BitVec 3) (a e : BitVec 7)

theorem bklockMask_high (h : f.extractLsb' 2 1 = 0) : 0#1 ++ (f.extractLsb' 0 2 ++ (a ++ e)).extractLsb' 14 2 = f := by
  have hhigh : (f.extractLsb' 0 2 ++ (a ++ e)).extractLsb' 14 2 = f.extractLsb' 0 2 := BitVec.extractLsb'_append_eq_left
  rw [hhigh]
  clear hhigh
  revert f
  decide

theorem bklockMask_mid : (f.extractLsb' 0 2 ++ (a ++ e)).extractLsb' 7 7 = a := by grind

theorem bklockMask_low : (f.extractLsb' 0 2 ++ (a ++ e)).extractLsb' 0 7 = e := by grind

end

/-- The last bit of FENCE's first field, alone where the bits above it are zero (R266). -/
theorem eq_zero_or_one_of_high_zero {d : BitVec 7} (h : d.extractLsb' 1 6 = 0) : d = 0 ∨ d = 1 := by
  revert d
  decide

/-- The fields of a system register's index (R151). -/
theorem dSys_code14_eq_ok {op : BitVec 6} {f : BitVec 3} {b : Bool} {d a e : BitVec 7} {r : SysReg} :
    dSys (code14 ⟨op, f, b, d, a, e⟩) = .ok r ↔ a = r.index.extractLsb' 7 7 ∧ e = r.index.extractLsb' 0 7 := by
  rw [dSys_eq_ok]
  constructor
  · intro h
    rw [← h, code14_high, code14_low]
    exact ⟨rfl, rfl⟩
  · rintro ⟨rfl, rfl⟩
    exact code14_parts ..

/-! Decoding, then encoding: the rules of the fields turn the acceptance of a word, arm by arm of the decoder, into the encodings of its fields. -/

theorem Instr.hasWord_of_encode {G : Fields} {sk : SlotKind} (hwf : i.wf = true) (h : encodeFields i = some (sk, G)) (hG : G = F) :
    i.HasWord sk F := ⟨hwf, hG ▸ h⟩

theorem eq_ofNat_of_toNat_eq {w n : Nat} {x : BitVec w} (h : x.toNat = n) : x = BitVec.ofNat w n := by
  rw [← h, BitVec.ofNat_toNat, BitVec.setWidth_eq]

/-- Whatever a sequence of field decoders accepts, its first decoder has accepted a field. -/
theorem bind_eq_ok_imp {α β : Type} {x : Except DecErr α} {f : α → Except DecErr β} {b : β} {P : Prop} :
    ((x >>= f) = .ok b → P) ↔ ∀ a, x = .ok a → f a = .ok b → P := by
  simp only [bind_eq_ok, forall_exists_index, and_imp]

theorem hasWord_of_decodeS (h : decodeS F = .ok i) : i.HasWord .s F := by
  obtain ⟨op, f, b, d, a, e⟩ := F
  unfold decodeS at h
  revert h
  split
  case h_53 => nofun
  case h_24 hop | h_48 hop => -- LIXSTEP, EVTEST: the variant is in b
    obtain rfl := eq_ofNat_of_toNat_eq hop
    cases b <;>
      simp only [bind_eq_ok_imp, Except.ok.injEq, dZero_eq_ok, dLidx_eq_ok, dDst_eq_ok, dSop_eq_ok, Bool.false_eq_true, if_false, if_true]
    all_goals
      intros
      subst_vars
      exact ⟨rfl, rfl⟩
  case h_47 hop => -- EVSET: the variant is in f3
    obtain rfl := eq_ofNat_of_toNat_eq hop
    simp only [bind_eq_ok_imp, Except.ok.injEq, dZero_eq_ok, dOff_eq_ok, dFlag_eq_ok, dSop_eq_ok]
    intro clr
    intros
    subst_vars
    cases clr <;> exact ⟨rfl, rfl⟩
  case h_49 hop => -- WIDF: f3 is the field number, or 6 for WIDF.W
    obtain rfl := eq_ofNat_of_toNat_eq hop
    split
    · simp only [bind_eq_ok_imp, Except.ok.injEq, dZero_eq_ok, dOff_eq_ok, dReg_eq_ok]
      intros
      subst_vars
      exact ⟨rfl, rfl⟩
    · simp only [bind_eq_ok_imp, checked_eq_ok, and_imp, dZero_eq_ok, dReg_eq_ok, dSop_eq_ok]
      intros
      subst_vars
      cases b <;> exact ⟨‹_›, rfl⟩
  case h_50 hop => -- FLAGOP: f3 is the operation
    obtain rfl := eq_ofNat_of_toNat_eq hop
    split
    case h_5 => nofun
    all_goals
      next hf =>
      obtain rfl := eq_ofNat_of_toNat_eq hf
      simp only [bind_eq_ok_imp, Except.ok.injEq, dZero_eq_ok, dOff_eq_ok, dReg_eq_ok, dPred_eq_ok, dSop_eq_ok]
      intros
      subst_vars
      exact ⟨rfl, rfl⟩
  all_goals
    next hop =>
    obtain rfl := eq_ofNat_of_toNat_eq hop
    simp only [shNone, shInt, shFp, bind_eq_ok_imp, checked_eq_ok, and_imp, Except.ok.injEq, dZero_eq_ok, dOff_eq_ok, dFlag_eq_ok, dReg_eq_ok,
      dPred_eq_ok, dSop_eq_ok, dDst_eq_ok, dLidx_eq_ok, dRaw3_eq_ok, dRaw4_eq_ok, dFCond_eq_ok, dSTy_eq_ok, dBFun_eq_ok, dSys_code14_eq_ok]
    intros
    subst_vars
    refine Instr.hasWord_of_encode (by trivial) rfl ?_
    simp only [BitVec.ofNat_eq_ofNat, fz, eInt, eFp, eC, flagF, Cond.bits_of, PFun.bits_of, selGuard_high, selGuard_low, eImm_imm18, eOff_off25,
      code14_high, code14_low, off17_high, off17_mid, off17_low, Bool.false_eq_true, if_false]

theorem hasWord_of_decodeV (h : decodeV F = .ok i) : i.HasWord .v F := by
  obtain ⟨op, f, b, d, a, e⟩ := F
  unfold decodeV at h
  revert h
  split
  case h_58 => nofun
  case h_21 hop => -- VCVT: the last field joins the rounding and the source format
    obtain rfl := eq_ofNat_of_toNat_eq hop
    simp only [bind_eq_ok_imp, dLine_eq_ok, dSrc_eq_ok]
    rintro d rfl a rfl h
    split at h
    · nomatch h
    · next htop =>
      cases h
      refine Instr.hasWord_of_encode rfl rfl ?_
      simp only [BitVec.ofNat_eq_ofNat, Fmt.bits_of, vcvtField_of_parts (Bool.not_eq_true _ ▸ htop)]
  all_goals
    next hop =>
    obtain rfl := eq_ofNat_of_toNat_eq hop
    simp only [shV3s, shV3, shV2s, shV2, shVbit, shVred, bind_eq_ok_imp, checked_eq_ok, and_imp, Except.ok.injEq, dZero_eq_ok, dOff_eq_ok,
      dI32_eq_ok, dFmt_eq_ok, dLine_eq_ok, dSrc_eq_ok, dDir11_eq_ok, dScale_eq_ok, dRaw1_eq_ok, dRaw4_eq_ok]
    intros
    subst_vars
    refine Instr.hasWord_of_encode (by trivial) rfl ?_
    simp only [BitVec.ofNat_eq_ofNat, eV3, eV2, eRed, Fmt.f32_bits, Fmt.i32_bits, Fmt.bits_of]

theorem hasWord_of_decodeM (h : decodeM F = .ok i) : i.HasWord .m F := by
  obtain ⟨op, f, b, d, a, e⟩ := F
  unfold decodeM at h
  revert h
  split
  case h_8 => nofun
  all_goals
    next hop =>
    obtain rfl := eq_ofNat_of_toNat_eq hop
    simp only [shNone, shAB, bind_eq_ok_imp, checked_eq_ok, and_imp, Except.ok.injEq, dZero_eq_ok, dOff_eq_ok, dReg_eq_ok, dSop_eq_ok, dRaw3_eq_ok]
    intros
    subst_vars
    refine Instr.hasWord_of_encode (by trivial) rfl ?_
    simp only [BitVec.ofNat_eq_ofNat, fz, eAB, MFmt.bits_of]

theorem hasWord_of_decodeC (h : decodeC F = .ok i) : i.HasWord .c F := by
  obtain ⟨op, f, b, d, a, e⟩ := F
  unfold decodeC at h
  revert h
  split
  case h_53 => nofun
  case h_20 hop | h_50 hop => -- AFADD, RSDROP: the variant is in f3
    obtain rfl := eq_ofNat_of_toNat_eq hop
    split
    case h_3 => nofun
    all_goals
      next hf =>
      obtain rfl := eq_ofNat_of_toNat_eq hf
      simp only [bind_eq_ok_imp, Except.ok.injEq, dZero_eq_ok, dOff_eq_ok, dReg_eq_ok, dSop_eq_ok]
      intros
      subst_vars
      exact ⟨rfl, rfl⟩
  case h_46 hop => -- FENCE: the variant is in b and the last bit of the first field
    obtain rfl := eq_ofNat_of_toNat_eq hop
    simp only [bind_eq_ok_imp, Except.ok.injEq, dZero_eq_ok]
    rintro - hd - rfl - rfl rfl
    obtain rfl | rfl := eq_zero_or_one_of_high_zero hd <;> cases b <;> exact ⟨rfl, rfl⟩
  case h_51 hop => -- RSSYNC: the variant is in f3
    obtain rfl := eq_ofNat_of_toNat_eq hop
    simp only [bind_eq_ok_imp, Except.ok.injEq, dZero_eq_ok, dOff_eq_ok, dFlag_eq_ok]
    intro flush
    intros
    subst_vars
    cases flush <;> exact ⟨rfl, rfl⟩
  case h_24 hop => -- BKLOCK: the mask is joined of f3 and the last two fields
    obtain rfl := eq_ofNat_of_toNat_eq hop
    simp only [bind_eq_ok_imp, checked_eq_ok, and_imp, dZero_eq_ok, dOff_eq_ok, dRaw4_eq_ok]
    rintro - hf - rfl n rfl hwf rfl
    refine Instr.hasWord_of_encode hwf rfl ?_
    simp only [BitVec.ofNat_eq_ofNat, bklockMask_high f a e hf, bklockMask_mid, bklockMask_low]
  all_goals
    next hop =>
    obtain rfl := eq_ofNat_of_toNat_eq hop
    simp only [shAB, shAtom, shMinMax, shDab, shRing, bind_eq_ok_imp, checked_eq_ok, and_imp, Except.ok.injEq, dZero_eq_ok, dOff_eq_ok, dFlag_eq_ok,
      dReg_eq_ok, dPred_eq_ok, dSop_eq_ok, dLine_eq_ok, dRaw4_eq_ok, dSz_eq_ok, dASz_eq_ok, dDbl_eq_ok, dEvMode_eq_ok]
    intros
    subst_vars
    refine Instr.hasWord_of_encode (by trivial) rfl ?_
    simp only [BitVec.ofNat_eq_ofNat, eAB, eC, eRing, Fmt.bits_of, minMaxType_of_parts, *]

theorem hasWord_of_decodeK (h : decodeK F = .ok i) : i.HasWord .k F := by
  obtain ⟨op, f, b, d, a, e⟩ := F
  unfold decodeK at h
  revert h
  split
  case h_7 => nofun
  case h_3 hop => -- KMOV: f3 is the direction
    obtain rfl := eq_ofNat_of_toNat_eq hop
    split
    case h_6 => nofun
    all_goals
      next hf =>
      obtain rfl := eq_ofNat_of_toNat_eq hf
      simp only [bind_eq_ok_imp, Except.ok.injEq, dZero_eq_ok, dOff_eq_ok, dReg_eq_ok, dSop_eq_ok, dRaw2_eq_ok, dRaw4_eq_ok]
      intros
      subst_vars
      exact ⟨rfl, rfl⟩
  case h_4 hop => -- KST: f3 is the register file
    obtain rfl := eq_ofNat_of_toNat_eq hop
    split
    case h_3 => nofun
    all_goals
      next hf =>
      obtain rfl := eq_ofNat_of_toNat_eq hf
      simp only [bind_eq_ok_imp, Except.ok.injEq, dOff_eq_ok, dReg_eq_ok, dSop_eq_ok, dRaw2_eq_ok, dRaw4_eq_ok]
      intros
      subst_vars
      exact ⟨rfl, rfl⟩
  all_goals
    next hop =>
    obtain rfl := eq_ofNat_of_toNat_eq hop
    simp only [bind_eq_ok_imp, Except.ok.injEq, dZero_eq_ok, dOff_eq_ok, dReg_eq_ok, dSop_eq_ok, dRaw2_eq_ok, dRaw4_eq_ok, dKFmt_eq_ok, dFlag_eq_ok]
    intros
    subst_vars
    exact ⟨rfl, rfl⟩

theorem decodeKind_eq_ok {sk : SlotKind} : decodeKind sk F = .ok i ↔ i.HasWord sk F := by
  cases sk with
  | s => exact ⟨hasWord_of_decodeS, decodeS_of_hasWord⟩
  | v => exact ⟨hasWord_of_decodeV, decodeV_of_hasWord⟩
  | m => exact ⟨hasWord_of_decodeM, decodeM_of_hasWord⟩
  | c => exact ⟨hasWord_of_decodeC, decodeC_of_hasWord⟩
  | k => exact ⟨hasWord_of_decodeK, decodeK_of_hasWord⟩

/-- Which of two faults a bad word raises does not touch the good ones (R84 steps 6 and 7). -/
theorem decodeFields_eq_ok {sk : SlotKind} : decodeFields sk F = .ok i ↔ i.HasWord sk F := by
  refine Iff.trans ⟨fun h => ?_, decodeFields_ok⟩ decodeKind_eq_ok
  unfold decodeFields at h
  split at h
  · split at h <;> nomatch h
  · exact h

theorem decodeSlot_eq_ok {sk : SlotKind} {w : Word32} : decodeSlot sk w = .ok i ↔ i.HasWord sk (Fields.of w) := decodeFields_eq_ok

end

/-- Settles O1: a slot kind's decoder accepts the fields that its instructions encode to, and a word is its fields and its stop bit. -/
theorem slotWordsAgree : Obligations.SlotWordsAgree := by
  unfold Obligations.SlotWordsAgree
  refine ⟨fun i sk F stop hwf henc => ?_, fun sk w i h => ?_⟩
  · rw [decodeSlot_word]
    exact decodeFields_eq_ok.mpr ⟨hwf, henc⟩
  · obtain ⟨hwf, henc⟩ := decodeSlot_eq_ok.mp h
    exact ⟨hwf, Fields.of w, henc, Fields.word_of w⟩

/-- Settles O3: the words decoded. -/
theorem decodedWords : Obligations.DecodedWords := by
  unfold Obligations.DecodedWords
  decide

end Sys2Proof
end

section
/-! Branches, calls and loops (R83, R88, R112, R148-R150): where a branch goes, what LOOP counts, and the statement `Obligations.ControlFlow`. -/

namespace Sys2Proof.Machine

/-! Where a branch goes (R83, R88, R148). -/

section
variable {s : State} {t : Word64} {k : State → Res}

theorem State.checked_aligned (h : t &&& 3 = 0) : s.checked t k = k s := if_neg (not_not_intro h)

theorem State.checked_misaligned (h : t &&& 3 ≠ 0) :
    s.checked t k = .trap { cause := 0x03, addr := t, info := info85 s.slotWord.2 0 0x21 } := if_pos h

theorem brp_taken {n : Bool} {p : PReg} (o : BitVec 17) (h : s.cur.readP p = !n) : s.Jumps (.brp n p o) (s.cur.pc + o.signExtend 64 * 4) := by
  have hne : s.cur.readP p != n := by simp [h]
  exact congrArg Host.Outcome.next (if_pos hne)

theorem brp_passed {n : Bool} {p : PReg} (o : BitVec 17) (h : s.cur.readP p = n) : exec (.brp n p o) s = .next s := by
  have heq : ¬(s.cur.readP p != n) := by simp [h]
  exact congrArg Host.Outcome.next (if_neg heq)

end

/-! Loops (R149, R150). -/

/-- LOOPSET leaves p8 true and p9 to p15 false. -/
theorem loopsetPreds (p : BitVec 16) : (1#8 ++ p.extractLsb' 0 8 : BitVec 16) = 0x0100 ||| (p &&& 0x00FF) := by
  refine BitVec.eq_of_getLsbD_eq fun i hi => ?_
  simp only [BitVec.getLsbD_append]
  interval_cases i <;> simp

/-- LOOP moves p8 to p14 up by one and puts its `in` in p8. -/
theorem loopPreds (q p : BitVec 16) (inn : Bool) :
    ((q.extractLsb' 8 7 ++ BitVec.ofBool inn : BitVec 8) ++ p.extractLsb' 0 8 : BitVec 16) =
      ((q &&& 0x7F00) <<< 1) ||| (if inn then 0x0100 else 0) ||| (p &&& 0x00FF) := by
  refine BitVec.eq_of_getLsbD_eq fun i hi => ?_
  simp only [BitVec.getLsbD_append]
  cases inn <;> interval_cases i <;> simp

/-- While a count is left, LOOP counts one down. -/
theorem loopCounts_sum (lc ec : Word32) : (loopCounts lc ec).1.toNat + (loopCounts lc ec).2.1.toNat = lc.toNat + ec.toNat - 1 := by
  unfold loopCounts
  split_ifs <;> bv_omega

/-- What a counter takes from LOOP: nothing where it does not count down. -/
def tookCount (new old : Word32) : Option Word32 := if new = old then none else some new

theorem tookCount_same (n : Word32) : tookCount n n = none := if_pos rfl

theorem tookCount_pred (n : Word32) : tookCount (n - 1) n = some (n - 1) := if_neg (by bv_omega)

/-- The one result of LOOP. -/
def State.loopTgt (s : State) : Tgt :=
  let n := loopCounts s.cur.lc s.cur.ec
  .loop (tookCount n.1 s.cur.lc) (tookCount n.2.1 s.cur.ec) (s.cur.rrb - 1) (s.cur.p.extractLsb' 8 7 ++ BitVec.ofBool n.2.2)

/-- LOOP branches while a count is left after its own count. -/
theorem exec_loop (s : State) (o : BitVec 25) :
    let u := s.out 1 s.loopTgt
    exec (.loop o) s = .next (if s.cur.lc.toNat + s.cur.ec.toNat ≤ 1 then u else u.jump (s.cur.pc + o.signExtend 64 * 4)) := by
  intro u
  have hleft : (loopCounts s.cur.lc s.cur.ec).1.toNat + (loopCounts s.cur.lc s.cur.ec).2.1.toNat > 0 ↔ ¬s.cur.lc.toNat + s.cur.ec.toNat ≤ 1 := by
    rw [loopCounts_sum]
    omega
  calc exec (.loop o) s
      = .next (if (loopCounts s.cur.lc s.cur.ec).1.toNat + (loopCounts s.cur.lc s.cur.ec).2.1.toNat > 0
          then u.jump (s.cur.pc + o.signExtend 64 * 4) else u) := rfl
    _ = _ := by simp only [hleft, ite_not]

/-- The counters LOOP writes and its `in`, by which of the counts is left. -/
theorem apply_loopTgt (s : State) (x : Stream) (m : Cells 32) : ∃ lc ec inn,
    (if s.cur.lc ≠ 0 then lc = s.cur.lc - 1 ∧ ec = x.ec ∧ inn = 0x0100
     else if s.cur.ec ≠ 0 then lc = x.lc ∧ ec = s.cur.ec - 1 ∧ inn = 0
     else lc = x.lc ∧ ec = x.ec ∧ inn = (0 : BitVec 16)) ∧
    x.apply m s.loopTgt = ({ x with lc := lc, ec := ec, rrb := s.cur.rrb - 1, p := ((s.cur.p &&& 0x7F00) <<< 1) ||| inn ||| (x.p &&& 0x00FF) }, m) := by
  refine ⟨(tookCount (loopCounts s.cur.lc s.cur.ec).1 s.cur.lc).getD x.lc, (tookCount (loopCounts s.cur.lc s.cur.ec).2.1 s.cur.ec).getD x.ec,
    if (loopCounts s.cur.lc s.cur.ec).2.2 then 0x0100 else 0, ?_, ?_⟩
  · unfold loopCounts
    by_cases hlc : s.cur.lc ≠ 0
    · rw [if_pos hlc, if_pos hlc]
      exact ⟨congrArg (·.getD x.lc) (tookCount_pred _), congrArg (·.getD x.ec) (tookCount_same _), rfl⟩
    rw [if_neg hlc, if_neg hlc]
    by_cases hec : s.cur.ec ≠ 0
    · rw [if_pos hec, if_pos hec]
      exact ⟨congrArg (·.getD x.lc) (tookCount_same _), congrArg (·.getD x.ec) (tookCount_pred _), rfl⟩
    rw [if_neg hec, if_neg hec]
    exact ⟨congrArg (·.getD x.lc) (tookCount_same _), congrArg (·.getD x.ec) (tookCount_same _), rfl⟩
  · rw [← loopPreds]
    rfl

/-- Settles O15, form by form. -/
theorem controlFlow : Obligations.ControlFlow := by
  unfold Obligations.ControlFlow
  refine ⟨fun s o o17 n p a => ⟨rfl, brp_taken o17, brp_passed o17, rfl, fun h => ?_, fun h => ?_, fun h => ?_, fun h => ?_⟩,
    fun s x m o a b => ⟨?_, ?_⟩⟩
  · exact ⟨congrArg (finish s) (State.checked_aligned h), congrArg (finish s) (State.checked_aligned h)⟩
  · exact ⟨congrArg (finish s) (State.checked_misaligned h), congrArg (finish s) (State.checked_misaligned h)⟩
  · exact congrArg (finish s) (State.checked_aligned h)
  · exact congrArg (finish s) (State.checked_misaligned h)
  · refine ⟨.loopset ((s.cur.readOp a).setWidth 32) ((s.cur.readOp b).setWidth 32), rfl, ?_⟩
    rw [← loopsetPreds]
    rfl
  · obtain ⟨lc, ec, inn, hcounts, happly⟩ := apply_loopTgt s x m
    exact ⟨s.loopTgt, lc, ec, inn, hcounts, happly, exec_loop s o⟩

end Sys2Proof.Machine
end

section
/-! Results that land (R108, R110-R112): what lands at one boundary and what stays on its way, the order of two results of one register, what the landing of
every result leaves, and the statement `Obligations.ResultsLand`. -/

namespace Sys2Proof.Machine

/-! One boundary (R108). -/

/-- Where no EVTEST is due, none is served. -/
theorem State.serveTakes_untested {s : State} {w : Land → Bool} (h : ∀ f ∈ s.cur.land, w f = true → f.tgt.tests = false) : s.serveTakes w = s := by
  have hnone : s.cur.land.filter (fun f => w f && f.tgt.tests) = [] := List.filter_eq_nil_iff.mpr fun f hf => by
    cases hw : w f with
    | false => simp
    | true => simp [h f hf hw]
  rw [State.serveTakes, hnone]
  rfl

/-- Where nothing is due, the state stands. -/
theorem State.landAt_none {s : State} {pos : Nat} (h : ∀ f ∈ s.cur.land, f.due ≠ pos) : s.landAt pos = s := by
  have hdue : s.cur.land.filter (fun f => f.due == pos) = [] := List.filter_eq_nil_iff.mpr fun f hf => by simpa using h f hf
  have hrest : s.cur.land.filter (fun f => f.due != pos) = s.cur.land := List.filter_eq_self.mpr fun f hf => by simpa using h f hf
  have hserve : s.serveTakes (fun f => f.due == pos) = s :=
    State.serveTakes_untested fun f hf hw => absurd (beq_iff_eq.mp hw) (h f hf)
  unfold State.landAt
  rw [hserve]
  dsimp only
  rw [hdue, hrest]
  simp [sortLand, applyAll, srdAll]

/-- Whether a target is written as it stands: it is no EVTEST's, no SRD's, no rotation's, and no cell's. -/
def Tgt.plain : Tgt → Bool
  | .ev _ _ _ => false
  | .evTake _ _ _ => false
  | .srd _ _ => false
  | .loop _ _ _ _ => false
  | .cells _ => false
  | _ => true

theorem Tgt.tests_of_plain {t : Tgt} (h : t.plain = true) : t.tests = false := by
  revert h
  cases t <;> simp [Tgt.plain, Tgt.tests]

theorem Tgt.isLoop_of_plain {t : Tgt} (h : t.plain = true) : t.isLoop = false := by
  revert h
  cases t <;> simp [Tgt.plain, Tgt.isLoop]

theorem Tgt.cellKeys_of_plain {t : Tgt} (h : t.plain = true) : t.cellKeys = [] := by
  revert h
  cases t <;> simp [Tgt.plain, Tgt.cellKeys]

/-- A target of a register or a flag leaves the cells. -/
theorem Stream.apply_cells_of_plain {t : Tgt} (h : t.plain = true) (x : Stream) (m : Cells 32) : (x.apply m t).2 = m := by
  revert h
  cases t <;> simp [Tgt.plain, Stream.apply]

/-- No SRD is among the targets. -/
theorem srdAll_of_plain (rd : SysReg → Word64) (l : List Land) (x : Stream) (h : ∀ e ∈ l, e.tgt.plain = true) : srdAll rd l x = x := by
  induction l generalizing x with
  | nil => rfl
  | cons e r ih =>
    obtain ⟨he, hr⟩ := List.forall_mem_cons.mp h
    have hkeep : ∀ d q, e.tgt ≠ .srd d q := fun d q htgt => by rw [htgt] at he; cases he
    rw [srdAll]
    split
    case h_1 d q htgt => exact absurd htgt (hkeep d q)
    case h_2 => exact ih x hr

theorem applyAll_cells_of_plain (l : List Tgt) (x : Stream) (m : Cells 32) (h : ∀ t ∈ l, t.plain = true) : (applyAll x m l).2 = m := by
  induction l generalizing x m with
  | nil => rfl
  | cons t r ih =>
    obtain ⟨ht, hr⟩ := List.forall_mem_cons.mp h
    rw [applyAll, ih _ _ hr, Stream.apply_cells_of_plain ht]

theorem mem_insertLand {a e : Land} {l : List Land} : e ∈ insertLand a l ↔ e = a ∨ e ∈ l := by
  induction l with
  | nil => simp [insertLand]
  | cons b r ih =>
    rw [insertLand]
    split
    · simp
    · simp [ih, or_left_comm]

theorem mem_sortLand {e : Land} {l : List Land} : e ∈ sortLand l ↔ e ∈ l := by
  induction l with
  | nil => simp [sortLand]
  | cons a r ih => rw [sortLand, List.foldr_cons, mem_insertLand, ← sortLand, ih, List.mem_cons]

/-- Plain results land: the targets are written in the order of the boundary, the flags join, and the rest stays on its way. -/
theorem State.landAt_plain {s : State} {pos : Nat} {due rest : List Land} (hdue : s.cur.land.filter (fun f => f.due == pos) = due)
    (hrest : s.cur.land.filter (fun f => f.due != pos) = rest) (hplain : ∀ e ∈ due, e.tgt.plain = true) :
    s.landAt pos = { s with cur :=
      let x := (applyAll s.cur s.core.mrf ((sortLand due).map (fun e => e.tgt))).1
      { x with flags := x.flags ||| (sortLand due).foldl (fun a e => a ||| e.flags) 0, land := rest } } := by
  have hsorted : ∀ e ∈ sortLand due, e.tgt.plain = true := fun e he => hplain e (mem_sortLand.mp he)
  have hserve : s.serveTakes (fun f => f.due == pos) = s :=
    State.serveTakes_untested fun f hf hw => Tgt.tests_of_plain (hplain f (hdue ▸ List.mem_filter.mpr ⟨hf, hw⟩))
  have hloops : (sortLand due).any (fun e => e.tgt.isLoop) = false :=
    List.any_eq_false.mpr fun e he => by simp [Tgt.isLoop_of_plain (hsorted e he)]
  have hkeys : ((sortLand due).map (fun e => e.tgt.cellKeys)).flatten = [] := by
    rw [List.flatten_eq_nil_iff]
    intro l hl
    obtain ⟨e, he, rfl⟩ := List.mem_map.mp hl
    exact Tgt.cellKeys_of_plain (hsorted e he)
  have hcells := applyAll_cells_of_plain ((sortLand due).map (fun e => e.tgt)) s.cur s.core.mrf (List.forall_mem_map.mpr hsorted)
  unfold State.landAt
  rw [hserve]
  dsimp only
  rw [hdue, hrest, hloops, hkeys, hcells, srdAll_of_plain _ _ _ hsorted]
  simp

section
variable {s : State} {as bs : List Land} {e : Land}

/-- One plain result lands, and every other one stays on its way (R108). -/
theorem State.boundary_one (hland : s.cur.land = as ++ e :: bs) (hdue : e.due = s.cur.pos + 1) (hother : ∀ f ∈ as ++ bs, f.due ≠ s.cur.pos + 1)
    (hplain : e.tgt.plain = true) :
    s.boundary = { s with cur :=
      let x := (({ s.cur with pos := s.cur.pos + 1 } : Stream).apply s.core.mrf e.tgt).1
      { x with flags := x.flags ||| e.flags, land := as ++ bs } } := by
  obtain ⟨has, hbs⟩ := List.forall_mem_append.mp hother
  have hfilter : s.cur.land.filter (fun f => f.due == s.cur.pos + 1) = [e] := by
    have hnil (l : List Land) (hl : ∀ f ∈ l, f.due ≠ s.cur.pos + 1) : l.filter (fun f => f.due == s.cur.pos + 1) = [] :=
      List.filter_eq_nil_iff.mpr fun f hf => by simpa using hl f hf
    rw [hland, List.filter_append, List.filter_cons_of_pos (by simpa using hdue), hnil as has, hnil bs hbs]
    rfl
  have hrest : s.cur.land.filter (fun f => f.due != s.cur.pos + 1) = as ++ bs := by
    have hall (l : List Land) (hl : ∀ f ∈ l, f.due ≠ s.cur.pos + 1) : l.filter (fun f => f.due != s.cur.pos + 1) = l :=
      List.filter_eq_self.mpr fun f hf => by simpa using hl f hf
    rw [hland, List.filter_append, List.filter_cons_of_neg (by simpa using hdue), hall as has, hall bs hbs]
  refine (State.landAt_plain (s := { s with cur := { s.cur with pos := s.cur.pos + 1 } }) hfilter hrest (by simpa using hplain)).trans ?_
  simp [sortLand, insertLand, applyAll]

end

/-! Two results of one register (R112). -/

/-- The result of the earlier slot, and of one slot kind the earlier-issued one, is written first. -/
theorem sortLand_pair {a b : Land} (h : a.rank < b.rank ∨ a.rank = b.rank ∧ a.pos < b.pos) {l : List Land} (hl : l = [a, b] ∨ l = [b, a]) :
    sortLand l = [a, b] := by
  have hab : a.before b = true := by
    simp only [Land.before, Bool.or_eq_true, Bool.and_eq_true, decide_eq_true_eq, beq_iff_eq]
    omega
  have hba : b.before a = false := by
    simp only [Land.before, Bool.or_eq_false_iff, Bool.and_eq_false_iff, decide_eq_false_iff_not, beq_eq_false_iff_ne]
    omega
  rcases hl with rfl | rfl
  · simp [sortLand, insertLand, hab]
  · simp [sortLand, insertLand, hba]

/-- Of two results of one scalar register the later stands, and the flags of both are set (R112). -/
theorem State.boundary_two {s : State} {a b : Land} {r : Nat} {x y : Word64} (hland : s.cur.land = [a, b] ∨ s.cur.land = [b, a])
    (ha : a.due = s.cur.pos + 1) (hb : b.due = s.cur.pos + 1) (hlater : a.rank < b.rank ∨ a.rank = b.rank ∧ a.pos < b.pos) (hat : a.tgt = .s r x)
    (hbt : b.tgt = .s r y) (hr : r ≠ 0) (hwf : s.cur.s.wf = true) :
    s.boundary.cur.s.get r = y ∧ s.boundary.cur.flags = s.cur.flags ||| (a.flags ||| b.flags) ∧ s.boundary.cur.land = [] := by
  have hall : ∀ f ∈ s.cur.land, f.due = s.cur.pos + 1 ∧ f.tgt.plain = true := by
    rcases hland with h | h <;> simp [h, ha, hb, hat, hbt, Tgt.plain]
  have hdue : s.cur.land.filter (fun f => f.due == s.cur.pos + 1) = s.cur.land :=
    List.filter_eq_self.mpr fun f hf => by simpa using (hall f hf).1
  have hrest : s.cur.land.filter (fun f => f.due != s.cur.pos + 1) = [] :=
    List.filter_eq_nil_iff.mpr fun f hf => by simpa using (hall f hf).1
  have hbound := State.landAt_plain (s := { s with cur := { s.cur with pos := s.cur.pos + 1 } }) hdue hrest fun f hf => (hall f hf).2
  rw [sortLand_pair hlater hland] at hbound
  rw [State.boundary, hbound]
  simp only [List.map_cons, List.map_nil, hat, hbt, applyAll, Stream.apply, Stream.writeS, if_neg hr, List.foldl_cons, List.foldl_nil,
    and_true]
  refine ⟨Cells.get_set_same r y (Cells.wf_set r x hwf), ?_⟩
  rw [show (0 : Flags) ||| a.flags = a.flags from BitVec.zero_or]

/-! A stop (R110): every result lands. -/

/-- A result in flight comes from one of a landing buffer: it is due with it, and takes no bit that it does not take. -/
def Land.From (l : List Land) (f : Land) : Prop := ∃ g ∈ l, f.due = g.due ∧ (g.tgt.takes = none → f.tgt.takes = none)

theorem Land.from_of_mem {l : List Land} {f : Land} (h : f ∈ l) : f.From l := ⟨f, h, rfl, id⟩

theorem Land.From.trans {l m : List Land} {f : Land} (h : f.From m) (hm : ∀ g ∈ m, Land.From l g) : f.From l := by
  obtain ⟨g, hg, hdue, htakes⟩ := h
  obtain ⟨k, hk, hdue', htakes'⟩ := hm g hg
  exact ⟨k, hk, hdue.trans hdue', htakes ∘ htakes'⟩

theorem State.served_takes (s : State) (t : Tgt) : (s.served t).takes = none := by
  cases t with
  | ev d c i => cases d <;> rfl
  | evTake d c i => cases d <;> rfl
  | _ => rfl

theorem Tgt.rotate_takes {t : Tgt} (h : t.takes = none) : t.rotate.takes = none := by
  unfold Tgt.rotate
  split
  · split_ifs <;> rfl
  · split_ifs <;> rfl
  · cases h
  · exact h

/-- One EVTEST served (R39). -/
def State.serveOne (s : State) (e : Land) : State :=
  let t := s.served e.tgt
  let s := match e.tgt.takes with
    | none => s
    | some (c, i) => s.modCtx c (fun x => { x with ev := x.ev &&& ~~~(BitVec.ofNat 256 (2 ^ i)) })
  { s with cur := { s.cur with land := s.cur.land.map (fun (f : Land) => if f == e then { f with tgt := t } else f) } }

theorem State.serveTakes_eq (s : State) (w : Land → Bool) :
    s.serveTakes w = (s.cur.land.filter (fun e => w e && e.tgt.tests)).foldl State.serveOne s := rfl

/-- A serving reaches the landing buffer and a context's event vector. -/
theorem State.serveOne_offCtxs (s : State) (e : Land) :
    ∃ u : State, u.offCtxs = s.offCtxs ∧ (e.tgt.takes = none → u = s) ∧
      s.serveOne e = { u with cur := { u.cur with land := u.cur.land.map (fun f => if f == e then { f with tgt := s.served e.tgt } else f) } } := by
  unfold State.serveOne
  cases h : e.tgt.takes with
  | none => exact ⟨s, rfl, fun _ => rfl, rfl⟩
  | some p => exact ⟨_, State.modCtx_offCtxs s p.1 _, nofun, rfl⟩

theorem State.serveOne_from (s : State) (e : Land) : ∀ f ∈ (s.serveOne e).cur.land, f.From s.cur.land := by
  obtain ⟨u, hu, -, hserve⟩ := s.serveOne_offCtxs e
  have hcur : u.cur = s.cur := (congrArg State.cur hu :)
  rw [hserve, hcur]
  intro f hf
  obtain ⟨g, hg, rfl⟩ := List.mem_map.mp hf
  refine ⟨g, hg, ?_, fun hnone => ?_⟩
  · split <;> rfl
  · split
    · exact s.served_takes _
    · exact hnone

/-- A state but for its contexts, the landing buffer, the registers and cells that a landing writes: everything that a landing leaves. -/
def State.offLanding (s : State) : State := { s.offCtxs with cur := {}, core := {} }

/-- Where a stream stands: its position, its address, its mode. -/
def Stream.standing (x : Stream) : Nat × Word64 × Bool := (x.pos, x.pc, x.handler)

theorem State.serveOne_offLanding (s : State) (e : Land) : (s.serveOne e).offLanding = s.offLanding := by
  obtain ⟨u, hu, -, hserve⟩ := s.serveOne_offCtxs e
  rw [hserve]
  exact (congrArg (fun t : State => { t with cur := {}, core := {} }) hu :)

theorem State.serveOne_standing (s : State) (e : Land) : (s.serveOne e).cur.standing = s.cur.standing := by
  obtain ⟨u, hu, -, hserve⟩ := s.serveOne_offCtxs e
  rw [hserve]
  exact (congrArg (fun t : State => t.cur.standing) hu :)

theorem State.serveTakes_offLanding (s : State) (w : Land → Bool) : (s.serveTakes w).offLanding = s.offLanding :=
  foldl_keeps State.offLanding State.serveOne _ _ State.serveOne_offLanding

theorem State.serveTakes_standing (s : State) (w : Land → Bool) : (s.serveTakes w).cur.standing = s.cur.standing :=
  foldl_keeps (fun t : State => t.cur.standing) State.serveOne _ _ State.serveOne_standing

theorem State.serveTakes_from (s : State) (w : Land → Bool) : ∀ f ∈ (s.serveTakes w).cur.land, f.From s.cur.land := by
  rw [State.serveTakes_eq]
  generalize s.cur.land.filter (fun e => w e && e.tgt.tests) = es
  induction es generalizing s with
  | nil => exact fun f hf => Land.from_of_mem hf
  | cons e r ih => exact fun f hf => (ih (s.serveOne e) f hf).trans (s.serveOne_from e)

theorem State.serveTakes_front {s : State} (w : Land → Bool) (h : ∀ e ∈ s.cur.land, e.tgt.takes = none) : (s.serveTakes w).front = s.front := by
  rw [State.serveTakes_eq]
  have hes : ∀ e ∈ s.cur.land.filter (fun e => w e && e.tgt.tests), e.tgt.takes = none := fun e he => h e (List.mem_filter.mp he).1
  generalize s.cur.land.filter (fun e => w e && e.tgt.tests) = es at hes
  clear h
  induction es generalizing s with
  | nil => rfl
  | cons e r ih =>
    obtain ⟨he, hr⟩ := List.forall_mem_cons.mp hes
    obtain ⟨u, -, hu, hserve⟩ := s.serveOne_offCtxs e
    rw [List.foldl_cons, ih hr, hserve, hu he]

/-- No target moves a stream. -/
theorem Stream.apply_standing (x : Stream) (m : Cells 32) (t : Tgt) : (x.apply m t).1.standing = x.standing := by
  cases t with
  | s r v => simp only [Stream.apply, Stream.writeS]; split <;> rfl
  | p r v => simp only [Stream.apply, Stream.writeP]; split <;> rfl
  | sys r v => cases r <;> rfl
  | _ => rfl

theorem applyAll_standing (l : List Tgt) (x : Stream) (m : Cells 32) : (applyAll x m l).1.standing = x.standing := by
  induction l generalizing x m with
  | nil => rfl
  | cons t r ih => rw [applyAll, ih, Stream.apply_standing]

theorem srdAll_standing (rd : SysReg → Word64) (l : List Land) (x : Stream) : (srdAll rd l x).standing = x.standing := by
  induction l generalizing x with
  | nil => rfl
  | cons e r ih =>
    rw [srdAll, ih]
    split
    · split
      · rfl
      · rw [Stream.writeS]
        split <;> rfl
    · rfl

/-- What of a stream's buffer stays on its way at a boundary, rotated where LOOP lands there (R113). -/
def Stream.staying (x : Stream) (pos : Nat) : List Land :=
  if (sortLand (x.land.filter (fun e => e.due == pos))).any (fun e => e.tgt.isLoop) then
    (x.land.filter (fun e => e.due != pos)).map (fun e => { e with tgt := e.tgt.rotate })
  else x.land.filter (fun e => e.due != pos)

/-- A landing writes the focused stream and the cells and parity of its core, after the EVTESTs that are due have been served. -/
theorem State.landAt_shape (s : State) (pos : Nat) : ∃ (x : Stream) (c : Core), x.standing = s.cur.standing ∧
    s.landAt pos = { s.serveTakes (fun e => e.due == pos) with
      cur := { x with land := (s.serveTakes (fun e => e.due == pos)).cur.staying pos }, core := c } := by
  refine ⟨_, _, ?_, rfl⟩
  rw [srdAll_standing]
  exact (applyAll_standing ..).trans (s.serveTakes_standing _)

theorem State.landAt_offLanding (s : State) (pos : Nat) : (s.landAt pos).offLanding = s.offLanding := by
  obtain ⟨x, c, -, hland⟩ := s.landAt_shape pos
  rw [hland]
  exact s.serveTakes_offLanding _

theorem State.landAt_standing (s : State) (pos : Nat) : (s.landAt pos).cur.standing = s.cur.standing := by
  obtain ⟨x, c, hx, hland⟩ := s.landAt_shape pos
  rw [hland]
  exact hx

theorem State.landAt_front {s : State} (pos : Nat) (h : ∀ e ∈ s.cur.land, e.tgt.takes = none) : (s.landAt pos).front = s.front := by
  obtain ⟨x, c, -, hland⟩ := s.landAt_shape pos
  rw [hland]
  exact State.serveTakes_front _ h

theorem Stream.staying_from (x : Stream) (pos : Nat) : ∀ f ∈ x.staying pos, f.From x.land ∧ f.due ≠ pos := by
  have hout {g : Land} (hg : g ∈ x.land.filter (fun e => e.due != pos)) : g ∈ x.land ∧ g.due ≠ pos := by simpa using List.mem_filter.mp hg
  intro f hf
  unfold Stream.staying at hf
  split at hf
  · obtain ⟨g, hg, rfl⟩ := List.mem_map.mp hf
    exact ⟨⟨g, (hout hg).1, rfl, Tgt.rotate_takes⟩, (hout hg).2⟩
  · exact ⟨Land.from_of_mem (hout hf).1, (hout hf).2⟩

/-- What is on its way after a boundary was on its way before it, and was not due. -/
theorem State.landAt_from (s : State) (pos : Nat) : ∀ f ∈ (s.landAt pos).cur.land, f.From s.cur.land ∧ f.due ≠ pos := by
  obtain ⟨x, c, -, hland⟩ := s.landAt_shape pos
  rw [hland]
  intro f hf
  obtain ⟨hfrom, hdue⟩ := (s.serveTakes (fun e => e.due == pos)).cur.staying_from pos f hf
  exact ⟨hfrom.trans (s.serveTakes_from _), hdue⟩

/-- Boundaries at offsets from the stream's position, one after another. -/
def State.landEach (s : State) (is : List Nat) : State := is.foldl (fun s i => s.landAt (s.cur.pos + i)) s

theorem State.landEach_offLanding (s : State) (is : List Nat) : (s.landEach is).offLanding = s.offLanding :=
  foldl_keeps State.offLanding _ _ _ fun a i => a.landAt_offLanding (a.cur.pos + i)

theorem State.landEach_standing (s : State) (is : List Nat) : (s.landEach is).cur.standing = s.cur.standing :=
  foldl_keeps (fun t : State => t.cur.standing) _ _ _ fun a i => a.landAt_standing (a.cur.pos + i)

theorem State.landEach_from (s : State) (is : List Nat) :
    ∀ f ∈ (s.landEach is).cur.land, f.From s.cur.land ∧ ∀ i ∈ is, f.due ≠ s.cur.pos + i := by
  induction is generalizing s with
  | nil => exact fun f hf => ⟨Land.from_of_mem hf, nofun⟩
  | cons i r ih =>
    intro f hf
    have hpos : (s.landAt (s.cur.pos + i)).cur.pos = s.cur.pos := (congrArg (fun p => p.1) (s.landAt_standing (s.cur.pos + i)) :)
    obtain ⟨hfrom, hrest⟩ := ih (s.landAt (s.cur.pos + i)) f hf
    rw [hpos] at hrest
    refine ⟨hfrom.trans fun g hg => (s.landAt_from (s.cur.pos + i) g hg).1, List.forall_mem_cons.mpr ⟨?_, hrest⟩⟩
    obtain ⟨g, hg, hdue, -⟩ := hfrom
    exact hdue ▸ (s.landAt_from (s.cur.pos + i) g hg).2

theorem State.landEach_front {s : State} (is : List Nat) (h : ∀ e ∈ s.cur.land, e.tgt.takes = none) : (s.landEach is).front = s.front := by
  induction is generalizing s with
  | nil => rfl
  | cons i r ih =>
    refine (ih fun e he => ?_).trans (State.landAt_front (s.cur.pos + i) h)
    obtain ⟨⟨g, hg, -, htakes⟩, -⟩ := s.landAt_from (s.cur.pos + i) e he
    exact htakes (h g hg)

/-- The latest position for which a result of a buffer is due. -/
def latestDue (l : List Land) : Nat := l.foldl (fun a e => max a e.due) 0

theorem le_latestDue {l : List Land} {e : Land} (h : e ∈ l) : e.due ≤ latestDue l := by
  have hmono (l : List Land) (a : Nat) : a ≤ l.foldl (fun a e => max a e.due) a := by
    induction l generalizing a with
    | nil => exact le_rfl
    | cons e r ih => exact (le_max_left ..).trans (ih _)
  have hle (l : List Land) (a : Nat) (he : e ∈ l) : e.due ≤ l.foldl (fun a e => max a e.due) a := by
    induction l generalizing a with
    | nil => cases he
    | cons d r ih =>
      rcases List.mem_cons.mp he with rfl | hr
      · exact (le_max_right ..).trans (hmono r _)
      · exact ih _ hr
  exact hle l 0 h

theorem State.landAll_eq (s : State) : s.landAll = s.landEach (upto 0 (latestDue s.cur.land + 1 - s.cur.pos)) := rfl

/-- At a stop no result stays on its way (R110). -/
theorem State.landAll_empty {s : State} (h : ∀ e ∈ s.cur.land, s.cur.pos ≤ e.due) : s.landAll.cur.land = [] := by
  rw [State.landAll_eq]
  refine List.eq_nil_iff_forall_not_mem.mpr fun f hf => ?_
  obtain ⟨⟨g, hg, hdue, -⟩, hout⟩ := s.landEach_from _ f hf
  have hlo := h g hg
  have hhi := le_latestDue hg
  exact hout (g.due - s.cur.pos) (mem_upto.mpr (by omega)) (by omega)

/-- Settles O8: one boundary, two results of one register, and a stop. -/
theorem resultsLand : Obligations.ResultsLand := by
  unfold Obligations.ResultsLand
  refine ⟨fun s as bs e r v b => ⟨fun h => ?_, fun hland hdue hother => ?_⟩, fun s a b r x y hland ha hb hlater hat hbt hr hwf => ?_, fun s h => ?_⟩
  · exact State.landAt_none h
  · have hone := State.boundary_one hland hdue hother
    refine ⟨fun htgt => ?_, fun htgt hr => ?_, fun k htgt => ?_, fun k htgt => ?_⟩ <;> rw [hone (by rw [htgt]; rfl), htgt]
    · simp only [Stream.apply, Stream.writeS]
      split <;> rfl
    · simp only [Stream.apply, Stream.writeP, if_neg hr]
    · rfl
    · rfl
  · exact State.boundary_two hland ha hb hlater hat hbt hr hwf
  · have hstand := s.landEach_standing (upto 0 (latestDue s.cur.land + 1 - s.cur.pos))
    have hoff := s.landEach_offLanding (upto 0 (latestDue s.cur.land + 1 - s.cur.pos))
    rw [← State.landAll_eq] at hstand hoff
    exact ⟨State.landAll_empty h, (congrArg (fun p => p.1) hstand :), (congrArg (fun p => p.2.1) hstand :), (congrArg (fun p => p.2.2) hstand :),
      (congrArg State.mem hoff :), (congrArg State.streams hoff :), (congrArg State.cores hoff :), fun hnone => State.landAll_eq s ▸ State.landEach_front _ hnone,
      (congrArg State.ops hoff :), (congrArg State.mgmt hoff :), (congrArg State.outs hoff :)⟩

end Sys2Proof.Machine
end

section
/-! What the memory system, the channel agents and the engines leave of a stream and its core (R234, R235, R257-R266, R303-R307): the stream's registers, the
cells, and where the contexts' save areas lie. -/

namespace Sys2Proof.Machine

/-- A stream but for its pending loads, what it has observed, its pending traps and its received granules: what traffic for it leaves. -/
def Stream.regs (x : Stream) : Stream := { x with pend := [], obs := [], heard := [], async := [], recv := [] }

/-- The focus, the registers of the streams in and out of it, the cells of each core, and each context's save areas. -/
def State.posture (s : State) :
    Bool × Nat × Stream × (Nat → Option Stream) × (Nat → Cells 32) × (Nat → Option (BitVec 52)) :=
  (s.curLive, s.curKey, s.cur.regs, fun k => (s.streams.find k).map Stream.regs, fun k => (s.coreOf k).mrf,
    fun c => (s.front.ctxs.find c).map Ctx.csapool)

section
variable {s t : State} (h : t.posture = s.posture)
include h

theorem State.curLive_of_posture : t.curLive = s.curLive := (congrArg (fun p => p.1) h :)

theorem State.curKey_of_posture : t.curKey = s.curKey := (congrArg (fun p => p.2.1) h :)

theorem State.streams_of_posture (k : Nat) : (t.streams.find k).map Stream.regs = (s.streams.find k).map Stream.regs :=
  (congrArg (fun p => p.2.2.2.1 k) h :)

theorem State.mrf_of_posture (k : Nat) : (t.coreOf k).mrf = (s.coreOf k).mrf := (congrArg (fun p => p.2.2.2.2.1 k) h :)

theorem State.ctxs_of_posture (c : Nat) : (t.front.ctxs.find c).map Ctx.csapool = (s.front.ctxs.find c).map Ctx.csapool :=
  (congrArg (fun p => p.2.2.2.2.2 c) h :)

theorem State.hasCtx_of_posture (c : Nat) : t.front.ctxs.has c = s.front.ctxs.has c := by
  simpa [Tbl.has] using congrArg Option.isSome (State.ctxs_of_posture h c)

theorem State.areaBase_of_posture (c area : Nat) : t.areaBase c area = s.areaBase c area := by
  have hpool (u : State) : (u.ctxAt c).csapool = ((u.front.ctxs.find c).map Ctx.csapool).getD 0 := by
    unfold State.ctxAt Tbl.at
    cases u.front.ctxs.find c <;> rfl
  rw [State.areaBase, hpool, State.ctxs_of_posture h, ← hpool, State.areaBase]

theorem State.stream_of_posture (k : Nat) : (t.stream k).map Stream.regs = (s.stream k).map Stream.regs := by
  have hcur : t.cur.regs = s.cur.regs := (congrArg (fun p => p.2.2.1) h :)
  rw [State.stream, State.stream, State.curLive_of_posture h, State.curKey_of_posture h]
  split
  · exact congrArg some hcur
  · exact State.streams_of_posture h k

end

theorem State.posture_of_offHeat {s t : State} (h : t.offHeat = s.offHeat) : t.posture = s.posture := by
  have hctxs : (fun c => (t.front.ctxs.find c).map Ctx.csapool) = fun c => (s.front.ctxs.find c).map Ctx.csapool := by
    funext c
    have hoff := congrArg (Option.map Ctx.csapool) (State.ctxs_of_offHeat h c)
    rwa [Option.map_map, Option.map_map] at hoff
  have hrest : (t.curLive, t.curKey, t.cur.regs, (fun k => (t.streams.find k).map Stream.regs), fun k => (t.coreOf k).mrf) =
      (s.curLive, s.curKey, s.cur.regs, (fun k => (s.streams.find k).map Stream.regs), fun k => (s.coreOf k).mrf) :=
    (congrArg (fun u : State => (u.curLive, u.curKey, u.cur.regs, (fun k => (u.streams.find k).map Stream.regs), fun k => (u.coreOf k).mrf)) h :)
  simp only [Prod.mk.injEq] at hrest
  simp only [State.posture, Prod.mk.injEq]
  tauto

/-! Records. -/

theorem State.putCore_posture {s : State} {c : Nat} {x : Core} (h : x.mrf = (s.coreOf c).mrf) : (s.putCore c x).posture = s.posture := by
  have hcores : (fun k => ((s.putCore c x).coreOf k).mrf) = fun k => (s.coreOf k).mrf := by
    funext k
    by_cases hk : k = c
    · rw [hk, State.coreOf_putCore_same, h]
    · rw [State.coreOf_putCore_other _ _ hk]
  have hrest : (s.putCore c x).offMemory = s.offMemory := State.putCore_offMemory ..
  have hfront : (s.putCore c x).front = s.front := State.front_of_offMemory hrest
  have hseat : ((s.putCore c x).curLive, (s.putCore c x).curKey, (s.putCore c x).cur, (s.putCore c x).streams) = (s.curLive, s.curKey, s.cur, s.streams) :=
    (congrArg (fun u : State => (u.curLive, u.curKey, u.cur, u.streams)) hrest :)
  simp only [Prod.mk.injEq] at hseat
  obtain ⟨hlive, hkey, hcur, hstreams⟩ := hseat
  rw [State.posture, hcores, hlive, hkey, hcur, hstreams, hfront, State.posture]

theorem State.putStream_posture {s : State} {k : Nat} {x y : Stream} (hx : s.stream k = some x) (hregs : y.regs = x.regs) :
    (s.putStream k y).posture = s.posture := by
  cases h : s.curLive && k == s.curKey with
  | true =>
    have hcur : x = s.cur := by simpa [State.stream, h, eq_comm] using hx
    simp only [State.putStream, h, if_true, State.posture, hregs, hcur]
    rfl
  | false =>
    have hfind : s.streams.find k = some x := by simpa [State.stream, h] using hx
    have hput : (fun i => ((s.streams.put k y).find i).map Stream.regs) = fun i => (s.streams.find i).map Stream.regs := by
      funext i
      by_cases hi : i = k
      · rw [hi, Tbl.find_put_same, hfind, Option.map_some, Option.map_some, hregs]
      · rw [Tbl.find_put_other _ _ _ _ hi]
    simp only [State.putStream, h, State.posture, Bool.false_eq_true, if_false, hput]
    rfl

theorem State.modStream_posture (s : State) (k : Nat) {f : Stream → Stream} (hf : ∀ x, (f x).regs = x.regs) : (s.modStream k f).posture = s.posture := by
  unfold State.modStream
  split
  case h_1 x hx => exact State.putStream_posture hx (hf x)
  case h_2 => rfl

theorem State.modCtx_posture (s : State) (c : Nat) {g : Ctx → Ctx} (hg : ∀ x, (g x).csapool = x.csapool) : (s.modCtx c g).posture = s.posture := by
  unfold State.modCtx
  split
  case h_2 => rfl
  case h_1 x hx =>
    have hput : (fun i => ((s.front.ctxs.put c (g x)).find i).map Ctx.csapool) = fun i => (s.front.ctxs.find i).map Ctx.csapool := by
      funext i
      by_cases hi : i = c
      · rw [hi, Tbl.find_put_same, hx, Option.map_some, Option.map_some, hg]
      · rw [Tbl.find_put_other _ _ _ _ hi]
    simp only [State.posture, State.putCtx, hput]
    rfl

/-! Writes on their way (R257-R260, R273, R314). -/

/-- A state comes along with itself. -/
theorem State.Along.refl (s : State) : s.Along s.mgmt s s := ⟨rfl, rfl⟩

theorem State.settle_posture (s : State) (d : Nat) (clk : List Nat) : (s.settle d clk).posture = s.posture :=
  State.posture_of_offHeat ((State.Along.refl s).settle d clk).frame

theorem State.direct_posture (s : State) (id : Nat) : (s.direct id).posture = s.posture :=
  State.posture_of_offHeat ((State.Along.refl s).direct id).frame

theorem State.force_posture (s : State) (id : Nat) : (s.force id).posture = s.posture :=
  State.posture_of_offHeat ((State.Along.refl s).force id).frame

theorem State.pinHome_posture (s : State) (slot va pa n : Nat) : (s.pinHome slot va pa n).posture = s.posture :=
  State.posture_of_offHeat ((State.Along.refl s).pinHome slot va pa n).frame

theorem State.homePut_posture (s : State) (ctx : Nat) (buf : BitVec 24) (pa : Nat) (bytes : List Byte) : (s.homePut ctx buf pa bytes).posture = s.posture :=
  State.posture_of_offHeat ((State.Along.refl s).homePut ctx buf pa bytes).frame

theorem State.feedReplicas_posture (s : State) (key : Option Nat) (ctx : Nat) (buf : BitVec 24) (pa n : Nat) (w : Option PWrite) :
    (s.feedReplicas key ctx buf pa n w).posture = s.posture :=
  State.posture_of_offHeat ((State.Along.refl s).feedReplicas key ctx buf pa n w).frame

theorem State.bucketCount_posture (s : State) (slot : Nat) (vas : List Nat) : (s.bucketCount slot vas).posture = s.posture :=
  State.posture_of_offHeat ((State.Along.refl s).bucketCount slot vas).frame

theorem State.settles_posture (s : State) (rs : List RWrite) (d : RWrite → Nat) : (rs.foldl (fun s r => s.settle (d r) r.clock) s).posture = s.posture :=
  foldl_keeps State.posture _ _ _ fun a r => a.settle_posture (d r) r.clock

theorem State.performAll_posture (s : State) (ids : List Nat) (p : Nat → Bool) : (s.performAll ids p).posture = s.posture :=
  (State.settles_posture _ _ _).trans (foldl_keeps State.posture (fun s i => s.force i) ids s fun a i => a.force_posture i)

theorem State.freshen_posture (s : State) (d pa n : Nat) : (s.freshen d pa n).posture = s.posture :=
  foldl_keeps State.posture _ _ _ fun a _ => a.settle_posture ..

theorem State.drainOn_posture (s : State) (key pa n : Nat) : (s.drainOn key pa n).posture = s.posture :=
  foldl_keeps State.posture _ _ _ fun a w => a.direct_posture w.id

theorem State.putNow_posture (s : State) (w : PWrite) : (s.putNow w).posture = s.posture := State.direct_posture ..

/-! Reads (R234, R258-R261). -/

theorem State.pinTouch_posture (s : State) (core slot ctx va line : Nat) (e : Tlb) : (s.pinTouch core slot ctx va line e).posture = s.posture := by
  unfold State.pinTouch
  dsimp only
  split
  · rfl
  · split
    · rfl
    · exact State.putCore_posture rfl

theorem State.observeOwn_posture (s : State) (own : Bool) (key place pa n : Nat) : (if own then s.observe key place pa n else s).posture = s.posture := by
  split
  · unfold State.observe
    dsimp only
    split
    · rfl
    · exact s.modStream_posture key fun _ => rfl
  · rfl

/-- A remote run, read after what the home's line clock names, which may leave a replica behind. -/
def State.readFar (s : State) (key ctx pa n : Nat) (e : Tlb) (own : Bool) : List Byte × State :=
  let line := pa / 128
  let d := coreDie (key / 2)
  let s := s.settle d (s.mem.lclk.at line [])
  let s := if own then s.observe key (paDie pa) pa n else s
  if s.homeOf e.home pa = 0 then
    let (t, s) := s.draw
    let s := if Config.freePick t then s.replicate ctx e.buf line d else s
    (s.homeBytes ctx e.buf pa n, s)
  else (s.homeBytes ctx e.buf pa n, s)

theorem State.readFar_posture (s : State) (key ctx pa n : Nat) (e : Tlb) (own : Bool) : (s.readFar key ctx pa n e own).2.posture = s.posture := by
  let v := s.settle (coreDie (key / 2)) (s.mem.lclk.at (pa / 128) [])
  let w := if own then v.observe key (paDie pa) pa n else v
  have hw : w.posture = s.posture := (v.observeOwn_posture own key (paDie pa) pa n).trans (s.settle_posture ..)
  refine Eq.trans ?_ hw
  change (if w.homeOf e.home pa = 0 then (_, if Config.freePick w.draw.1 then w.draw.2.replicate ctx e.buf (pa / 128) (coreDie (key / 2)) else w.draw.2)
    else (_, w) : List Byte × State).2.posture = w.posture
  by_cases hhome : w.homeOf e.home pa = 0
  · rw [if_pos hhome]
    dsimp only
    split <;> rfl
  · rw [if_neg hhome]

theorem State.readRun_posture (s : State) (key slot ctx va pa n : Nat) (e : Tlb) (own : Bool) :
    (s.readRun key slot ctx va pa n e own).2.posture = s.posture := by
  let u := if e.home = 3 then s.pinTouch (key / 2) slot ctx (va - pa % 128) (pa / 128) e else s
  have hu : u.posture = s.posture := by
    dsimp only [u]
    split
    · exact State.pinTouch_posture ..
    · rfl
  have hseen : (u.ownSeen key (pa / 128)).posture = u.posture := State.settles_posture u _ fun _ => coreDie (key / 2)
  refine Eq.trans ?_ hu
  unfold State.readRun
  dsimp only
  split
  · exact State.observeOwn_posture ..
  · split
    · exact State.observeOwn_posture ..
    · split
      · exact (State.observeOwn_posture ..).trans hseen
      · exact (State.readFar_posture (u.ownSeen key (pa / 128)) key ctx pa n e own).trans hseen

theorem State.readPiece_posture (s : State) (spad : Memory) (key slot ctx : Nat) (p : Piece) (own : Bool) :
    (s.readPiece spad key slot ctx p own).2.posture = s.posture := by
  unfold State.readPiece
  split
  · rfl
  · next pa e _ =>
    let u := if e.home = 2 then s.pinHome slot p.va pa p.n else s
    have hu : u.posture = s.posture := by
      dsimp only [u]
      split
      · exact State.pinHome_posture ..
      · rfl
    exact (foldl_keeps (fun a : List Byte × State => a.2.posture) (readOn key slot ctx pa e own p) _ _ fun a r => State.readRun_posture ..).trans hu

theorem State.readPieces_posture (spad : Memory) (key slot ctx : Nat) (own : Bool) (l : List Piece) (s : State) :
    (s.readPieces spad key slot ctx l own).2.posture = s.posture := by
  induction l generalizing s with
  | nil => rfl
  | cons p r ih => exact (ih _).trans (s.readPiece_posture spad key slot ctx p own)

theorem State.readParts_posture (ps : List RPart) (s : State) : (s.readParts ps).2.posture = s.posture := by
  induction ps generalizing s with
  | nil => rfl
  | cons p r ih =>
    obtain ⟨v, hv, hread⟩ : ∃ v : List Byte × State, v.2.posture = s.posture ∧ (s.readParts (p :: r)).2 = (v.2.readParts r).2 := by
      cases h : p.win with
      | some l => exact ⟨(l, s), rfl, by rw [State.readParts, h]⟩
      | none => exact ⟨_, State.readPiece_posture s [] s.curKey s.cur.slot s.cur.ctx p.piece true, by rw [State.readParts, h]⟩
    rw [hread, ih, hv]

theorem State.resolve_posture (s : State) (p : Pend) : (s.resolve p).posture = s.posture := by
  unfold State.resolve
  split
  · rfl
  · exact State.readParts_posture ..

theorem State.resolves_posture (s : State) (ps : List Pend) : (ps.foldl (fun s p => s.resolve p) s).posture = s.posture :=
  foldl_keeps State.posture _ _ _ fun a p => a.resolve_posture p

/-! Releases and acquires (R261-R266, R298). -/

theorem State.relMem_posture (s : State) (key level : Nat) (before : Option Nat) : (s.relMem key level before).posture = s.posture := by
  have harrive (u : State) : (u.arriveAll key before).posture = u.posture := by
    refine foldl_keeps State.posture _ _ _ fun a t => ?_
    dsimp only
    split <;> rfl
  have hseal (u : State) : (u.sealOps key level before).posture = u.posture := by
    unfold State.sealOps
    split <;> rfl
  refine (hseal _).trans ((harrive _).trans ((State.performAll_posture ..).trans ?_))
  split
  · exact State.resolves_posture ..
  · rfl

theorem State.relAll_posture (s : State) (key level : Nat) (before : Option Nat := none) : (s.relAll key level before).posture = s.posture := by
  refine (foldl_keeps State.posture _ _ _ fun a d => ?_).trans (s.relMem_posture key level before)
  split
  · exact State.settle_posture ..
  · rfl

theorem State.acq_posture (s : State) (key level : Nat) : (s.acq key level).posture = s.posture := State.performAll_posture ..

/-! Pinned lines and contained frames (R69, R235). -/

theorem State.unpin_posture (s : State) (core line : Nat) : (s.unpin core line).posture = s.posture := by
  unfold State.unpin
  dsimp only
  split
  · rfl
  · refine (foldl_keeps State.posture _ _ _ fun a i => ?_).trans (State.putCore_posture rfl)
    split
    · exact (State.feedReplicas_posture ..).trans (State.homePut_posture ..)
    · rfl

theorem State.unpinIf_posture (s : State) (core : Nat) (p : PinLine → Bool) : (s.unpinIf core p).posture = s.posture :=
  foldl_keeps State.posture _ _ _ fun a e => a.unpin_posture core e.1

theorem State.leaveCore_posture (s : State) (key slot : Nat) : (s.leaveCore key slot).posture = s.posture := by
  rw [State.leaveCore]
  generalize s.stream (if key % 2 = 0 then key + 1 else key - 1) = other
  split_ifs
  · rfl
  · exact State.unpinIf_posture ..

theorem State.poisonFrame_posture (s : State) (frame : Nat) : (s.poisonFrame frame).posture = s.posture := by
  unfold State.poisonFrame
  dsimp only
  split
  · rfl
  · split <;> rfl

theorem State.shoot_posture (s : State) (slot va len : Nat) : (s.shoot slot va len).posture = s.posture := by
  have hcores : (fun k => ((s.shoot slot va len).coreOf k).mrf) = fun k => (s.coreOf k).mrf := by
    funext k
    unfold State.coreOf State.shoot
    dsimp only
    split
    · rfl
    · exact (congrArg Core.mrf (Tbl.at_map s.cores (fun c => { c with tlb := c.tlb.filter (fun e => !e.hit slot va len) }) k {}) :)
  rw [State.posture, hcores]
  rfl

theorem State.cevent_posture (s : State) (kind cause ctx unit addr vrank : Nat) : (s.cevent kind cause ctx unit addr vrank).posture = s.posture := rfl

theorem State.putRank_posture (s : State) (i : Nat) (r : Rank) : (s.putRank i r).posture = s.posture := rfl

theorem State.contain_posture (s : State) (slot va frame : Nat) : (s.contain slot va frame).posture = s.posture := by
  refine Eq.trans ?_ (s.poisonFrame_posture frame)
  unfold State.contain
  dsimp only
  refine (State.cevent_posture ..).trans ?_
  split
  · rfl
  · exact State.shoot_posture ..

/-! Translation (R57-R68, R237). -/

/-- A result that carries a state leaves the posture. -/
structure Poised {ε α : Type} (s : State) (r : Except ε (α × State)) : Prop where
  keeps : ∀ a t, r = .ok (a, t) → t.posture = s.posture

section
variable {ε α β : Type} {s t : State} {a : α}

theorem Poised.error (e : ε) : Poised (α := α) s (.error e) := ⟨fun _ _ h => by cases h⟩

theorem Poised.ok (h : t.posture = s.posture) : Poised (ε := ε) s (.ok (a, t)) := by
  refine ⟨fun b u hok => ?_⟩
  cases hok
  exact h

theorem Poised.eq {r : Except ε (α × State)} (h : Poised s r) (hr : r = .ok (a, t)) : t.posture = s.posture := h.keeps a t hr

theorem Poised.after {r : Except ε (α × State)} (h : Poised t r) (ht : t.posture = s.posture) : Poised s r := ⟨fun b u hu => (h.keeps b u hu).trans ht⟩

theorem Poised.bind {r : Except ε (α × State)} {f : α × State → Except ε (β × State)} (hr : Poised s r) (hf : ∀ a t, Poised t (f (a, t))) :
    Poised s (r >>= f) := by
  match r with
  | .error e => exact Poised.error e
  | .ok (a, t) => exact (hf a t).after (hr.eq rfl)

end

theorem State.tlbAdd_posture (s : State) (core : Nat) (eng walked : Bool) (e : Tlb) : (s.tlbAdd core eng walked e).posture = s.posture := by
  have hcore : (if eng then s else s.putCore core { s.coreOf core with tlb := tlbFill 256 (Config.freeSched s.tick) (s.coreOf core).tlb e }).posture =
      s.posture := by
    split
    · rfl
    · exact State.putCore_posture rfl
  refine Eq.trans ?_ hcore
  unfold State.tlbAdd
  dsimp only
  split <;> rfl

theorem State.leaf_posture {s t : State} {core slot va : Nat} {k : AKind} {e : Tlb} {walked : Bool} (h : s.leaf core slot va k = .ok (e, walked, t)) :
    t.posture = s.posture := by
  unfold State.leaf at h
  split at h
  · cases h; rfl
  · split at h
    · cases h; exact State.tlbAdd_posture ..
    · split at h
      · cases h
      · cases h; exact State.tlbAdd_posture ..

theorem State.xlat_poised (s : State) (core slot va : Nat) (k : AKind) : Poised s (s.xlat core slot va k) := by
  refine ⟨fun a t h => ?_⟩
  unfold State.xlat at h
  split at h
  · cases h
  · split at h
    · cases h
    · next hleaf =>
      dsimp only at h
      split_ifs at h
      cases h
      exact State.leaf_posture hleaf

theorem State.place_poised (s : State) (x : Stream) (core va : Nat) (k : AKind) : Poised s (s.place x core va k) := by
  unfold State.place
  split
  · split
    · exact Poised.ok rfl
    · exact Poised.error _
  · split
    · next hx => exact Poised.ok ((s.xlat_poised core x.slot va k).eq hx)
    · exact Poised.error _

theorem State.placeAll_poised (x : Stream) (core : Nat) (k : AKind) (l : List (Nat × Nat)) (s : State) : Poised s (s.placeAll x core k l) := by
  induction l generalizing s with
  | nil => exact Poised.ok rfl
  | cons r l ih =>
    rw [State.placeAll]
    split
    · exact Poised.error _
    · next hplace =>
      split
      · exact Poised.error _
      · next hall => exact Poised.ok (((ih _).eq hall).trans ((s.place_poised x core r.1 k).eq hplace))

theorem State.agentPieces_poised (s : State) (core slot va n : Nat) (k : AKind) : Poised s (s.agentPieces core slot va n k) := by
  unfold State.agentPieces
  split
  · exact Poised.error _
  · next hps =>
    split
    · exact Poised.error _
    · exact Poised.ok ((State.placeAll_poised _ _ _ _ s).eq hps)

/-! An agent's traffic (R303-R306). -/

theorem State.latDone_posture (s : State) (ls : List (Nat × Bool)) : (s.latDone ls).posture = s.posture := foldl_keeps State.posture _ _ _ fun _ _ => rfl

theorem State.agentRead_poised (s : State) (core slot va n : Nat) (fresh : Bool) : Poised s (s.agentRead core slot va n fresh) := by
  unfold State.agentRead
  dsimp only
  split
  · exact Poised.error _
  · next ps u hps =>
    split
    · exact Poised.error _
    · refine Poised.ok ?_
      refine (State.readPieces_posture ..).trans ((State.latDone_posture ..).trans (Eq.trans ?_ ((s.agentPieces_poised core slot va n .eread).eq hps)))
      split
      · refine foldl_keeps State.posture _ _ _ fun a p => ?_
        split
        · exact State.freshen_posture ..
        · rfl
      · rfl

theorem State.pinPut_posture (s : State) (x : Stream) (key va pa : Nat) (e : Tlb) (bytes : List Byte) (cnt : Bool) :
    (s.pinPut x key va pa e bytes cnt).posture = s.posture := by
  refine foldl_keeps State.posture _ _ _ fun a r => ?_
  dsimp only
  refine Eq.trans ?_ (a.pinTouch_posture (key / 2) x.slot x.ctx (va + (r.1 - pa) - r.1 % 128) (r.1 / 128) e)
  split
  · split
    · exact (State.bucketCount_posture ..).trans (State.putCore_posture rfl)
    · exact State.putCore_posture rfl
  · exact State.putNow_posture ..

theorem State.agentPut_posture (s : State) (w : AWrite) (p : Piece) (l : List Byte) : (s.agentPut w p l).posture = s.posture := by
  unfold State.agentPut
  split
  · rfl
  · next pa e _ =>
    dsimp only
    have hread : (if s.curLive && w.by_ == s.curKey then s.resolveOn pa l.length else s).posture = s.posture := by
      split
      · exact State.resolves_posture ..
      · rfl
    refine Eq.trans ?_ ((State.drainOn_posture _ w.by_ pa l.length).trans hread)
    split
    · exact State.pinPut_posture ..
    · exact State.putNow_posture ..

theorem State.agentWrites_posture (w : AWrite) (rs : List (Nat × Nat)) (l : List Byte) (s : State) : (s.agentWrites w rs l).1.posture = s.posture := by
  induction rs generalizing s l with
  | nil => rfl
  | cons r rs ih =>
    rw [State.agentWrites]
    split
    · rfl
    · next ps u hps =>
      split
      · rfl
      · refine (ih _ _).trans (Eq.trans ?_ ((s.agentPieces_poised w.core w.slot r.1 r.2 .ewrite).eq hps))
        exact (foldl_keeps (fun a : State × List Byte => a.1.posture) _ _ _ fun a p => a.1.agentPut_posture w p _).trans (State.latDone_posture ..)

theorem State.agentWrite_posture (s : State) (w : AWrite) (va : Nat) (l : List Byte) : (s.agentWrite w va l).1.posture = s.posture :=
  State.agentWrites_posture ..

/-! Overflow lists (R303). -/

theorem State.listRead_poised (s : State) (slot va n : Nat) : Poised s (s.listRead slot va n) := State.agentRead_poised ..

theorem State.listPut_poised (s : State) (slot va : Nat) (l : List Byte) : Poised s (s.listPut slot va l) := by
  unfold State.listPut
  split
  · next hw => exact Poised.ok (by rw [← s.agentWrite_posture _ va l, hw])
  · exact Poised.error _

theorem State.listPutW_poised (s : State) (slot va v : Nat) : Poised s (s.listPutW slot va v) := State.listPut_poised ..

theorem State.listCtl_poised (s : State) (slot : Nat) : Poised s (s.listCtl slot) :=
  (s.listRead_poised slot _ 48).bind fun _ _ => Poised.ok rfl

theorem State.listFind_poised (slot : Nat) (f : List Word64 → Bool) (fuel prev node : Nat) (s : State) : Poised s (s.listFind slot f fuel prev node) := by
  induction fuel generalizing s prev node with
  | zero => exact Poised.ok rfl
  | succ n ih =>
    rw [State.listFind]
    split
    · exact Poised.ok rfl
    · split
      · exact Poised.error _
      · next l u hread =>
        have hu := (s.listRead_poised slot node 24).eq hread
        dsimp only
        split
        · exact Poised.ok hu
        · exact (ih ..).after hu

theorem State.unlink_poised (s : State) (slot ctl prev next : Nat) : Poised s (s.unlink slot ctl prev next) := by
  unfold State.unlink
  split <;> exact State.listPutW_poised ..

theorem State.listTake_poised (s : State) (slot ch : Nat) (seq : Word32) : Poised s (s.listTake slot ch seq) := by
  refine (s.listCtl_poised slot).bind fun c s => (State.listFind_poised slot _ listFuel 0 _ s).bind fun r s => ?_
  match r with
  | none => exact Poised.ok rfl
  | some (prev, node, w) =>
    refine (s.listRead_poised ..).bind fun l s => (s.unlink_poised ..).bind fun _ s => Poised.bind ?_ fun _ s =>
      (s.listPutW_poised ..).bind fun _ s => (s.listPutW_poised ..).bind fun _ s => (s.listPut_poised ..).bind fun _ s => Poised.ok rfl
    split
    · exact State.listPutW_poised ..
    · exact Poised.ok rfl

theorem State.listFault_posture (s : State) (slot : Nat) (t : TrapRec) : (s.listFault slot t).posture = s.posture := by
  unfold State.listFault
  refine (State.cevent_posture ..).trans ((State.putRank_posture ..).trans ?_)
  split
  · exact State.contain_posture ..
  · rfl

/-! Completion objects, receives and requests (R296, R304-R307, R321, R330). -/

theorem State.modSaved_posture (s : State) (ctx area : Nat) (f : Saved → Saved) : (s.modSaved ctx area f).posture = s.posture :=
  s.modCtx_posture ctx fun _ => rfl

theorem State.winStore_posture (ps : List Piece) (l : List Byte) (s : State) : (s.winStore ps l).posture = s.posture := by
  induction ps generalizing s l with
  | nil => rfl
  | cons p r ih =>
    rw [State.winStore]
    split <;> exact ih ..

theorem State.complete_posture (s : State) (key va : Nat) (bytes : List Byte) : (s.complete key va bytes).posture = s.posture := by
  unfold State.complete
  split
  · split
    · exact State.modSaved_posture ..
    · split
      · exact State.winStore_posture ..
      · rfl
  · split
    · split
      · exact State.winStore_posture ..
      · rfl
    · rfl

theorem State.asyncTrap_posture (s : State) (key : Nat) (t : TrapRec) : (s.asyncTrap key t).posture = s.posture :=
  State.modStream_posture _ key fun _ => rfl

theorem State.trapTo_posture (s : State) (slot key : Nat) (t : TrapRec) : (s.trapTo slot key t).posture = s.posture := by
  unfold State.trapTo
  split
  · exact State.modSaved_posture ..
  · split
    · exact State.asyncTrap_posture ..
    · split
      · exact State.contain_posture ..
      · rfl

theorem State.chanStatus_posture {s t : State} {key core slot : Nat} {tag : Option (List Nat)} {wid : Word64} {stat : Option Nat} {v : Nat}
    (h : s.chanStatus key core slot tag wid stat v = some t) : t.posture = s.posture := by
  unfold State.chanStatus at h
  split at h
  · cases h; rfl
  · next a =>
    have hrel := s.relAll_posture (2 * (core % 512)) 7
    dsimp only at h
    split at h
    · split at h
      · cases h
      · cases h; exact (State.complete_posture ..).trans hrel
    · have hwrite := (State.agentWrite_posture (s.relAll (2 * (core % 512)) 7) { core := core, slot := slot, by_ := key, tag := tag, wid := wid } a
        (leBytes v 8)).trans hrel
      split at h
      · cases h
      · next hw => cases h; exact (State.trapTo_posture ..).trans (by rw [hw] at hwrite; exact hwrite)
      · next hw => cases h; rw [hw] at hwrite; exact hwrite

theorem State.receive_posture {s t : State} {slot : Nat} {p : Post} {bytes : List Byte} (h : s.receive slot p bytes = some t) :
    t.posture = s.posture := by
  have hfin {u : State} (hu : ((u.chanStatus p.key p.core slot p.tag p.wid p.stat (chanWord p.seq bytes.length 0)).map (fun s =>
      match p.tref with
      | some t => s.sendDec p.key t 1
      | none => s)) = some t) : t.posture = u.posture := by
    obtain ⟨v, hv, rfl⟩ := Option.map_eq_some_iff.mp hu
    refine Eq.trans ?_ (State.chanStatus_posture hv)
    split <;> rfl
  unfold State.receive at h
  dsimp only at h
  split at h
  · split at h
    · cases h
    · exact (hfin h).trans (State.complete_posture ..)
  · have hwrite := s.agentWrite_posture { core := p.core, slot := slot, by_ := p.key, tag := p.tag, wid := p.wid } p.buf bytes
    split at h
    · cases h
    · next hw => cases h; exact (State.trapTo_posture ..).trans (by rw [hw] at hwrite; exact hwrite)
    · next hw => rw [hw] at hwrite; exact (hfin h).trans hwrite

theorem State.modRow_posture (s : State) (slot ch : Nat) (f : Row → Row) : (s.modRow slot ch f).posture = s.posture := by
  unfold State.modRow
  dsimp only
  split <;> rfl

theorem State.repost_posture {s t : State} {key slot ch : Nat} {p : Post} (h : s.repost key slot ch p = some t) : t.posture = s.posture := by
  unfold State.repost at h
  dsimp only at h
  split at h
  · cases h; exact State.modRow_posture ..
  · have htake := s.listTake_poised slot ch p.seq
    split at h
    · cases h
    · cases h; exact (State.modRow_posture ..).trans (State.listFault_posture ..)
    · next hl => exact (State.receive_posture h).trans (htake.eq hl)
    · next hl => cases h; exact (State.modRow_posture ..).trans (htake.eq hl)

theorem State.repostAll_posture {key slot : Nat} {ps : List (Nat × Post)} {s t : State} (h : s.repostAll key slot ps = some t) :
    t.posture = s.posture := by
  induction ps generalizing s with
  | nil => cases h; rfl
  | cons p r ih =>
    rw [State.repostAll] at h
    split at h
    · next hp => exact (ih h).trans (State.repost_posture hp)
    · cases h

theorem State.setOut_posture (s : State) (t : TReq) : (s.setOut t).posture = s.posture := by
  unfold State.setOut
  split <;> rfl

theorem State.deliverAll_posture (s : State) (key : Nat) : (s.deliverAll key).posture = s.posture := by
  refine foldl_keeps State.posture _ _ _ fun a o => ?_
  split
  · split
    · unfold State.giveGran
      split
      · rfl
      · next x hx =>
        split
        · rfl
        · exact State.putStream_posture hx rfl
    · rfl
  · rfl

end Sys2Proof.Machine
end

section
/-! Bytes, words and runs of cells: little-endian words read back (R3), what a run of written cells reads as, and moved cells. -/

namespace Sys2Proof.Machine

/-! Little-endian words (R3). -/

@[simp] theorem length_leBytes (x n : Nat) : (leBytes x n).length = n := by
  induction n generalizing x with
  | zero => rfl
  | succ n ih => rw [leBytes, List.length_cons, ih]

theorem leNat_leBytes (x n : Nat) : leNat (leBytes x n) = x % 256 ^ n := by
  induction n generalizing x with
  | zero => rw [pow_zero, Nat.mod_one]; rfl
  | succ n ih =>
    have hpow : 256 ^ (n + 1) = 256 * 256 ^ n := pow_succ' ..
    rw [leBytes, leNat, ih, BitVec.toNat_ofNat, hpow, Nat.mod_mul (a := 256)]

theorem leBytes_zero (n : Nat) : leBytes 0 n = List.replicate n 0 := by
  induction n with
  | zero => rfl
  | succ n ih =>
    rw [leBytes, Nat.zero_div, ih]
    rfl

theorem getD_leBytes_zero (n j : Nat) : (leBytes 0 n).getD j 0 = 0 := by
  simp [leBytes_zero, List.getD_eq_getElem?_getD, List.getElem?_replicate]
  split <;> rfl

theorem ofNat_leNat_leBytes {w n : Nat} (v : BitVec w) (h : 256 ^ n = 2 ^ w) : BitVec.ofNat w (leNat (leBytes v.toNat n)) = v := by
  rw [leNat_leBytes, h, Nat.mod_eq_of_lt v.isLt, BitVec.ofNat_toNat, BitVec.setWidth_eq]

theorem word64_leBytes (v : Word64) : BitVec.ofNat 64 (leNat (leBytes v.toNat 8)) = v := ofNat_leNat_leBytes v (by norm_num)

theorem word32_leBytes (v : Word32) : BitVec.ofNat 32 (leNat (leBytes v.toNat 4)) = v := ofNat_leNat_leBytes v (by norm_num)

/-- Words of a run of bytes are those of its parts of eight. -/
theorem words64_run (g : Nat → Byte) (o n : Nat) :
    words64 ((upto o (8 * n)).map g) = (List.range n).map (fun i => BitVec.ofNat 64 (leNat ((upto (o + 8 * i) 8).map g))) := by
  induction n generalizing o with
  | zero => rfl
  | succ n ih =>
    have hnext : words64 ((upto o (8 * (n + 1))).map g) = BitVec.ofNat 64 (leNat ((upto o 8).map g)) :: words64 ((upto (o + 8) (8 * n)).map g) := rfl
    rw [hnext, ih, List.range_succ_eq_map, List.map_cons, List.map_map]
    refine congrArg₂ _ rfl (List.map_congr_left fun i _ => ?_)
    simp only [Function.comp_apply, Nat.succ_eq_add_one, Nat.mul_add, Nat.mul_one, Nat.add_assoc, Nat.add_comm 8]

/-- Words of a run of bytes are those of its parts of four. -/
theorem words32_run (g : Nat → Byte) (o n : Nat) :
    words32 ((upto o (4 * n)).map g) = (List.range n).map (fun i => BitVec.ofNat 32 (leNat ((upto (o + 4 * i) 4).map g))) := by
  induction n generalizing o with
  | zero => rfl
  | succ n ih =>
    have hnext : words32 ((upto o (4 * (n + 1))).map g) = BitVec.ofNat 32 (leNat ((upto o 4).map g)) :: words32 ((upto (o + 4) (4 * n)).map g) := rfl
    rw [hnext, ih, List.range_succ_eq_map, List.map_cons, List.map_map]
    refine congrArg₂ _ rfl (List.map_congr_left fun i _ => ?_)
    simp only [Function.comp_apply, Nat.succ_eq_add_one, Nat.mul_add, Nat.mul_one, Nat.add_assoc, Nat.add_comm 4]

theorem wordBytes_cons (w : Word64) (l : List Word64) : wordBytes (w :: l) = leBytes w.toNat 8 ++ wordBytes l := rfl

@[simp] theorem length_wordBytes (l : List Word64) : (wordBytes l).length = 8 * l.length := by
  induction l with
  | nil => rfl
  | cons w l ih => rw [wordBytes_cons, List.length_append, length_leBytes, ih, List.length_cons]; omega

theorem words64_wordBytes (l : List Word64) : words64 (wordBytes l) = l := by
  induction l with
  | nil => rfl
  | cons w l ih =>
    have hfirst : words64 (wordBytes (w :: l)) = BitVec.ofNat 64 (leNat (leBytes w.toNat 8)) :: words64 (wordBytes l) := rfl
    rw [hfirst, word64_leBytes, ih]

/-- The 32-bit words of values laid end to end. -/
theorem words32_flatten (l : List Word32) : words32 ((l.map (fun v => leBytes v.toNat 4)).flatten) = l := by
  induction l with
  | nil => rfl
  | cons v l ih =>
    have hfirst : words32 (((v :: l).map (fun v => leBytes v.toNat 4)).flatten) =
        BitVec.ofNat 32 (leNat (leBytes v.toNat 4)) :: words32 ((l.map (fun v => leBytes v.toNat 4)).flatten) := rfl
    rw [hfirst, word32_leBytes, ih]

/-- A run read byte by byte. -/
theorem map_upto_eq {α : Type} [Inhabited α] {g : Nat → α} {l : List α} {o n : Nat} {d : α} (hn : l.length = n) (h : ∀ j, j < n → g (o + j) = l.getD j d) :
    (upto o n).map g = l := by
  rw [upto_eq_range', List.range'_eq_map_range, List.map_map]
  refine List.ext_getElem (by simp [hn]) fun j _ hj => ?_
  rw [List.getElem_map, List.getElem_range, Function.comp_apply, h j (hn ▸ hj), List.getD_eq_getElem _ _ hj]

/-! Written cells. -/

/-- A list of cells whose values are a function of their keys. -/
theorem Cells.get_puts_map {w : Nat} {m : Cells w} (hm : m.wf = true) (ks : List Nat) (f : Nat → BitVec w) (r : Nat) :
    (m.puts (ks.map (fun k => (k, f k)))).get r = if r ∈ ks then f r else m.get r := by
  induction ks generalizing m with
  | nil => rfl
  | cons k ks ih =>
    rw [List.map_cons, Cells.puts, ih (Cells.wf_set k (f k) hm)]
    by_cases hr : r = k
    · simp [hr, Cells.get_set_same k (f k) hm]
    · simp [hr, Cells.get_set_other k r (f k) hm hr]

/-- A run of cells from a key upward. -/
theorem Cells.get_puts_run {w : Nat} {m : Cells w} (hm : m.wf = true) (f : Nat → BitVec w) {a n i : Nat} (hi : i < n) :
    (m.puts ((upto a n).zip ((List.range n).map f))).get (a + i) = f i := by
  have hkeys : (upto a n).zip ((List.range n).map f) = (upto a n).map (fun k => (k, f (k - a))) := by
    rw [upto_eq_range', List.range'_eq_map_range, List.map_map, List.zip_map']
    exact List.map_congr_left fun k _ => by simp
  rw [hkeys, Cells.get_puts_map hm, if_pos (mem_upto.mpr (by omega)), Nat.add_sub_cancel_left]

theorem Memory.get_put {m : Memory} (hm : m.wf = true) (a b : Nat) (l : List Byte) :
    (m.put a l).get b = if a ≤ b ∧ b < a + l.length then l.getD (b - a) 0 else m.get b := by
  induction l generalizing m a with
  | nil => rw [Memory.put, List.length_nil, if_neg (by omega)]
  | cons v r ih =>
    rw [Memory.put, ih (Memory.wf_set a v hm), List.length_cons]
    by_cases hb : b = a
    · subst hb
      rw [if_neg (by omega), if_pos (by omega), Nat.sub_self, Memory.get_set_same b v hm]
      rfl
    · by_cases hin : a + 1 ≤ b ∧ b < a + 1 + r.length
      · rw [if_pos hin, if_pos (by omega), show b - a = b - (a + 1) + 1 by omega, List.getD_cons_succ]
      · rw [if_neg hin, if_neg (by omega), Memory.get_set_other a b v hm hb]

/-! Moved cells, and maps laid end to end. -/

theorem Cells.get_moveCells {w lo : Nat} {m : Cells w} (h : Cells.wfFrom lo m = true) (a b : Nat) {n i : Nat} (hi : i < n) :
    Cells.get (moveCells m a n b) (b + i) = m.get (a + i) := by
  induction m generalizing lo with
  | nil => rfl
  | cons e r ih =>
    obtain ⟨k, v⟩ := e
    simp only [Cells.wfFrom, Bool.and_eq_true, decide_eq_true_eq] at h
    obtain ⟨-, hr⟩ := h
    by_cases hk : a ≤ k ∧ k < a + n
    · have hmove : moveCells ((k, v) :: r) a n b = (b + (k - a), v) :: moveCells r a n b := by
        simp only [moveCells]
        rw [List.filter_cons_of_pos (by simpa using hk), List.map_cons]
      have hsame : b + i = b + (k - a) ↔ a + i = k := by omega
      have hbelow : b + i < b + (k - a) ↔ a + i < k := by omega
      simp only [hmove, Cells.get, ih hr, hsame, hbelow]
    · have hmove : moveCells ((k, v) :: r) a n b = moveCells r a n b := by
        simp only [moveCells]
        rw [List.filter_cons_of_neg (by simpa using hk)]
      rw [hmove, ih hr, Cells.get, if_neg (by omega)]
      split_ifs
      · exact Cells.get_of_wfFrom_lt hr (by omega)
      · rfl

theorem Cells.get_append_left {w a : Nat} {m r : Cells w} (h : ∀ e ∈ r, a < e.1) : Cells.get (m ++ r) a = m.get a := by
  induction m with
  | nil => exact Cells.get_of_unlisted fun e he => (h e he).ne'
  | cons e m ih => simp only [List.cons_append, Cells.get, ih]

theorem Cells.get_append_right {w a : Nat} {m r : Cells w} (h : ∀ e ∈ m, e.1 < a) : Cells.get (m ++ r) a = Cells.get r a := by
  induction m with
  | nil => rfl
  | cons e m ih =>
    obtain ⟨he, hm⟩ := List.forall_mem_cons.mp h
    simp only [List.cons_append, Cells.get]
    rw [if_neg (by omega), if_neg (by omega), ih hm]

/-- Blocks of one size, each with its own number, laid in their order. -/
theorem Cells.get_blocks {w W : Nat} {l : Tbl Nat} {f : Nat × Nat → Cells w} (hl : (l.map (fun e => e.1)).Pairwise (· < ·))
    (hf : ∀ e ∈ l, ∀ c ∈ f e, e.1 * W ≤ c.1 ∧ c.1 < e.1 * W + W) {e : Nat × Nat} (he : e ∈ l) {i : Nat} (hi : i < W) :
    Cells.get (l.foldl (fun m e => m ++ f e) []) (e.1 * W + i) = Cells.get (f e) (e.1 * W + i) := by
  have hflat : l.foldl (fun m e => m ++ f e) [] = l.flatMap f := by
    rw [List.foldl_append_eq_append, List.nil_append, List.flatMap_def]
  rw [hflat]
  clear hflat
  induction l with
  | nil => cases he
  | cons d l ih =>
    rw [List.map_cons, List.pairwise_cons] at hl
    obtain ⟨hd, hl⟩ := hl
    obtain ⟨hfd, hfl⟩ := List.forall_mem_cons.mp hf
    have hstep {p q : Nat} (h : p < q) : p * W + W ≤ q * W := by
      rw [← Nat.succ_mul]
      exact Nat.mul_le_mul_right W h
    rw [List.flatMap_cons]
    rcases List.mem_cons.mp he with rfl | he
    · refine Cells.get_append_left fun c hc => ?_
      obtain ⟨g, hg, hcg⟩ := List.mem_flatMap.mp hc
      have hlo := (hfl g hg c hcg).1
      have hlt := hstep (hd g.1 (List.mem_map_of_mem hg))
      omega
    · have hlt := hstep (hd e.1 (List.mem_map_of_mem he))
      rw [Cells.get_append_right fun c hc => by have := (hfd c hc).2; omega]
      exact ih hl hfl he

theorem mem_moveCells {α : Type} {l : Tbl α} {a n b : Nat} {c : Nat × α} (h : c ∈ moveCells l a n b) : b ≤ c.1 ∧ c.1 < b + n := by
  obtain ⟨e, he, rfl⟩ := List.mem_map.mp h
  have hin := (List.mem_filter.mp he).2
  simp only [Bool.and_eq_true, decide_eq_true_eq] at hin
  dsimp only
  omega

end Sys2Proof.Machine
end

section
/-! What a save area holds (R326, R333): its sections lie apart, each byte reads as its own section has written it, and the context's keys read it back. -/

namespace Sys2Proof.Machine

/-! Sections laid over one another. -/

/-- The byte at an offset after sections have been written over it, one after another. -/
def laid (b : Byte) (secs : List (Nat × List Byte)) (k : Nat) : Byte :=
  secs.foldl (fun b e => if e.1 ≤ k ∧ k < e.1 + e.2.length then e.2.getD (k - e.1) 0 else b) b

theorem laid_cons (b : Byte) (e : Nat × List Byte) (secs : List (Nat × List Byte)) (k : Nat) :
    laid b (e :: secs) k = laid (if e.1 ≤ k ∧ k < e.1 + e.2.length then e.2.getD (k - e.1) 0 else b) secs k := rfl

theorem laid_append (b : Byte) (xs ys : List (Nat × List Byte)) (k : Nat) : laid b (xs ++ ys) k = laid (laid b xs k) ys k := List.foldl_append ..

theorem laid_outside {secs : List (Nat × List Byte)} {k : Nat} (h : ∀ e ∈ secs, ¬(e.1 ≤ k ∧ k < e.1 + e.2.length)) (b : Byte) : laid b secs k = b := by
  induction secs with
  | nil => rfl
  | cons e r ih =>
    obtain ⟨he, hr⟩ := List.forall_mem_cons.mp h
    rw [laid_cons, if_neg he, ih hr]

/-- Sections written into a memory are laid over what stands there. -/
theorem Memory.get_foldl_put {m : Memory} (hm : m.wf = true) (base : Nat) (secs : List (Nat × List Byte)) (k : Nat) :
    (secs.foldl (fun (m : Memory) e => m.put (base + e.1) e.2) m).get (base + k) = laid (m.get (base + k)) secs k := by
  induction secs generalizing m with
  | nil => rfl
  | cons e r ih =>
    have hin : base + e.1 ≤ base + k ∧ base + k < base + e.1 + e.2.length ↔ e.1 ≤ k ∧ k < e.1 + e.2.length := by omega
    rw [List.foldl_cons, ih (Memory.wf_put (base + e.1) e.2 hm), Memory.get_put hm, laid_cons, Nat.add_sub_add_left]
    simp only [hin]

/-- One section alone. -/
theorem laid_single (b : Byte) (off : Nat) (l : List Byte) {j : Nat} (hj : j < l.length) : laid b [(off, l)] (off + j) = l.getD j 0 := by
  rw [laid_cons, if_pos ⟨Nat.le_add_right off j, Nat.add_lt_add_left hj off⟩, Nat.add_sub_cancel_left]
  rfl

/-- The sections of a table: a record of one length at the place of its key. -/
def tableSecs {α : Type} (off n : Nat) (f : α → List Byte) (t : Tbl α) : List (Nat × List Byte) := t.map (fun e => (off + n * e.1, f e.2))

section
variable {α : Type} {off n r j : Nat} {f : α → List Byte} {t : Tbl α}

theorem not_within_of_ne {a : Nat} (hj : j < n) (ha : a ≠ r) : ¬(off + n * a ≤ off + n * r + j ∧ off + n * r + j < off + n * a + n) := by
  rintro ⟨hlo, hhi⟩
  rcases Nat.lt_or_gt_of_ne ha with h | h
  · have := Nat.mul_le_mul_left n h
    rw [Nat.succ_eq_add_one, Nat.mul_add, Nat.mul_one] at this
    omega
  · have := Nat.mul_le_mul_left n h
    rw [Nat.succ_eq_add_one, Nat.mul_add, Nat.mul_one] at this
    omega

variable (hlen : ∀ e ∈ t, (f e.2).length = n)
include hlen

theorem laid_tableSecs_unlisted (hr : ∀ e ∈ t, e.1 ≠ r) (hj : j < n) (b : Byte) : laid b (tableSecs off n f t) (off + n * r + j) = b := by
  refine laid_outside (fun d hd => ?_) b
  obtain ⟨e, he, rfl⟩ := List.mem_map.mp hd
  dsimp only
  rw [hlen e he]
  exact not_within_of_ne hj (hr e he)

theorem laid_tableSecs (ht : (t.map (fun e => e.1)).Nodup) {e : Nat × α} (he : e ∈ t) (hj : j < n) (b : Byte) :
    laid b (tableSecs off n f t) (off + n * e.1 + j) = (f e.2).getD j 0 := by
  induction t generalizing b with
  | nil => cases he
  | cons d t ih =>
    rw [List.map_cons, List.nodup_cons] at ht
    obtain ⟨hd, ht⟩ := ht
    obtain ⟨hlend, hlent⟩ := List.forall_mem_cons.mp hlen
    rw [tableSecs, List.map_cons, laid_cons]
    dsimp only
    rcases List.mem_cons.mp he with rfl | he
    · rw [hlend, if_pos (by omega), Nat.add_sub_cancel_left]
      exact laid_tableSecs_unlisted hlent (fun c hc heq => hd (List.mem_map.mpr ⟨c, hc, heq⟩)) hj _
    · exact ih hlent ht he _

end

theorem Cells.nodup_keys {w lo : Nat} {m : Cells w} (h : Cells.wfFrom lo m = true) : (m.map (fun e => e.1)).Nodup ∧ ∀ e ∈ m, lo ≤ e.1 := by
  induction m generalizing lo with
  | nil => exact ⟨List.nodup_nil, nofun⟩
  | cons e r ih =>
    simp only [Cells.wfFrom, Bool.and_eq_true, decide_eq_true_eq] at h
    obtain ⟨⟨hlo, -⟩, hr⟩ := h
    obtain ⟨hnodup, hle⟩ := ih hr
    refine ⟨List.nodup_cons.mpr ⟨fun hmem => ?_, hnodup⟩, List.forall_mem_cons.mpr ⟨hlo, fun d hd => (Nat.le_succ_of_le hlo).trans (hle d hd)⟩⟩
    obtain ⟨d, hd, heq⟩ := List.mem_map.mp hmem
    have hlt := hle d hd
    change d.1 = e.1 at heq
    omega

theorem Cells.get_of_mem {w lo : Nat} {m : Cells w} (h : Cells.wfFrom lo m = true) {e : Nat × BitVec w} (he : e ∈ m) : m.get e.1 = e.2 := by
  induction m generalizing lo with
  | nil => cases he
  | cons d r ih =>
    simp only [Cells.wfFrom, Bool.and_eq_true, decide_eq_true_eq] at h
    obtain ⟨-, hr⟩ := h
    rw [Cells.get]
    rcases List.mem_cons.mp he with rfl | he
    · exact if_pos rfl
    · have := (Cells.nodup_keys hr).2 e he
      rw [if_neg (by omega), if_neg (by omega), ih hr he]

theorem Cells.ne_zero_of_mem {w lo : Nat} {m : Cells w} (h : Cells.wfFrom lo m = true) {e : Nat × BitVec w} (he : e ∈ m) : e.2 ≠ 0 := by
  induction m generalizing lo with
  | nil => cases he
  | cons d r ih =>
    simp only [Cells.wfFrom, Bool.and_eq_true, decide_eq_true_eq] at h
    obtain ⟨⟨-, hd⟩, hr⟩ := h
    rcases List.mem_cons.mp he with rfl | he
    · exact hd
    · exact ih hr he

/-- The sections of a sparse map read as its cells; an unlisted one, whose bytes are zero, as well. -/
theorem laid_cells {w off n r j : Nat} {f : BitVec w → List Byte} {m : Cells w} (hm : m.wf = true) (hlen : ∀ v, (f v).length = n)
    (hzero : (f 0).getD j 0 = 0) (hj : j < n) : laid 0 (tableSecs off n f m) (off + n * r + j) = (f (m.get r)).getD j 0 := by
  by_cases h : ∃ e ∈ m, e.1 = r
  · obtain ⟨e, he, rfl⟩ := h
    rw [laid_tableSecs (fun e _ => hlen e.2) (Cells.nodup_keys hm).1 he hj, Cells.get_of_mem hm he]
  · have hnone : ∀ e ∈ m, e.1 ≠ r := fun e he heq => h ⟨e, he, heq⟩
    rw [laid_tableSecs_unlisted (fun e _ => hlen e.2) hnone hj, Cells.get_of_unlisted hnone, hzero]

/-! Regions: sections within bounds. -/

/-- Sections with the bounds that they lie in. -/
structure Region where
  lo : Nat
  hi : Nat
  secs : List (Nat × List Byte)

/-- The sections lie within the bounds. -/
def Region.Sound (p : Region) : Prop := ∀ e ∈ p.secs, p.lo ≤ e.1 ∧ e.1 < p.hi ∧ e.1 + e.2.length ≤ p.hi

/-- Two regions have no byte in common. -/
def Region.Apart (p q : Region) : Prop := p.hi ≤ q.lo ∨ q.hi ≤ p.lo

theorem Region.Sound.outside {p : Region} (h : p.Sound) {k : Nat} (hk : k < p.lo ∨ p.hi ≤ k) : ∀ e ∈ p.secs, ¬(e.1 ≤ k ∧ k < e.1 + e.2.length) := by
  intro e he
  obtain ⟨hlo, -, hhi⟩ := h e he
  omega

/-- Under regions that lie apart each byte is its own region's. -/
theorem laid_regions {ps : List Region} (hsound : ∀ p ∈ ps, p.Sound) (hapart : ps.Pairwise Region.Apart) {p : Region} (hp : p ∈ ps) {k : Nat}
    (hlo : p.lo ≤ k) (hhi : k < p.hi) (b : Byte) : laid b (ps.flatMap Region.secs) k = laid b p.secs k := by
  induction ps with
  | nil => cases hp
  | cons q qs ih =>
    obtain ⟨hq, hqs⟩ := List.forall_mem_cons.mp hsound
    obtain ⟨hfirst, hrest⟩ := List.pairwise_cons.mp hapart
    rw [List.flatMap_cons, laid_append]
    rcases List.mem_cons.mp hp with rfl | hp
    · refine laid_outside (fun e he => ?_) _
      obtain ⟨d, hd, hed⟩ := List.mem_flatMap.mp he
      exact (hqs d hd).outside (by rcases hfirst d hd with h | h <;> omega) e hed
    · rw [laid_outside (hq.outside (by rcases hfirst p hp with h | h <;> omega)), ih hqs hrest hp]

theorem Region.sound_nil (lo hi : Nat) : (⟨lo, hi, []⟩ : Region).Sound := nofun

theorem Region.sound_single {lo hi : Nat} {l : List Byte} (h : lo < hi) (hl : lo + l.length ≤ hi) : (⟨lo, hi, [(lo, l)]⟩ : Region).Sound := by
  intro e he
  obtain rfl := List.mem_singleton.mp he
  exact ⟨le_rfl, h, hl⟩

theorem Region.sound_table {α : Type} {lo hi n c : Nat} {f : α → List Byte} {t : Tbl α} (hlen : ∀ e ∈ t, (f e.2).length = n) (hkeys : ∀ e ∈ t, e.1 < c)
    (hn : 0 < n) (hhi : lo + n * c ≤ hi) : (⟨lo, hi, tableSecs lo n f t⟩ : Region).Sound := by
  intro d hd
  obtain ⟨e, he, rfl⟩ := List.mem_map.mp hd
  have hle := Nat.mul_le_mul_left n (hkeys e he)
  rw [Nat.succ_eq_add_one, Nat.mul_add, Nat.mul_one] at hle
  dsimp only
  rw [hlen e he]
  omega

/-! The regions of a save area (R333). -/

theorem tableSecs_bytes (off : Nat) (m : Memory) : m.map (fun e => (off + e.1, [e.2])) = tableSecs off 1 (fun v => [v]) m := by
  simp only [tableSecs, Nat.one_mul]

theorem entries_eq (off size : Nat) (l : List (List Word64)) : entries off size l = tableSecs off size wordBytes ((upto 0 l.length).zip l) := rfl

/-- Position, address and mode words of a saved stream (R333). -/
def saveModes (x : Stream) (drain : Bool) : List Word64 :=
  [x.p.setWidth 64,
   BitVec.ofNat 64 ((x.l.get 0).toNat * 2 ^ (12 * 0) + (x.l.get 1).toNat * 2 ^ (12 * 1) + (x.l.get 2).toNat * 2 ^ (12 * 2) + (x.l.get 3).toNat * 2 ^ (12 * 3)),
   BitVec.ofNat 64 ((if x.handler then 1 else 0) + (if drain then 2 else 0) + (if x.halted then 4 else 0)), x.pc]

/-- The regions of a save area, in the order in which they are written. -/
def State.saveRegions (s : State) (v : Saved) (drain : Bool) : List Region :=
  let x := v.stream
  [⟨0, 0x40, [(0, wordBytes v.header)]⟩,
   ⟨0x140, 0x160, [(0x140, wordBytes (saveModes x drain))]⟩,
   ⟨0x600, 0x6C0, [(0x600, wordBytes (sysRegs.map (fun r => s.readSys x r)))]⟩,
   ⟨0x40, 0x140, tableSecs 0x40 8 (fun w : Word64 => leBytes w.toNat 8) x.s⟩,
   ⟨0x180, 0x1C0, tableSecs 0x180 4 (fun w : Word32 => leBytes w.toNat 4) x.c⟩,
   ⟨0x1C0, 0x200, tableSecs 0x1C0 8 (fun w : Word64 => leBytes w.toNat 8) x.q⟩,
   ⟨0x200, 0x600, tableSecs 0x200 4 (fun w : Word32 => leBytes w.toNat 4) x.z⟩,
   ⟨0x700, 0x900, tableSecs 0x700 32 (fun r : Ring => wordBytes r.entry) x.rings⟩,
   ⟨0x900, 0x1100, tableSecs 0x900 32 (fun b : LBlk => wordBytes b.entry) x.blks⟩,
   ⟨0x1100, 0x1300, entries 0x1100 32 ((v.treqs.take 16).map TReq.entry)⟩,
   ⟨0x1300, 0x1500, entries 0x1300 32 ((v.posts.take 16).map (fun e => e.2.entry e.1))⟩,
   ⟨0x1500, 0x1700, entries 0x1500 32 ((x.async.take 16).map TrapRec.entry)⟩,
   ⟨0x1700, 0x1F00, entries 0x1700 64 ((v.ops.take 32).map Op.queueEntry)⟩,
   ⟨0x1F00, 0x2000, if x.compat then [(0x1F00, wordBytes (flagFile v.ops))] else []⟩,
   ⟨0x2000, 0x6000, tableSecs 0x2000 8 (fun w : Word64 => leBytes w.toNat 8) v.store⟩,
   ⟨0x6000, 0x26000, tableSecs 0x6000 4 (fun w : Word32 => leBytes w.toNat 4) v.mrf⟩,
   ⟨0x26000, 0x46000, if x.winHeld then windowBytes x.win x.winAgent else []⟩,
   ⟨0x46000, 0x146000, tableSecs 0x46000 1 (fun v : Byte => [v]) v.grans⟩,
   ⟨0x146000, 0x14E000, tableSecs 0x146000 1 (fun v : Byte => [v]) (packBits v.fe)⟩]

theorem State.saveSections_eq (s : State) (v : Saved) (drain : Bool) : s.saveSections v drain = (s.saveRegions v drain).flatMap Region.secs := by
  unfold State.saveSections State.saveRegions
  simp only [List.flatMap_cons, List.flatMap_nil, List.append_nil, tableSecs_bytes]
  simp only [List.append_assoc]
  rfl

/-- The bounds of the regions. -/
def saveBounds : List (Nat × Nat) :=
  [(0, 0x40), (0x140, 0x160), (0x600, 0x6C0), (0x40, 0x140), (0x180, 0x1C0), (0x1C0, 0x200), (0x200, 0x600), (0x700, 0x900), (0x900, 0x1100),
   (0x1100, 0x1300), (0x1300, 0x1500), (0x1500, 0x1700), (0x1700, 0x1F00), (0x1F00, 0x2000), (0x2000, 0x6000), (0x6000, 0x26000), (0x26000, 0x46000),
   (0x46000, 0x146000), (0x146000, 0x14E000)]

theorem State.saveRegions_apart (s : State) (v : Saved) (drain : Bool) : (s.saveRegions v drain).Pairwise Region.Apart := by
  have hbounds : (s.saveRegions v drain).map (fun p => (p.lo, p.hi)) = saveBounds := rfl
  have happart : saveBounds.Pairwise (fun p q => p.2 ≤ q.1 ∨ q.2 ≤ p.1) := by decide
  rw [← hbounds, List.pairwise_map] at happart
  exact happart

/-! Packed bits (R333). -/

theorem Cells.mem_set {w : Nat} {m : Cells w} {a : Nat} {x : BitVec w} {e : Nat × BitVec w} (h : e ∈ m.set a x) : e.1 = a ∨ e ∈ m := by
  induction m with
  | nil =>
    rw [Cells.set] at h
    split at h
    · cases h
    · exact .inl (congrArg Prod.fst (List.mem_singleton.mp h))
  | cons d r ih =>
    obtain ⟨k, v⟩ := d
    rw [Cells.set] at h
    split at h
    · split at h
      · exact .inr h
      · rcases List.mem_cons.mp h with rfl | h
        · exact .inl rfl
        · exact .inr h
    · split at h
      · split at h
        · exact .inr (List.mem_cons_of_mem _ h)
        · rcases List.mem_cons.mp h with rfl | h
          · exact .inl rfl
          · exact .inr (List.mem_cons_of_mem _ h)
      · rcases List.mem_cons.mp h with rfl | h
        · exact .inr List.mem_cons_self
        · exact (ih h).imp_right (List.mem_cons_of_mem _)

/-- One bit added to a packed byte. -/
def packOne (r : Memory) (e : Nat × BitVec 1) : Memory := r.set (e.1 / 8) (r.get (e.1 / 8) ||| BitVec.ofNat 8 (2 ^ (e.1 % 8)))

theorem packBits_eq (m : Cells 1) : packBits m = m.foldl packOne [] := rfl

theorem wf_packOne {r : Memory} (hr : r.wf = true) (e : Nat × BitVec 1) : (packOne r e).wf = true := Memory.wf_set _ _ hr

theorem wf_foldl_packOne (m : Cells 1) {r : Memory} (hr : r.wf = true) : Memory.wf (m.foldl packOne r) = true := by
  induction m generalizing r with
  | nil => exact hr
  | cons e m ih => exact ih (wf_packOne hr e)

theorem wf_packBits (m : Cells 1) : (packBits m).wf = true := wf_foldl_packOne m rfl

theorem packBits_keys {m : Cells 1} {c : Nat} (h : ∀ e ∈ m, e.1 < 8 * c) : ∀ d ∈ packBits m, d.1 < c := by
  rw [packBits_eq]
  have hgen (r : Memory) (hr : ∀ d ∈ r, d.1 < c) : ∀ d ∈ m.foldl packOne r, d.1 < c := by
    induction m generalizing r with
    | nil => exact hr
    | cons e m ih =>
      obtain ⟨he, hm⟩ := List.forall_mem_cons.mp h
      refine ih hm _ fun d hd => ?_
      rcases Cells.mem_set (w := 8) hd with hnew | hold
      · omega
      · exact hr d hold
  exact hgen [] nofun

theorem getLsbD_pow (j : Nat) {i : Nat} (hi : i < 8) : (BitVec.ofNat 8 (2 ^ j)).getLsbD i = decide (i = j) := by
  rw [BitVec.getLsbD_ofNat, Nat.testBit_two_pow]
  simp [hi, eq_comm]

theorem getLsbD_foldl_packOne (m : Cells 1) {r : Memory} (hr : r.wf = true) (b : Nat) {j : Nat} (hj : j < 8) :
    (Memory.get (m.foldl packOne r) b).getLsbD j = ((r.get b).getLsbD j || m.any (fun e => e.1 == 8 * b + j)) := by
  induction m generalizing r with
  | nil => rw [List.foldl_nil, List.any_nil, Bool.or_false]
  | cons e m ih =>
    have hbit : (Memory.get (packOne r e) b).getLsbD j = ((r.get b).getLsbD j || e.1 == 8 * b + j) := by
      unfold packOne
      by_cases hb : b = e.1 / 8
      · have hsame : e.1 == 8 * b + j ↔ j = e.1 % 8 := by rw [beq_iff_eq]; omega
        rw [hb, Memory.get_set_same _ _ hr, BitVec.getLsbD_or, getLsbD_pow _ hj, ← hb]
        refine congrArg _ (Bool.eq_iff_iff.mpr ?_)
        rw [decide_eq_true_eq, hsame]
      · have hne : (e.1 == 8 * b + j) = false := beq_eq_false_iff_ne.mpr (by omega)
        rw [Memory.get_set_other _ _ _ hr hb, hne, Bool.or_false]
    rw [List.foldl_cons, ih (wf_packOne hr e), hbit, List.any_cons, Bool.or_assoc]

/-- A packed bit is the cell's. -/
theorem getLsbD_packBits {m : Cells 1} (hm : m.wf = true) (b : Nat) {j : Nat} (hj : j < 8) :
    ((packBits m).get b).getLsbD j = decide (m.get (8 * b + j) = 1) := by
  rw [packBits_eq, getLsbD_foldl_packOne m rfl b hj]
  have hnone : ((Memory.get [] b).getLsbD j) = false := by simp [Memory.get, Cells.get]
  rw [hnone, Bool.false_or]
  by_cases h : ∃ e ∈ m, e.1 = 8 * b + j
  · obtain ⟨e, he, hk⟩ := h
    have hany : m.any (fun e => e.1 == 8 * b + j) = true := List.any_eq_true.mpr ⟨e, he, beq_iff_eq.mpr hk⟩
    have hone : e.2 = 1 := by
      have hne := Cells.ne_zero_of_mem hm he
      revert hne
      generalize e.2 = v
      revert v
      decide
    rw [hany, ← hk, Cells.get_of_mem hm he, hone]
    rfl
  · have hnone : ∀ e ∈ m, e.1 ≠ 8 * b + j := fun e he hk => h ⟨e, he, hk⟩
    have hany : m.any (fun e => e.1 == 8 * b + j) = false := List.any_eq_false.mpr fun e he => by simpa using hnone e he
    rw [hany, Cells.get_of_unlisted hnone]
    rfl

/-! Every region holds its sections. -/

theorem mem_zip_upto {α : Type} {l : List α} {e : Nat × α} (h : e ∈ (upto 0 l.length).zip l) : e.1 < l.length ∧ e.2 ∈ l := by
  obtain ⟨hkey, hval⟩ := List.of_mem_zip (a := e.1) (b := e.2) h
  exact ⟨by simpa using hkey, hval⟩

theorem Region.sound_entries {lo hi n c : Nat} {l : List (List Word64)} (hl : ∀ w ∈ l, w.length = n) (hc : l.length ≤ c) (hn : 0 < n)
    (hhi : lo + 8 * n * c ≤ hi) : (⟨lo, hi, entries lo (8 * n) l⟩ : Region).Sound := by
  rw [entries_eq]
  refine Region.sound_table (c := c) (fun e he => ?_) (fun e he => ?_) (by omega) hhi
  · rw [length_wordBytes, hl _ (mem_zip_upto he).2]
  · exact (mem_zip_upto he).1.trans_le hc

@[simp] theorem RRec.length_bytes (r : RRec) : r.bytes.length = 272 := by
  have hcells (is : List Nat) (f : Nat → Nat) : ((is.map (fun i => leBytes (f i) 4)).flatten).length = 4 * is.length := by
    induction is with
    | nil => rfl
    | cons i is ih => rw [List.map_cons, List.flatten_cons, List.length_append, length_leBytes, ih, List.length_cons]; omega
  rw [RRec.bytes, List.length_append, List.length_append, hcells, length_leBytes, length_leBytes]
  rfl

/-- The records of a window, from the bottom up (R200). -/
def windowRecords (win : List RRec) : Tbl (List Byte) := (upto 0 win.length).zip (win.reverse.map RRec.bytes)

/-- A window's section: its records, then its control state. -/
theorem windowBytes_eq (win : List RRec) (agent : Nat) : windowBytes win agent =
    tableSecs 0x26000 272 id (windowRecords win) ++ [(0x26000 + 130560, wordBytes [BitVec.ofNat 64 win.length, BitVec.ofNat 64 agent])] := rfl

theorem mem_windowRecords {win : List RRec} {e : Nat × List Byte} (h : e ∈ windowRecords win) : e.1 < win.length ∧ e.2.length = 272 := by
  have hlen : (win.reverse.map RRec.bytes).length = win.length := by simp
  rw [windowRecords, ← hlen] at h
  obtain ⟨hkey, hval⟩ := mem_zip_upto h
  obtain ⟨r, -, hr⟩ := List.mem_map.mp hval
  exact ⟨hlen ▸ hkey, hr ▸ r.length_bytes⟩

theorem Region.Sound.append {lo hi : Nat} {xs ys : List (Nat × List Byte)} (hx : (⟨lo, hi, xs⟩ : Region).Sound) (hy : (⟨lo, hi, ys⟩ : Region).Sound) :
    (⟨lo, hi, xs ++ ys⟩ : Region).Sound :=
  fun e he => (List.mem_append.mp he).elim (hx e) (hy e)

theorem Region.Sound.ite {lo hi : Nat} {p : Prop} [Decidable p] {xs : List (Nat × List Byte)} (h : (⟨lo, hi, xs⟩ : Region).Sound) :
    (⟨lo, hi, if p then xs else []⟩ : Region).Sound := by
  split
  · exact h
  · exact Region.sound_nil lo hi

theorem Region.sound_window {win : List RRec} (agent : Nat) (h : win.length ≤ 480) : (⟨0x26000, 0x46000, windowBytes win agent⟩ : Region).Sound := by
  rw [windowBytes_eq]
  refine Region.Sound.append (Region.sound_table (c := 480) (fun e he => ?_) (fun e he => ?_) (by decide) (by decide)) fun e he => ?_
  · exact (mem_windowRecords he).2
  · exact (mem_windowRecords he).1.trans_le h
  · obtain rfl := List.mem_singleton.mp he
    dsimp only
    rw [length_wordBytes]
    exact ⟨by decide, by decide, by simp⟩

theorem State.saveRegions_sound (s : State) {v : Saved} (drain : Bool) (h : v.Fits) : ∀ p ∈ s.saveRegions v drain, p.Sound := by
  obtain ⟨-, hs, -, hc, -, hq, -, hz, hrings, hblks, hwin, -, hstore, -, hmrf, -, hgrans, -, hfe, -⟩ := h
  have htake {α : Type} (n : Nat) (l : List α) : (l.take n).length ≤ n := List.length_take_le ..
  simp only [State.saveRegions, List.forall_mem_cons, List.not_mem_nil, false_implies, implies_true, and_true]
  refine ⟨?_, ?_, ?_, ?_, ?_, ?_, ?_, ?_, ?_, ?_, ?_, ?_, ?_, ?_, ?_, ?_, ?_, ?_, ?_⟩
  · exact Region.sound_single (by decide) (by rw [length_wordBytes]; exact le_rfl)
  · exact Region.sound_single (by decide) (by rw [length_wordBytes]; exact le_rfl)
  · exact Region.sound_single (by decide) (by rw [length_wordBytes, List.length_map]; decide)
  · exact Region.sound_table (c := 32) (fun e _ => length_leBytes ..) hs (by decide) (by decide)
  · exact Region.sound_table (c := 16) (fun e _ => length_leBytes ..) hc (by decide) (by decide)
  · exact Region.sound_table (c := 8) (fun e _ => length_leBytes ..) hq (by decide) (by decide)
  · exact Region.sound_table (c := 256) (fun e _ => length_leBytes ..) hz (by decide) (by decide)
  · exact Region.sound_table (c := 16) (fun e _ => length_wordBytes _) hrings (by decide) (by decide)
  · exact Region.sound_table (c := 64) (fun e _ => length_wordBytes _) hblks (by decide) (by decide)
  · exact Region.sound_entries (n := 4) (c := 16) (List.forall_mem_map.mpr fun _ _ => rfl) (by rw [List.length_map]; exact htake ..) (by decide) (by decide)
  · exact Region.sound_entries (n := 4) (c := 16) (List.forall_mem_map.mpr fun _ _ => rfl) (by rw [List.length_map]; exact htake ..) (by decide) (by decide)
  · exact Region.sound_entries (n := 4) (c := 16) (List.forall_mem_map.mpr fun _ _ => rfl) (by rw [List.length_map]; exact htake ..) (by decide) (by decide)
  · exact Region.sound_entries (n := 8) (c := 32) (List.forall_mem_map.mpr fun _ _ => rfl) (by rw [List.length_map]; exact htake ..) (by decide) (by decide)
  · exact (Region.sound_single (by decide) (by rw [length_wordBytes, flagFile, List.length_map]; decide)).ite
  · exact Region.sound_table (c := 2048) (fun e _ => length_leBytes ..) hstore (by decide) (by decide)
  · exact Region.sound_table (c := 32768) (fun e _ => length_leBytes ..) hmrf (by decide) (by decide)
  · exact (Region.sound_window _ hwin).ite
  · exact Region.sound_table (c := 2 ^ 20) (fun e _ => rfl) hgrans (by decide) (by decide)
  · exact Region.sound_table (c := 2 ^ 15) (fun e _ => rfl) (packBits_keys hfe) (by decide) (by decide)

end Sys2Proof.Machine
end

section
/-! A save area written and read back (R326, R333, R335): each of its sections, the registers, the window, the tiles and the granules. -/

namespace Sys2Proof.Machine

/-! Writing under one tag (R70, R326). -/

theorem Enc.reads_self (t : Enc) (pa : Nat) : t.reads t pa = true := by
  simp [Enc.reads, Enc.sameKey]

/-- Bytes put into a line that was last written under the same tag change nothing else of it. -/
theorem State.homePut_keyed {s : State} {ctx pa : Nat} {buf : BitVec 24} (h : s.mem.enc.find (pa / 128) = some (s.encNow ctx buf)) (bytes : List Byte) :
    s.homePut ctx buf pa bytes =
      { s with mem := { s.mem with hbm := s.mem.hbm.put pa bytes, enc := s.mem.enc.put (pa / 128) (s.encNow ctx buf) } } := by
  simp only [State.homePut, h, Enc.reads_self, if_true]

/-- Every line of a range was last written under a tag. -/
def State.Keyed (s : State) (t : Enc) (base n : Nat) : Prop := ∀ k, k < n → s.mem.enc.find ((base + k) / 128) = some t

/-- Sections written into a range of one tag are laid over its bytes, and the range keeps its tag. -/
theorem State.foldl_homePut_keyed {ctx base n : Nat} (secs : List (Nat × List Byte)) (hsecs : ∀ e ∈ secs, e.1 < n) {s : State}
    (h : s.Keyed (s.encNow ctx 0) base n) :
    (secs.foldl (fun (s : State) e => s.homePut ctx 0 (base + e.1) e.2) s).mem.hbm = secs.foldl (fun (m : Memory) e => m.put (base + e.1) e.2) s.mem.hbm ∧
      (secs.foldl (fun (s : State) e => s.homePut ctx 0 (base + e.1) e.2) s).Keyed (s.encNow ctx 0) base n := by
  induction secs generalizing s with
  | nil => exact ⟨rfl, h⟩
  | cons e r ih =>
    obtain ⟨he, hr⟩ := List.forall_mem_cons.mp hsecs
    have hput := State.homePut_keyed (h e.1 he) e.2
    have hkeyed : (s.homePut ctx 0 (base + e.1) e.2).Keyed (s.encNow ctx 0) base n := by
      intro k hk
      rw [hput]
      by_cases hline : (base + k) / 128 = (base + e.1) / 128
      · rw [hline]
        exact Tbl.find_put_same ..
      · exact (Tbl.find_put_other _ _ _ _ hline).trans (h k hk)
    obtain ⟨hhbm, htag⟩ := ih hr hkeyed
    refine ⟨?_, htag⟩
    rw [List.foldl_cons, hhbm, hput]
    rfl

/-- Bytes of a save area, as its context reads them (R326). -/
def State.readArea (s : State) (ctx base off n : Nat) : List Byte := s.homeBytes ctx 0 (base + off) n

/-! What the writing of a save area leaves. -/

/-- A state but for memory, cores, management, what has left the module, and the counter of free values. -/
def State.offArea (s : State) : State := { s with mem := {}, core := {}, cores := [], mgmt := {}, outs := {}, tick := 0 }

theorem State.foldl_homePut_keeps {α : Type} (p : State → α) (hp : ∀ (s : State) (hbm : Memory) (enc : Tbl Enc),
    p { s with mem := { s.mem with hbm := hbm, enc := enc } } = p s) (ctx base : Nat) (secs : List (Nat × List Byte)) (s : State) :
    p (secs.foldl (fun (s : State) e => s.homePut ctx 0 (base + e.1) e.2) s) = p s :=
  foldl_keeps p _ _ _ fun a _ => hp a _ _

theorem State.writeArea_offArea (s : State) (ctx : Nat) (v : Saved) (drain : Bool) : (s.writeArea ctx v drain).offArea = s.offArea := by
  unfold State.writeArea
  dsimp only
  split
  · unfold State.badAgent State.poisonFrame
    dsimp only
    split_ifs <;> rfl
  · exact State.foldl_homePut_keeps State.offArea (fun _ _ _ => rfl) ..

theorem State.writeArea_scratch (s : State) (ctx : Nat) (v : Saved) (drain : Bool) :
    (s.writeArea ctx v drain).mem.spad = s.mem.spad ∧ (s.writeArea ctx v drain).mem.fe = s.mem.fe := by
  suffices h : ((s.writeArea ctx v drain).mem.spad, (s.writeArea ctx v drain).mem.fe) = (s.mem.spad, s.mem.fe) from Prod.mk.inj h
  unfold State.writeArea
  dsimp only
  split
  · unfold State.badAgent State.poisonFrame
    dsimp only
    split_ifs <;> rfl
  · exact State.foldl_homePut_keeps (fun t : State => (t.mem.spad, t.mem.fe)) (fun _ _ _ => rfl) ..

/-- The cells of every core stand. -/
theorem State.writeArea_mrf (s : State) (ctx : Nat) (v : Saved) (drain : Bool) (k : Nat) : ((s.writeArea ctx v drain).coreOf k).mrf = (s.coreOf k).mrf := by
  unfold State.writeArea
  dsimp only
  split
  · unfold State.badAgent State.poisonFrame
    dsimp only
    split_ifs <;> rfl
  · refine (State.foldl_homePut_keeps (fun t : State => (t.coreOf k).mrf) (fun _ _ _ => rfl) ..).trans ?_
    unfold State.zeroUnder State.wipe State.coreOf
    dsimp only
    split
    · rfl
    · exact (congrArg Core.mrf (Tbl.at_map s.cores (fun c => { c with pins := c.pins.filter (fun e =>
        decide (e.1 < s.areaBase ctx v.area / 128) || decide ((s.areaBase ctx v.area + saveBytes v.full) / 128 ≤ e.1)) }) k {}) :)

/-! The bytes of a written save area. -/

theorem saveBytes_ge (full : Bool) : 0x46000 ≤ saveBytes full := by cases full <;> decide

theorem saveBytes_lines (full : Bool) : 128 ∣ saveBytes full := by cases full <;> decide

section
variable {s : State} {ctx : Nat} {w : Saved} (drain : Bool) (hhbm : s.mem.hbm.wf = true) (hfits : w.Fits) (halign : s.areaBase ctx w.area % 128 = 0)
  (hlo : hbmExists (s.areaBase ctx w.area) = true) (hhi : hbmExists (s.areaBase ctx w.area + saveBytes w.full - 1) = true)

include hfits in
/-- A light save has no granules, and every other section starts within the area. -/
theorem State.saveSections_within : ∀ e ∈ s.saveSections w drain, e.1 < saveBytes w.full := by
  have hregion : ∀ p ∈ s.saveRegions w drain, p.hi ≤ saveBytes w.full ∨ p.secs = [] := by
    cases hfull : w.full with
    | true =>
      intro p hp
      have hbound : ∀ q ∈ saveBounds, q.2 ≤ saveBytes true := by decide
      exact .inl (hbound _ (List.mem_map_of_mem (f := fun p : Region => (p.lo, p.hi)) hp))
    | false =>
      obtain ⟨-, -, -, -, -, -, -, -, -, -, -, -, -, -, -, -, -, -, -, hlight⟩ := hfits
      obtain ⟨hgrans, hfe⟩ := hlight hfull
      simp [State.saveRegions, saveBytes, hgrans, hfe, tableSecs, packBits]
  rw [State.saveSections_eq]
  intro e he
  obtain ⟨p, hp, hep⟩ := List.mem_flatMap.mp he
  rcases hregion p hp with hbound | hnone
  · exact ((s.saveRegions_sound drain hfits p hp) e hep).2.1.trans_le hbound
  · rw [hnone] at hep
    cases hep

include hhbm hfits halign hlo hhi

/-- The area is read back under the context's keys. -/
theorem State.readArea_writeArea {off n : Nat} (h : off + n ≤ saveBytes w.full) :
    (s.writeArea ctx w drain).readArea ctx (s.areaBase ctx w.area) off n = (upto off n).map (laid 0 (s.saveSections w drain)) := by
  let base := s.areaBase ctx w.area
  let u := s.zeroUnder base (saveBytes w.full) (s.encNow ctx 0)
  have hzero (k : Nat) (hk : k < saveBytes w.full) : u.zeroAt (s.encNow ctx 0) (base + k) :=
    State.zeroUnder_zeroAt (Nat.dvd_of_mod_eq_zero halign) (saveBytes_lines w.full) hk
  have hwrite : s.writeArea ctx w drain = (s.saveSections w drain).foldl (fun (s : State) e => s.homePut ctx 0 (base + e.1) e.2) u := by
    unfold State.writeArea
    dsimp only
    rw [if_neg (by simp [hlo, hhi])]
  obtain ⟨hput, hkeyed⟩ := State.foldl_homePut_keyed (s := u) (s.saveSections w drain) (State.saveSections_within drain hfits) fun k hk => (hzero k hk).2
  rw [← hwrite] at hput hkeyed
  have hwf : u.mem.hbm.wf = true := Memory.wf_zero _ _ hhbm
  have hbyte (k : Nat) (hk : k < saveBytes w.full) : (s.writeArea ctx w drain).homeByte ctx 0 (base + k) = laid 0 (s.saveSections w drain) k := by
    have hfront := (congrArg State.front (s.writeArea_offArea ctx w drain) :)
    have henc : (s.writeArea ctx w drain).encNow ctx 0 = u.encNow ctx 0 := by
      unfold State.encNow State.ver State.ctxAt
      rw [show (s.writeArea ctx w drain).front = s.front from hfront]
      rfl
    unfold State.homeByte
    rw [hkeyed k hk, henc]
    dsimp only
    rw [Enc.reads_self, if_pos rfl, hput, Memory.get_foldl_put hwf, Memory.get_of_unlisted (hzero k hk).1]
  have hrun : upto (base + off) n = (upto off n).map (base + ·) := by
    rw [upto_eq_range', upto_eq_range', List.map_add_range']
  rw [State.readArea, State.homeBytes, hrun, List.map_map]
  refine List.map_congr_left fun k hk => ?_
  have := mem_upto.mp hk
  exact hbyte k (by omega)

/-- A run within a region reads as the region's sections. -/
theorem State.read_region {p : Region} (hp : p ∈ s.saveRegions w drain) {off n : Nat} (hoff : p.lo ≤ off) (hn : off + n ≤ p.hi)
    (hsize : p.hi ≤ saveBytes w.full) :
    (s.writeArea ctx w drain).readArea ctx (s.areaBase ctx w.area) off n = (upto off n).map (laid 0 p.secs) := by
  rw [State.readArea_writeArea drain hhbm hfits halign hlo hhi (hn.trans hsize), State.saveSections_eq]
  refine List.map_congr_left fun k hk => ?_
  have hin := mem_upto.mp hk
  exact laid_regions (s.saveRegions_sound drain hfits) (s.saveRegions_apart w drain) hp (by omega) (by omega) 0

/-- A region of one section reads as that. -/
theorem State.read_single {off hi n : Nat} {l : List Byte} (hp : ⟨off, hi, [(off, l)]⟩ ∈ s.saveRegions w drain) (hn : l.length = n) (hhi' : off + n ≤ hi)
    (hsize : hi ≤ 0x46000) : (s.writeArea ctx w drain).readArea ctx (s.areaBase ctx w.area) off n = l := by
  rw [State.read_region drain hhbm hfits halign hlo hhi hp le_rfl hhi' (hsize.trans (saveBytes_ge _))]
  exact map_upto_eq hn fun j hj => laid_single 0 off l (hn ▸ hj)

/-- A region of 64-bit cells reads as those. -/
theorem State.read_cells64 {off hi n : Nat} {m : Cells 64} (hp : ⟨off, hi, tableSecs off 8 (fun v : Word64 => leBytes v.toNat 8) m⟩ ∈ s.saveRegions w drain)
    (hm : m.wf = true) (hn : off + 8 * n ≤ hi) (hsize : hi ≤ 0x46000) :
    words64 ((s.writeArea ctx w drain).readArea ctx (s.areaBase ctx w.area) off (8 * n)) = (List.range n).map m.get := by
  rw [State.read_region drain hhbm hfits halign hlo hhi hp le_rfl hn (hsize.trans (saveBytes_ge _)), words64_run]
  refine List.map_congr_left fun i _ => ?_
  have hword : (upto (off + 8 * i) 8).map (laid 0 (tableSecs off 8 (fun v : Word64 => leBytes v.toNat 8) m)) = leBytes (m.get i).toNat 8 :=
    map_upto_eq (length_leBytes ..) fun j hj => laid_cells hm (fun v => length_leBytes ..) (getD_leBytes_zero 8 j) hj
  rw [hword, word64_leBytes]

/-- A region of 32-bit cells reads as those. -/
theorem State.read_cells32 {off hi n : Nat} {m : Cells 32} (hp : ⟨off, hi, tableSecs off 4 (fun v : Word32 => leBytes v.toNat 4) m⟩ ∈ s.saveRegions w drain)
    (hm : m.wf = true) (hn : off + 4 * n ≤ hi) (hsize : hi ≤ 0x46000) :
    words32 ((s.writeArea ctx w drain).readArea ctx (s.areaBase ctx w.area) off (4 * n)) = (List.range n).map m.get := by
  rw [State.read_region drain hhbm hfits halign hlo hhi hp le_rfl hn (hsize.trans (saveBytes_ge _)), words32_run]
  refine List.map_congr_left fun i _ => ?_
  have hword : (upto (off + 4 * i) 4).map (laid 0 (tableSecs off 4 (fun v : Word32 => leBytes v.toNat 4) m)) = leBytes (m.get i).toNat 4 :=
    map_upto_eq (length_leBytes ..) fun j hj => laid_cells hm (fun v => length_leBytes ..) (getD_leBytes_zero 4 j) hj
  rw [hword, word32_leBytes]

/-! Registers (R333, R335). -/

end

/-- A stream but for its system registers. -/
def Stream.offSys (x : Stream) : Stream :=
  { x with fmode := 0, flags := 0, lc := 0, ec := 0, rrb := 0, efr := 0, fewaitlim := 0, latcnt := 0, tvec := 0, trappc := 0, trapcause := 0,
           trapaddr := 0, trapinfo := 0 }

/-- Registers and modes as they are read, before the system registers. -/
theorem State.loadStream_eq (s : State) (base : Nat) (x : Stream) :
    let rd := s.readArea x.ctx base
    let m := words64 (rd 0x140 32)
    let l (i : Nat) : BitVec 12 := (wordAt m 1).extractLsb' (12 * i) 12
    ∃ y : Stream, s.loadStream base x = (sysRegs.zip (words64 (rd 0x600 192))).foldl (fun (x : Stream) e => x.writeSys e.1 e.2) y ∧
      y.s = Cells.puts (w := 64) [] ((upto 1 31).zip ((words64 (rd 0x40 256)).drop 1)) ∧ y.p = (wordAt m 0).setWidth 16 ∧
      y.l = Cells.puts (w := 12) [] [(0, l 0), (1, l 1), (2, l 2), (3, l 3)] ∧
      y.c = Cells.puts (w := 32) [] ((upto 0 16).zip (words32 (rd 0x180 64))) ∧ y.q = Cells.puts (w := 64) [] ((upto 0 8).zip (words64 (rd 0x1C0 64))) ∧
      y.z = Cells.puts (w := 32) [] ((upto 0 256).zip (words32 (rd 0x200 1024))) ∧
      y.win = (if x.winHeld then ((upto 0 (min 480 (leNat (rd (0x26000 + 130560) 8)))).map (fun i => RRec.of (rd (0x26000 + 272 * i) 272))).reverse else []) ∧
      y.handler = (wordAt m 2).getLsbD 0 ∧ y.halted = (wordAt m 2).getLsbD 2 ∧ y.pc = wordAt m 3 ∧ y.npc = wordAt m 3 := by
  unfold State.loadStream State.readArea
  dsimp only
  refine ⟨_, rfl, ?_⟩
  dsimp only
  simp only [and_self]

theorem foldl_writeSys_offSys (l : List (SysReg × Word64)) (x : Stream) : (l.foldl (fun (x : Stream) e => x.writeSys e.1 e.2) x).offSys = x.offSys :=
  foldl_keeps Stream.offSys _ _ _ fun a e => by
    obtain ⟨r, v⟩ := e
    cases r <;> rfl

end Sys2Proof.Machine
end

section
/-! A saved stream read back (R333, R335): its registers, modes and system registers, and its window. -/

namespace Sys2Proof.Machine

/-! Records of the remainder window (R200). -/

theorem RRec.of_bytes {r : RRec} (h : r.cells.length = 64) : RRec.of r.bytes = r := by
  obtain ⟨cells, t0, t1⟩ := r
  dsimp only at h
  have hcells : (upto 0 64).map (fun i => leBytes (cells.getD i 0).toNat 4) = cells.map (fun v => leBytes v.toNat 4) := by
    rw [upto_eq_range', ← List.range_eq_range']
    refine List.ext_getElem (by simp [h]) fun i _ hi => ?_
    rw [List.length_map] at hi
    rw [List.getElem_map, List.getElem_map, List.getElem_range, List.getD_eq_getElem _ _ hi]
  have hlen : ((cells.map (fun v => leBytes v.toNat 4)).flatten).length = 256 := by
    rw [List.length_flatten, List.map_map]
    simp [Function.comp_def, h]
  simp only [RRec.of, RRec.bytes, hcells, List.append_assoc, RRec.mk.injEq]
  refine ⟨?_, ?_, ?_⟩
  · rw [List.take_left' hlen, words32_flatten]
  · rw [List.drop_left' hlen, List.take_left' (length_leBytes ..), word64_leBytes]
  · rw [← List.append_assoc, List.drop_left' (by rw [List.length_append, hlen, length_leBytes]), List.take_of_length_le (by rw [length_leBytes]),
      word64_leBytes]

/-- A record of a window's section, by its place from the bottom. -/
theorem laid_windowBytes_record {win : List RRec} (agent : Nat) (hwin : win.length ≤ 480) {i j : Nat} (hi : i < win.reverse.length) (hj : j < 272) :
    laid 0 (windowBytes win agent) (0x26000 + 272 * i + j) = (win.reverse[i].bytes).getD j 0 := by
  have hlen : win.reverse.length = win.length := List.length_reverse
  have hmem : (i, win.reverse[i].bytes) ∈ windowRecords win := by
    refine List.mem_iff_getElem.mpr ⟨i, by simpa [windowRecords, upto_eq_range'] using hi, ?_⟩
    simp [windowRecords, upto_eq_range']
  have hkeys : ((windowRecords win).map (fun e => e.1)).Nodup := by
    have hfst : (windowRecords win).map (fun e => e.1) = upto 0 win.length := List.map_fst_zip (by simp [upto_eq_range'])
    rw [hfst, upto_eq_range']
    exact List.nodup_range' ..
  rw [windowBytes_eq, laid_append, laid_outside]
  · exact laid_tableSecs (fun e he => (mem_windowRecords he).2) hkeys hmem hj 0
  · intro e he
    obtain rfl := List.mem_singleton.mp he
    dsimp only
    omega

/-- The control word of a window's section. -/
theorem laid_windowBytes_control (win : List RRec) (agent : Nat) {j : Nat} (hj : j < 8) :
    laid 0 (windowBytes win agent) (0x26000 + 130560 + j) = (leBytes (BitVec.ofNat 64 win.length).toNat 8).getD j 0 := by
  have hword : wordBytes [BitVec.ofNat 64 win.length, BitVec.ofNat 64 agent] =
      leBytes (BitVec.ofNat 64 win.length).toNat 8 ++ wordBytes [BitVec.ofNat 64 agent] := rfl
  rw [windowBytes_eq, laid_append, laid_cons, if_pos (by rw [length_wordBytes]; exact ⟨by omega, by simp; omega⟩), Nat.add_sub_cancel_left, hword]
  exact List.getD_append _ _ _ _ (by rw [length_leBytes]; exact hj)

section
variable {s : State} {w : Saved} (drain : Bool) (hhbm : s.mem.hbm.wf = true) (hfits : w.Fits)
  (halign : s.areaBase w.stream.ctx w.area % 128 = 0)
  (hlo : hbmExists (s.areaBase w.stream.ctx w.area) = true) (hhi : hbmExists (s.areaBase w.stream.ctx w.area + saveBytes w.full - 1) = true)

include hhbm hfits halign hlo hhi

/-- A held window is read back, record by record. -/
theorem State.read_window (hheld : w.stream.winHeld = true) :
    let rd := (s.writeArea w.stream.ctx w drain).readArea w.stream.ctx (s.areaBase w.stream.ctx w.area)
    ((upto 0 (min 480 (leNat (rd (0x26000 + 130560) 8)))).map (fun i => RRec.of (rd (0x26000 + 272 * i) 272))).reverse = w.stream.win := by
  intro rd
  obtain ⟨-, -, -, -, -, -, -, -, -, -, hwin, hcells, -⟩ := id hfits
  have hp : ⟨0x26000, 0x46000, windowBytes w.stream.win w.stream.winAgent⟩ ∈ s.saveRegions w drain := by
    refine List.mem_of_getElem? (i := 16) ?_
    rw [← if_pos (c := w.stream.winHeld = true) (t := windowBytes w.stream.win w.stream.winAgent) (e := []) hheld]
    rfl
  have hregion {off n : Nat} (hoff : 0x26000 ≤ off) (hn : off + n ≤ 0x46000) :
      rd off n = (upto off n).map (laid 0 (windowBytes w.stream.win w.stream.winAgent)) :=
    State.read_region drain hhbm hfits halign hlo hhi hp hoff hn (saveBytes_ge _)
  have hcount : leNat (rd (0x26000 + 130560) 8) = w.stream.win.length := by
    rw [hregion (by decide) (by decide), map_upto_eq (length_leBytes ..) fun j hj => laid_windowBytes_control _ _ hj, leNat_leBytes, BitVec.toNat_ofNat]
    omega
  have hrecords : (upto 0 w.stream.win.length).map (fun i => RRec.of (rd (0x26000 + 272 * i) 272)) = w.stream.win.reverse := by
    rw [upto_eq_range', ← List.range_eq_range']
    refine List.ext_getElem (by simp) fun i _ hi => ?_
    have hlt : i < w.stream.win.length := by simpa using hi
    rw [List.getElem_map, List.getElem_range, hregion (by omega) (by omega),
      map_upto_eq (RRec.length_bytes _) fun j hj => laid_windowBytes_record _ hwin hi hj]
    exact RRec.of_bytes (hcells _ (List.mem_reverse.mp (List.getElem_mem hi)))
  rw [hcount, Nat.min_eq_right hwin, hrecords, List.reverse_reverse]

end

/-- A run of cells that starts one above the first. -/
theorem zip_drop_one {α : Type} (f : Nat → α) (n : Nat) :
    (upto 1 n).zip (((List.range (n + 1)).map f).drop 1) = (upto 1 n).zip ((List.range n).map (fun i => f (1 + i))) := by
  rw [List.range_succ_eq_map, List.map_cons, List.drop_one, List.tail_cons, List.map_map]
  simp only [Function.comp_def, Nat.succ_eq_add_one, Nat.add_comm 1]

/-- A run of cells from the first. -/
theorem Cells.get_puts_first {w : Nat} (f : Nat → BitVec w) {n i : Nat} (hi : i < n) :
    (Cells.puts [] ((upto 0 n).zip ((List.range n).map f))).get i = f i := by
  have h := Cells.get_puts_run (m := []) rfl f (a := 0) hi
  rwa [Nat.zero_add] at h

/-- The link registers are unpacked from the word that holds them. -/
theorem extract_links (x : Stream) (drain : Bool) {i : Nat} (hi : i < 4) :
    (wordAt (saveModes x drain) 1).extractLsb' (12 * i) 12 = x.l.get i := by
  have hword : wordAt (saveModes x drain) 1 = BitVec.ofNat 64
      ((x.l.get 0).toNat * 2 ^ (12 * 0) + (x.l.get 1).toNat * 2 ^ (12 * 1) + (x.l.get 2).toNat * 2 ^ (12 * 2) + (x.l.get 3).toNat * 2 ^ (12 * 3)) := rfl
  have h0 := (x.l.get 0).isLt
  have h1 := (x.l.get 1).isLt
  have h2 := (x.l.get 2).isLt
  have h3 := (x.l.get 3).isLt
  refine BitVec.eq_of_toNat_eq ?_
  rw [hword, BitVec.extractLsb'_toNat, BitVec.toNat_ofNat, Nat.shiftRight_eq_div_pow]
  interval_cases i <;> simp <;> omega

/-- The modes are read from their word. -/
theorem saveModes_flags (x : Stream) (drain : Bool) :
    (wordAt (saveModes x drain) 2).getLsbD 0 = x.handler ∧ (wordAt (saveModes x drain) 2).getLsbD 2 = x.halted := by
  have hword : wordAt (saveModes x drain) 2 =
      BitVec.ofNat 64 ((if x.handler then 1 else 0) + (if drain then 2 else 0) + (if x.halted then 4 else 0)) := rfl
  rw [hword]
  clear hword
  generalize x.handler = handler
  generalize x.halted = halted
  revert handler drain halted
  decide

/-! The registers (R333, R335). -/

section
variable {s : State} {w : Saved} (drain : Bool) (hhbm : s.mem.hbm.wf = true) (hfits : w.Fits)
  (halign : s.areaBase w.stream.ctx w.area % 128 = 0)
  (hlo : hbmExists (s.areaBase w.stream.ctx w.area) = true) (hhi : hbmExists (s.areaBase w.stream.ctx w.area + saveBytes w.full - 1) = true)

/-- A stream that holds what a saved one held, but for its system registers. -/
def Stream.Reloads (y z : Stream) : Prop :=
  (∀ r, 1 ≤ r → r < 32 → y.s.get r = z.s.get r) ∧ y.p = z.p ∧ (∀ r, r < 4 → y.l.get r = z.l.get r) ∧ (∀ r, r < 16 → y.c.get r = z.c.get r) ∧
    (∀ r, r < 8 → y.q.get r = z.q.get r) ∧ (∀ r, r < 256 → y.z.get r = z.z.get r) ∧ y.pc = z.pc ∧ y.npc = z.pc ∧ y.handler = z.handler ∧
    y.halted = z.halted ∧ y.win = (if z.winHeld then z.win else [])

theorem Stream.Reloads.of_offSys {x y z : Stream} (h : x.Reloads z) (hy : y.offSys = x.offSys) : y.Reloads z := by
  have hs : y.s = x.s := (congrArg Stream.s hy :)
  have hp : y.p = x.p := (congrArg Stream.p hy :)
  have hl : y.l = x.l := (congrArg Stream.l hy :)
  have hc : y.c = x.c := (congrArg Stream.c hy :)
  have hq : y.q = x.q := (congrArg Stream.q hy :)
  have hz : y.z = x.z := (congrArg Stream.z hy :)
  have hpc : y.pc = x.pc := (congrArg Stream.pc hy :)
  have hnpc : y.npc = x.npc := (congrArg Stream.npc hy :)
  have hhandler : y.handler = x.handler := (congrArg Stream.handler hy :)
  have hhalted : y.halted = x.halted := (congrArg Stream.halted hy :)
  have hwin : y.win = x.win := (congrArg Stream.win hy :)
  rw [Stream.Reloads, hs, hp, hl, hc, hq, hz, hpc, hnpc, hhandler, hhalted, hwin]
  exact h

include hhbm hfits halign hlo hhi

/-- The system registers are written back over a stream that holds the others again. -/
theorem State.loadStream_written : ∃ y : Stream, y.Reloads w.stream ∧
    (s.writeArea w.stream.ctx w drain).loadStream (s.areaBase w.stream.ctx w.area) w.stream =
      (sysRegs.map (fun r => (r, s.readSys w.stream r))).foldl (fun (x : Stream) e => x.writeSys e.1 e.2) y := by
  obtain ⟨hws, -, hwc, -, hwq, -, hwz, -⟩ := id hfits
  have hmember (i : Nat) {p : Region} (h : (s.saveRegions w drain)[i]? = some p) : p ∈ s.saveRegions w drain := List.mem_of_getElem? h
  have hmodes : words64 ((s.writeArea w.stream.ctx w drain).readArea w.stream.ctx (s.areaBase w.stream.ctx w.area) 0x140 32) =
      saveModes w.stream drain := by
    rw [State.read_single drain hhbm hfits halign hlo hhi (hmember 1 rfl) (n := 32) (length_wordBytes _) (by decide) (by decide), words64_wordBytes]
  have hsys : words64 ((s.writeArea w.stream.ctx w drain).readArea w.stream.ctx (s.areaBase w.stream.ctx w.area) 0x600 192) =
      sysRegs.map (fun r => s.readSys w.stream r) := by
    rw [State.read_single drain hhbm hfits halign hlo hhi (hmember 2 rfl) (n := 192) (by rw [length_wordBytes, List.length_map]; rfl) (by decide)
      (by decide), words64_wordBytes]
  obtain ⟨y, hload, hys, hyp, hyl, hyc, hyq, hyz, hywin, hyhandler, hyhalted, hypc, hynpc⟩ :=
    State.loadStream_eq (s.writeArea w.stream.ctx w drain) (s.areaBase w.stream.ctx w.area) w.stream
  simp only [hmodes] at hyp hyl hyhandler hyhalted hypc hynpc
  have hzip : sysRegs.zip (sysRegs.map (fun r => s.readSys w.stream r)) = sysRegs.map (fun r => (r, s.readSys w.stream r)) := rfl
  rw [hsys, hzip] at hload
  refine ⟨y, ⟨fun r hr hr' => ?_, ?_, fun r hr => ?_, fun r hr => ?_, fun r hr => ?_, fun r hr => ?_, hypc, hynpc, ?_, ?_, ?_⟩, hload⟩
  · have hrun : words64 ((s.writeArea w.stream.ctx w drain).readArea w.stream.ctx (s.areaBase w.stream.ctx w.area) 0x40 256) =
        (List.range 32).map w.stream.s.get :=
      State.read_cells64 drain hhbm hfits halign hlo hhi (hmember 3 rfl) hws (n := 32) (by decide) (by decide)
    rw [hys, hrun, zip_drop_one w.stream.s.get 31]
    obtain ⟨i, rfl⟩ := Nat.exists_eq_add_of_le hr
    exact Cells.get_puts_run (m := []) rfl (fun i => w.stream.s.get (1 + i)) (by omega)
  · rw [hyp]
    exact BitVec.setWidth_setWidth_of_le w.stream.p (by decide : 16 ≤ 64)
  · have hlinks : y.l = Cells.puts (w := 12) [] ([0, 1, 2, 3].map (fun k => (k, w.stream.l.get k))) := by
      rw [hyl]
      simp only [extract_links w.stream drain (i := 0) (by decide), extract_links w.stream drain (i := 1) (by decide),
        extract_links w.stream drain (i := 2) (by decide), extract_links w.stream drain (i := 3) (by decide), List.map_cons, List.map_nil]
    rw [hlinks, Cells.get_puts_map rfl, if_pos]
    interval_cases r <;> decide
  · have hrun : words32 ((s.writeArea w.stream.ctx w drain).readArea w.stream.ctx (s.areaBase w.stream.ctx w.area) 0x180 64) =
        (List.range 16).map w.stream.c.get :=
      State.read_cells32 drain hhbm hfits halign hlo hhi (hmember 4 rfl) hwc (n := 16) (by decide) (by decide)
    rw [hyc, hrun]
    exact Cells.get_puts_first w.stream.c.get hr
  · have hrun : words64 ((s.writeArea w.stream.ctx w drain).readArea w.stream.ctx (s.areaBase w.stream.ctx w.area) 0x1C0 64) =
        (List.range 8).map w.stream.q.get :=
      State.read_cells64 drain hhbm hfits halign hlo hhi (hmember 5 rfl) hwq (n := 8) (by decide) (by decide)
    rw [hyq, hrun]
    exact Cells.get_puts_first w.stream.q.get hr
  · have hrun : words32 ((s.writeArea w.stream.ctx w drain).readArea w.stream.ctx (s.areaBase w.stream.ctx w.area) 0x200 1024) =
        (List.range 256).map w.stream.z.get :=
      State.read_cells32 drain hhbm hfits halign hlo hhi (hmember 6 rfl) hwz (n := 256) (by decide) (by decide)
    rw [hyz, hrun]
    exact Cells.get_puts_first w.stream.z.get hr
  · exact hyhandler.trans (saveModes_flags w.stream drain).1
  · exact hyhalted.trans (saveModes_flags w.stream drain).2
  · rw [hywin]
    refine ite_congr rfl (fun hheld => ?_) fun _ => rfl
    exact State.read_window drain hhbm hfits halign hlo hhi hheld

/-- The registers but for the system registers. -/
theorem State.loadStream_reloads :
    ((s.writeArea w.stream.ctx w drain).loadStream (s.areaBase w.stream.ctx w.area) w.stream).Reloads w.stream := by
  obtain ⟨y, hy, hload⟩ := State.loadStream_written drain hhbm hfits halign hlo hhi
  exact hy.of_offSys (by rw [hload, foldl_writeSys_offSys])

/-- The system registers that a save holds and a write can reach; TVEC and TRAPPC come back without their low bits (R104). -/
theorem State.loadStream_sys :
    let y := (s.writeArea w.stream.ctx w drain).loadStream (s.areaBase w.stream.ctx w.area) w.stream
    let z := w.stream
    y.fmode = z.fmode ∧ y.flags = z.flags ∧ y.lc = z.lc ∧ y.ec = z.ec ∧ y.rrb = z.rrb ∧ y.efr = z.efr ∧ y.fewaitlim = z.fewaitlim ∧
      y.latcnt = z.latcnt ∧ y.tvec = z.tvec &&& ~~~3 ∧ y.trappc = z.trappc &&& ~~~3 ∧ y.trapcause = z.trapcause ∧ y.trapaddr = z.trapaddr := by
  obtain ⟨y, -, hload⟩ := State.loadStream_written drain hhbm hfits halign hlo hhi
  have hcut {n : Nat} (v : BitVec n) (hn : n ≤ 64) : (v.setWidth 64).setWidth n = v := by
    rw [BitVec.setWidth_setWidth_of_le v hn, BitVec.setWidth_eq]
  have halign4 (v : BitVec 56) : (v.setWidth 64 &&& ~~~3).setWidth 56 = v &&& ~~~3 := by
    rw [BitVec.setWidth_and, hcut v (by decide)]
    rfl
  dsimp only
  rw [hload]
  simp only [sysRegs, List.map_cons, List.map_nil, List.foldl_cons, List.foldl_nil, Stream.writeSys, State.readSys]
  exact ⟨hcut _ (by decide), hcut _ (by decide), hcut _ (by decide), hcut _ (by decide), hcut _ (by decide), hcut _ (by decide), hcut _ (by decide), trivial,
    halign4 _, halign4 _, hcut _ (by decide), trivial⟩

end

end Sys2Proof.Machine
end

section
/-! A saved stream's tiles and granules read back into its core (R333, R335). -/

namespace Sys2Proof.Machine

theorem Cells.get_zero_outside {w : Nat} {m : Cells w} (hm : m.wf = true) {a n i : Nat} (hi : ¬(a ≤ i ∧ i < a + n)) : (m.zero a n).get i = m.get i := by
  by_cases h : ∃ e ∈ m, e.1 = i
  · obtain ⟨e, he, rfl⟩ := h
    have hkept : e ∈ m.zero a n := List.mem_filter.mpr ⟨he, by simp only [Bool.or_eq_true, decide_eq_true_eq]; omega⟩
    rw [Cells.get_of_mem (Cells.wf_zero a n hm) hkept, Cells.get_of_mem hm he]
  · have hnone : ∀ e ∈ m, e.1 ≠ i := fun e he hei => h ⟨e, he, hei⟩
    rw [Cells.get_of_unlisted hnone, Cells.get_of_unlisted (m := m.zero a n) fun e he => hnone e (List.mem_of_mem_filter he)]

theorem getD_map_upto {α : Type} (g : Nat → α) (o : Nat) {n j : Nat} (hj : j < n) (d : α) : ((upto o n).map g).getD j d = g (o + j) := by
  rw [upto_eq_range', List.range'_eq_map_range, List.map_map, List.getD_eq_getElem _ _ (by simpa using hj)]
  simp

/-! The core's part of a restore. -/

/-- A core that has a saved stream's cells and store words again. -/
def State.loadTiles (s : State) (base key : Nat) (v : Saved) : State :=
  let x := v.stream
  let r := tileRange x.tiles4 (key % 2 == 1)
  let c := (s.coreOf (key / 2)).clearFor x.tiles4 (key % 2 == 1)
  s.putCore (key / 2) { c with
    mrf := c.mrf.puts ((upto (4096 * r.1) (4096 * r.2)).zip (words32 (s.readArea x.ctx base 0x6000 (16384 * r.2)))),
    store := c.store.puts ((upto (x.partBase key) x.partSize).zip (words64 (s.readArea x.ctx base 0x2000 (8 * x.partSize)))) }

/-- A granule from the bytes and the packed full/empty bits of a save area. -/
def MemSys.fillGran (m : MemSys) (core g : Nat) (bytes bits : List Byte) : MemSys :=
  let c := m.clearGran core g
  let set := (upto 0 16384).filter (fun w => (bits.getD (w / 8) 0).getLsbD (w % 8))
  { c with spad := c.spad.put (core * 2 ^ 20 + g * 65536) bytes, fe := c.fe.puts (set.map (fun w => (core * 2 ^ 18 + g * 16384 + w, 1))) }

/-- One saved granule under its own number. -/
def State.loadGran (ctx base core : Nat) (s : State) (e : Nat × Nat) : State :=
  { s with mem := s.mem.fillGran core e.2 (s.homeBytes ctx 0 (base + 0x46000 + 65536 * e.1) 65536) (s.homeBytes ctx 0 (base + 0x146000 + 2048 * e.1) 2048) }

theorem State.loadCore_eq (s : State) (base key : Nat) (v : Saved) (gs : Tbl Nat) : s.loadCore base key v gs =
    if !v.full then s.loadTiles base key v else gs.foldl (State.loadGran v.stream.ctx base (key / 2)) (s.loadTiles base key v) := rfl

theorem State.loadTiles_mem (s : State) (base key : Nat) (v : Saved) : (s.loadTiles base key v).mem = s.mem := by
  unfold State.loadTiles State.putCore
  dsimp only
  split <;> rfl

theorem State.loadTiles_front (s : State) (base key : Nat) (v : Saved) : (s.loadTiles base key v).front = s.front := by
  unfold State.loadTiles State.putCore
  dsimp only
  split <;> rfl

theorem State.homeBytes_congr {s t : State} (hhbm : t.mem.hbm = s.mem.hbm) (henc : t.mem.enc = s.mem.enc) (hfront : t.front = s.front) :
    t.homeBytes = s.homeBytes := by
  funext ctx buf pa n
  unfold State.homeBytes State.homeByte State.encNow State.ver State.ctxAt
  rw [hhbm, henc, hfront]

theorem State.loadTiles_homeBytes (s : State) (base key : Nat) (v : Saved) : (s.loadTiles base key v).homeBytes = s.homeBytes :=
  State.homeBytes_congr (by rw [State.loadTiles_mem]) (by rw [State.loadTiles_mem]) (s.loadTiles_front base key v)

theorem MemSys.fillGran_home (m : MemSys) (core g : Nat) (bytes bits : List Byte) :
    (m.fillGran core g bytes bits).hbm = m.hbm ∧ (m.fillGran core g bytes bits).enc = m.enc := by
  unfold MemSys.fillGran MemSys.clearGran
  exact ⟨by dsimp only, by dsimp only⟩

theorem State.homeBytes_setMem (s : State) {m : MemSys} (h : m.hbm = s.mem.hbm ∧ m.enc = s.mem.enc) : ({ s with mem := m }).homeBytes = s.homeBytes :=
  State.homeBytes_congr h.1 h.2 rfl

theorem State.homeBytes_loadGran (ctx base core : Nat) (s : State) (e : Nat × Nat) : (s.loadGran ctx base core e).homeBytes = s.homeBytes :=
  s.homeBytes_setMem (MemSys.fillGran_home ..)

theorem State.coreOf_setMem (s : State) (m : MemSys) (k : Nat) : ({ s with mem := m }).coreOf k = s.coreOf k := rfl

theorem State.coreOf_loadGran (ctx base core : Nat) (s : State) (e : Nat × Nat) (k : Nat) : (s.loadGran ctx base core e).coreOf k = s.coreOf k :=
  State.coreOf_setMem ..

/-- The granules are not the core's own state. -/
theorem State.loadCore_coreOf (s : State) (base key : Nat) (v : Saved) (gs : Tbl Nat) (k : Nat) :
    (s.loadCore base key v gs).coreOf k = (s.loadTiles base key v).coreOf k := by
  rw [State.loadCore_eq]
  split
  · rfl
  · exact foldl_keeps (fun t : State => t.coreOf k) _ _ _ fun a e => a.coreOf_loadGran _ _ _ e k

/-- The cells of a core that has been loaded. -/
theorem State.loadCore_mrf (s : State) (base key : Nat) (v : Saved) (gs : Tbl Nat) :
    ((s.loadCore base key v gs).coreOf (key / 2)).mrf =
      let r := tileRange v.stream.tiles4 (key % 2 == 1)
      ((s.coreOf (key / 2)).mrf.zero (4096 * r.1) (4096 * r.2)).puts
        ((upto (4096 * r.1) (4096 * r.2)).zip (words32 (s.readArea v.stream.ctx base 0x6000 (16384 * r.2)))) := by
  rw [State.loadCore_coreOf, State.loadTiles]
  dsimp only
  rw [State.coreOf_putCore_same]
  rfl

/-! Granules. -/

/-- What a granule holds: its bytes and its full/empty bits. -/
def MemSys.gran (m : MemSys) (core g : Nat) : (Fin 65536 → Byte) × (Fin 16384 → BitVec 1) :=
  (fun i => m.spad.get (core * 2 ^ 20 + g * 65536 + i), fun j => m.fe.get (core * 2 ^ 18 + g * 16384 + j))

/-- The scratchpads and their bits are canonical. -/
def MemSys.Tidy (m : MemSys) : Prop := m.spad.wf = true ∧ m.fe.wf = true

theorem MemSys.clearGran_fe (m : MemSys) (core g : Nat) : (m.clearGran core g).fe = m.fe.zero (core * 2 ^ 18 + g * 16384) 16384 := by
  rw [MemSys.clearGran, show (core * 2 ^ 20 + g * 65536) / 4 = core * 2 ^ 18 + g * 16384 by omega]

theorem MemSys.Tidy.clearGran {m : MemSys} (h : m.Tidy) (core g : Nat) : (m.clearGran core g).Tidy :=
  ⟨Memory.wf_zero _ _ h.1, Cells.wf_zero _ _ h.2⟩

theorem MemSys.Tidy.fillGran {m : MemSys} (h : m.Tidy) (core g : Nat) (bytes bits : List Byte) : (m.fillGran core g bytes bits).Tidy :=
  ⟨Memory.wf_put _ _ (h.clearGran core g).1, Cells.wf_puts _ (h.clearGran core g).2⟩

theorem MemSys.fillGran_fe (m : MemSys) (core g : Nat) (bytes bits : List Byte) :
    (m.fillGran core g bytes bits).fe = (m.fe.zero (core * 2 ^ 18 + g * 16384) 16384).puts
      ((((upto 0 16384).filter (fun w => (bits.getD (w / 8) 0).getLsbD (w % 8))).map (core * 2 ^ 18 + g * 16384 + ·)).map (fun k => (k, 1))) := by
  rw [MemSys.fillGran, ← MemSys.clearGran_fe, List.map_map]
  rfl

/-- A filled granule holds the bytes and the bits. -/
theorem MemSys.gran_fillGran_same {m : MemSys} (h : m.Tidy) (core g : Nat) {bytes bits : List Byte} (hlen : bytes.length = 65536) :
    (m.fillGran core g bytes bits).gran core g =
      (fun i => bytes.getD i.val 0, fun j => if (bits.getD (j.val / 8) 0).getLsbD (j.val % 8) then 1 else 0) := by
  refine Prod.ext (funext fun i => ?_) (funext fun j => ?_)
  · refine (Memory.get_put (h.clearGran core g).1 ..).trans ?_
    rw [if_pos (by omega), Nat.add_sub_cancel_left]
  · have hin : core * 2 ^ 18 + g * 16384 + j.val ∈
        ((upto 0 16384).filter (fun w => (bits.getD (w / 8) 0).getLsbD (w % 8))).map (core * 2 ^ 18 + g * 16384 + ·) ↔
          (bits.getD (j / 8) 0).getLsbD (j % 8) = true := by
      rw [List.mem_map]
      constructor
      · rintro ⟨w, hw, hwj⟩
        rw [← Nat.add_left_cancel hwj]
        exact (List.mem_filter.mp hw).2
      · exact fun hbit => ⟨j, List.mem_filter.mpr ⟨mem_upto.mpr ⟨Nat.zero_le _, by omega⟩, hbit⟩, rfl⟩
    simp only [MemSys.gran]
    rw [MemSys.fillGran_fe, Cells.get_puts_map (Cells.wf_zero _ _ h.2), Cells.get_zero_within _ (by omega) (by omega)]
    exact if_congr hin rfl rfl

/-- The other granules of the core stand. -/
theorem MemSys.gran_fillGran_other {m : MemSys} (h : m.Tidy) (core : Nat) {g g' : Nat} (hg : g' ≠ g) {bytes : List Byte} (bits : List Byte)
    (hlen : bytes.length = 65536) : (m.fillGran core g bytes bits).gran core g' = m.gran core g' := by
  refine Prod.ext (funext fun i => ?_) (funext fun j => ?_)
  · have hi := i.isLt
    refine (Memory.get_put (h.clearGran core g).1 ..).trans ?_
    rw [if_neg (by omega)]
    exact Cells.get_zero_outside h.1 (by omega)
  · have hj := j.isLt
    simp only [MemSys.gran]
    rw [MemSys.fillGran_fe, Cells.get_puts_map (Cells.wf_zero _ _ h.2), if_neg, Cells.get_zero_outside h.2 (by omega)]
    intro hmem
    obtain ⟨w, hw, hwj⟩ := List.mem_map.mp hmem
    have := mem_upto.mp (List.mem_of_mem_filter hw)
    omega

theorem State.length_homeBytes (s : State) (ctx : Nat) (buf : BitVec 24) (pa n : Nat) : (s.homeBytes ctx buf pa n).length = n := by
  rw [State.homeBytes, List.length_map, upto_eq_range', List.length_range']

section
variable (ctx base core : Nat)

/-- Granules loaded under other numbers leave a granule. -/
theorem State.gran_foldl_loadGran_other {gs : Tbl Nat} {g : Nat} (hg : ∀ e ∈ gs, g ≠ e.2) {s : State} (h : s.mem.Tidy) :
    (gs.foldl (State.loadGran ctx base core) s).mem.gran core g = s.mem.gran core g := by
  induction gs generalizing s with
  | nil => rfl
  | cons d gs ih =>
    obtain ⟨hd, hgs⟩ := List.forall_mem_cons.mp hg
    rw [List.foldl_cons, ih hgs (h.fillGran ..)]
    exact MemSys.gran_fillGran_other h core hd _ (State.length_homeBytes ..)

/-- Each granule holds what the area says for it. -/
theorem State.gran_foldl_loadGran {gs : Tbl Nat} (hgs : (gs.map (fun e => e.2)).Nodup) {e : Nat × Nat} (he : e ∈ gs) {s : State} (h : s.mem.Tidy) :
    (gs.foldl (State.loadGran ctx base core) s).mem.gran core e.2 =
      (fun i => (s.homeBytes ctx 0 (base + 0x46000 + 65536 * e.1) 65536).getD i.val 0,
       fun j => if ((s.homeBytes ctx 0 (base + 0x146000 + 2048 * e.1) 2048).getD (j.val / 8) 0).getLsbD (j.val % 8) then 1 else 0) := by
  induction gs generalizing s with
  | nil => cases he
  | cons d gs ih =>
    rw [List.map_cons, List.nodup_cons] at hgs
    obtain ⟨hd, hgs⟩ := hgs
    rw [List.foldl_cons]
    rcases List.mem_cons.mp he with rfl | he
    · rw [State.gran_foldl_loadGran_other ctx base core (fun f hf heq => hd (List.mem_map.mpr ⟨f, hf, heq.symm⟩)) (h.fillGran ..)]
      exact MemSys.gran_fillGran_same h core e.2 (State.length_homeBytes ..)
    · rw [ih hgs he (h.fillGran ..), State.homeBytes_loadGran]

end

/-! What a save has written. -/

section
variable {s : State} {w : Saved} (drain : Bool) (hhbm : s.mem.hbm.wf = true) (hfits : w.Fits)
  (halign : s.areaBase w.stream.ctx w.area % 128 = 0)
  (hlo : hbmExists (s.areaBase w.stream.ctx w.area) = true) (hhi : hbmExists (s.areaBase w.stream.ctx w.area + saveBytes w.full - 1) = true)

include hhbm hfits halign hlo hhi

/-- Bytes of a full save's table of bytes. -/
theorem State.read_bytes (hfull : w.full = true) {off hi k n j : Nat} {m : Memory}
    (hp : ⟨off, hi, tableSecs off 1 (fun v : Byte => [v]) m⟩ ∈ s.saveRegions w drain) (hm : m.wf = true) (hn : off + k + n ≤ hi)
    (hsize : hi ≤ saveBytes true) (hj : j < n) :
    ((s.writeArea w.stream.ctx w drain).readArea w.stream.ctx (s.areaBase w.stream.ctx w.area) (off + k) n).getD j 0 = m.get (k + j) := by
  rw [State.read_region drain hhbm hfits halign hlo hhi hp (Nat.le_add_right off k) hn (hfull ▸ hsize), getD_map_upto _ _ hj]
  have h := laid_cells (off := off) (r := k + j) (f := fun v : Byte => [v]) hm (fun _ => rfl) rfl (Nat.zero_lt_one)
  rwa [Nat.one_mul, Nat.add_zero, ← Nat.add_assoc] at h

/-- The tiles of a core hold a saved stream's cells again (R333). -/
theorem State.loadCore_tiles (key : Nat) (gs : Tbl Nat) (hmrf : (s.coreOf (key / 2)).mrf.wf = true) {i : Nat}
    (hi : i < 4096 * (tileRange w.stream.tiles4 (key % 2 == 1)).2) :
    ((((s.writeArea w.stream.ctx w drain).loadCore (s.areaBase w.stream.ctx w.area) key w gs).coreOf (key / 2)).mrf).get
      (4096 * (tileRange w.stream.tiles4 (key % 2 == 1)).1 + i) = w.mrf.get i := by
  obtain ⟨-, -, -, -, -, -, -, -, -, -, -, -, -, hwf, -⟩ := id hfits
  have htiles : (tileRange w.stream.tiles4 (key % 2 == 1)).2 ≤ 8 := by
    cases w.stream.tiles4 <;> cases (key % 2 == 1) <;> decide
  have hrun := State.read_cells32 drain hhbm hfits halign hlo hhi (List.mem_of_getElem? (i := 15) rfl) hwf
    (n := 4096 * (tileRange w.stream.tiles4 (key % 2 == 1)).2) (by omega) (by decide)
  rw [State.loadCore_mrf, State.writeArea_mrf]
  dsimp only
  rw [show 16384 * (tileRange w.stream.tiles4 (key % 2 == 1)).2 = 4 * (4096 * (tileRange w.stream.tiles4 (key % 2 == 1)).2) by omega, hrun]
  exact Cells.get_puts_run (Cells.wf_zero _ _ hmrf) w.mrf.get hi

/-- The granules of a fully saved stream hold its bytes and bits again, each under its own number (R333). -/
theorem State.loadCore_grans (key : Nat) {gs : Tbl Nat} (hscratch : s.mem.Tidy) (hfull : w.full = true) (hgs : (gs.map (fun e => e.2)).Nodup)
    {e : Nat × Nat} (he : e ∈ gs) (hlow : e.1 < 16) {i : Nat} (hi : i < 65536) :
    let b := (s.writeArea w.stream.ctx w drain).loadCore (s.areaBase w.stream.ctx w.area) key w gs
    b.mem.spad.get (key / 2 * 2 ^ 20 + e.2 * 65536 + i) = w.grans.get (e.1 * 65536 + i) ∧
      b.mem.fe.get (key / 2 * 2 ^ 18 + e.2 * 16384 + i / 4) = w.fe.get (e.1 * 16384 + i / 4) := by
  obtain ⟨-, -, -, -, -, -, -, -, -, -, -, -, -, -, -, hgrans, -, hfe, -⟩ := id hfits
  let a := s.writeArea w.stream.ctx w drain
  let base := s.areaBase w.stream.ctx w.area
  obtain ⟨hspad, hbits⟩ := s.writeArea_scratch w.stream.ctx w drain
  have htidy : (a.loadTiles base key w).mem.Tidy := by
    rw [State.loadTiles_mem]
    exact ⟨hspad ▸ hscratch.1, hbits ▸ hscratch.2⟩
  have hload : a.loadCore base key w gs = gs.foldl (State.loadGran w.stream.ctx base (key / 2)) (a.loadTiles base key w) := by
    rw [State.loadCore_eq, hfull]
    rfl
  have hgran := State.gran_foldl_loadGran w.stream.ctx base (key / 2) hgs he htidy
  rw [← hload, State.loadTiles_homeBytes, Nat.add_assoc base, Nat.add_assoc base] at hgran
  obtain ⟨hbytes, hset⟩ := Prod.mk.inj hgran
  refine ⟨(congrFun hbytes ⟨i, hi⟩).trans ?_, (congrFun hset ⟨i / 4, by omega⟩).trans ?_⟩
  · rw [Nat.mul_comm e.1]
    exact State.read_bytes drain hhbm hfits halign hlo hhi hfull (List.mem_of_getElem? (i := 17) rfl) hgrans (by omega) (by decide) hi
  · have hbyte := State.read_bytes drain hhbm hfits halign hlo hhi hfull (List.mem_of_getElem? (i := 18) rfl) (wf_packBits w.fe)
      (k := 2048 * e.1) (n := 2048) (j := i / 4 / 8) (by omega) (by decide) (by omega)
    have hbit := getLsbD_packBits hfe (2048 * e.1 + i / 4 / 8) (Nat.mod_lt (i / 4) (by decide : 8 > 0))
    rw [show 8 * (2048 * e.1 + i / 4 / 8) + i / 4 % 8 = e.1 * 16384 + i / 4 by omega, ← hbyte] at hbit
    refine (if_congr (Bool.eq_iff_iff.mp hbit) rfl rfl).trans ?_
    generalize w.fe.get (e.1 * 16384 + i / 4) = v
    revert v
    decide

end

end Sys2Proof.Machine
end

section
/-! A stopped stream saved (R327, R330, R333): the record that its context keeps, the area that is written, and the core that it leaves. -/

namespace Sys2Proof.Machine

/-! A stream leaves its core (R234, R235). -/

/-- The scratchpads and their full/empty bits. -/
def State.scratch (s : State) : Memory × Cells 1 := (s.mem.spad, s.mem.fe)

theorem State.broadcast_scratch (s : State) (d : Nat) (key : Option Nat) (wr : Option (Nat × Nat)) (pa : Nat) (bytes : List Byte) (w : Option PWrite) :
    (s.broadcast d key wr pa bytes w).scratch = s.scratch := by
  refine (foldl_keeps State.scratch _ _ _ fun a t => ?_).trans rfl
  split <;> rfl

theorem State.feedReplicas_scratch (s : State) (key : Option Nat) (ctx : Nat) (buf : BitVec 24) (pa n : Nat) (w : Option PWrite) :
    (s.feedReplicas key ctx buf pa n w).scratch = s.scratch := by
  unfold State.feedReplicas
  dsimp only
  split
  · exact State.broadcast_scratch ..
  · rfl

theorem State.unpin_scratch (s : State) (core line : Nat) : (s.unpin core line).scratch = s.scratch := by
  unfold State.unpin
  dsimp only
  split
  · rfl
  · refine (foldl_keeps State.scratch _ _ _ fun a i => ?_).trans ?_
    · split
      · exact State.feedReplicas_scratch ..
      · rfl
    · unfold State.putCore
      split <;> rfl

theorem State.unpinIf_scratch (s : State) (core : Nat) (p : PinLine → Bool) : (s.unpinIf core p).scratch = s.scratch :=
  foldl_keeps State.scratch _ _ _ fun a e => a.unpin_scratch core e.1

theorem State.leaveCore_scratch (s : State) (key slot : Nat) : (s.leaveCore key slot).scratch = s.scratch := by
  rw [State.leaveCore]
  generalize s.stream (if key % 2 = 0 then key + 1 else key - 1) = other
  split_ifs
  · rfl
  · exact State.unpinIf_scratch ..

/-! The steps of a save (R327 step 5). -/

section
variable (s : State) (key area : Nat) (x : Stream)

/-- The fence of a save, and the pinned lines given up with a full one. -/
def State.drained : State :=
  let r := (s.relAll key 3).acq key 3
  if x.pre = 2 then r.leaveCore key x.slot else r

/-- The record of a saved stream. -/
def State.saveRecord : Saved :=
  let full := x.pre = 2
  { area := area
    stream := { x with flags := x.flags ||| (s.coreOf (key / 2)).done.get key, stopped := false, pre := 0, code := [], refused := 0, starved := false }
    full := full, core := key / 2, mrf := (s.savedPart key x).1, store := (s.savedPart key x).2
    grans := if full then s.granBytes (key / 2) x.lgran else [], fe := if full then s.granBits (key / 2) x.lgran else []
    ops := s.ops.filter (fun o => o.key == key && o.queued), treqs := s.treqs.filter (fun t => t.key == key && !t.detach)
    posts := s.savedPosts key x.slot }

/-- What moves with a saved stream has left its rank and its core; what stays goes to the holder key of the save. -/
def State.handedOver : State :=
  let c := s.coreOf (key / 2)
  let s := { s with ops := s.ops.filter (fun o => !(o.key == key && o.queued)), treqs := s.treqs.filter (fun t => t.key != key || t.detach) }
  let r := s.rank x.slot
  let s := s.putRank x.slot { r with rows := r.rows.map (fun (e : Nat × Row) =>
    (e.1, { e.2 with posted := e.2.posted.filter (fun p => !(p.key == key && p.window)) })) }
  let s := s.rekey x.slot key (savedKey x.ctx area)
  s.putCore (key / 2) { c with done := c.done.set key 0 }

/-- A context with one more saved stream. -/
def State.keepSaved (c : Nat) (v : Saved) : State := s.modCtx c (fun d => { d with saved := d.saved ++ [v] })

/-- A place of a core without its stream. -/
def State.vacate : State := if s.curLive && key == s.curKey then { s with curLive := false, cur := {} } else { s with streams := s.streams.del key }

end

theorem State.saveTo_eq (s : State) (key area : Nat) (x : Stream) :
    s.saveTo key area x =
      let u := s.drained key x
      let v := u.saveRecord key area x
      ((((u.handedOver key area x).keepSaved x.ctx v).writeArea x.ctx v x.atDrain).vacate key) := rfl

section
variable (s : State) (key area : Nat) (x : Stream)

theorem State.drained_posture : (s.drained key x).posture = s.posture := by
  have hfence := (State.acq_posture (s.relAll key 3) key 3).trans (s.relAll_posture key 3)
  unfold State.drained
  dsimp only
  split
  · exact (State.leaveCore_posture ..).trans hfence
  · exact hfence

theorem State.drained_scratch : (s.drained key x).scratch = ((s.relAll key 3).acq key 3).scratch := by
  unfold State.drained
  dsimp only
  split
  · exact State.leaveCore_scratch ..
  · rfl

theorem State.handedOver_posture : (s.handedOver key area x).posture = s.posture := by
  unfold State.handedOver
  refine (State.putCore_posture ?_).trans ?_ <;> rfl

theorem State.keepSaved_posture (c : Nat) (v : Saved) : (s.keepSaved c v).posture = s.posture := s.modCtx_posture c fun _ => rfl

theorem State.keepSaved_saved {c : Nat} (v : Saved) (hc : s.front.ctxs.has c = true) : v ∈ ((s.keepSaved c v).ctxAt c).saved := by
  rw [State.keepSaved, State.ctxAt_modCtx_same s c _ hc]
  exact List.mem_append_right _ List.mem_cons_self

theorem State.vacate_mem : (s.vacate key).mem = s.mem := by
  unfold State.vacate
  split <;> rfl

theorem State.vacate_ctxAt (c : Nat) : (s.vacate key).ctxAt c = s.ctxAt c := by
  unfold State.vacate
  split <;> rfl

/-- A place that a stream held alone is free after it has left. -/
theorem State.vacate_stream (h : s.curLive = true → key = s.curKey → s.streams.find key = none) : (s.vacate key).stream key = none := by
  unfold State.vacate State.stream
  cases hcur : s.curLive && key == s.curKey with
  | true =>
    simp only [Bool.and_eq_true, beq_iff_eq] at hcur
    simpa using h hcur.1 hcur.2
  | false => simp [hcur]

/-- A context with a free save area has a record. -/
theorem State.hasCtx_of_freeArea {c i : Nat} (h : (s.ctxAt c).freeArea = some i) : s.front.ctxs.has c = true := by
  by_contra hnone
  have hfind : s.front.ctxs.find c = none := by simpa [Tbl.has] using hnone
  rw [State.ctxAt, Tbl.at, hfind] at h
  cases (show none = some i from h)

/-- The state after a save, but for its core's place: the record is in the context, the area has been written under the context's keys, and the stream has
left. -/
theorem State.saveTo_spec {i : Nat} (ha : (s.ctxAt x.ctx).freeArea = some i)
    (halone : s.curLive = true → key = s.curKey → s.streams.find key = none) :
    let w := (s.drained key x).saveRecord key i x
    (s.saveTo key i x).stream key = none ∧ w ∈ ((s.saveTo key i x).ctxAt x.ctx).saved ∧
      ∃ v : State, (s.saveTo key i x).mem = (v.writeArea x.ctx w x.atDrain).mem ∧ v.areaBase x.ctx i = s.areaBase x.ctx i := by
  intro w
  let v := ((s.drained key x).handedOver key i x).keepSaved x.ctx w
  have hdrained := s.drained_posture key x
  have hover := ((s.drained key x).handedOver_posture key i x).trans hdrained
  have hv : v.posture = s.posture := (State.keepSaved_posture _ x.ctx w).trans hover
  have hsave : s.saveTo key i x = (v.writeArea x.ctx w x.atDrain).vacate key := s.saveTo_eq key i x
  have hseat : ((v.writeArea x.ctx w x.atDrain).curLive, (v.writeArea x.ctx w x.atDrain).curKey, (v.writeArea x.ctx w x.atDrain).streams) =
      (v.curLive, v.curKey, v.streams) := (congrArg (fun u : State => (u.curLive, u.curKey, u.streams)) (v.writeArea_offArea x.ctx w x.atDrain) :)
  simp only [Prod.mk.injEq] at hseat
  obtain ⟨hlive, hkey, hstreams⟩ := hseat
  have hctx : (v.writeArea x.ctx w x.atDrain).ctxAt x.ctx = v.ctxAt x.ctx :=
    (congrArg (fun u : State => u.ctxAt x.ctx) (v.writeArea_offArea x.ctx w x.atDrain) :)
  rw [hsave]
  refine ⟨State.vacate_stream _ key fun h hk => ?_, ?_, v, State.vacate_mem .., State.areaBase_of_posture hv x.ctx i⟩
  · rw [hlive, State.curLive_of_posture hv] at h
    rw [hkey, State.curKey_of_posture hv] at hk
    have hfind := State.streams_of_posture hv key
    rw [halone h hk] at hfind
    rw [hstreams]
    simpa using hfind
  · rw [State.vacate_ctxAt, hctx]
    exact State.keepSaved_saved _ w ((State.hasCtx_of_posture hover x.ctx).trans (State.hasCtx_of_freeArea s ha))

/-- The registers of a save are the stream's. -/
theorem State.saveRecord_fields :
    let w := s.saveRecord key area x
    w.area = area ∧ w.core = key / 2 ∧ w.full = decide (x.pre = 2) ∧ w.stream.pc = x.pc ∧ w.stream.s = x.s ∧ w.stream.p = x.p ∧ w.stream.l = x.l ∧
      w.stream.c = x.c ∧ w.stream.q = x.q ∧ w.stream.z = x.z ∧ w.stream.win = x.win ∧ w.stream.async = x.async ∧ w.stream.lgran = x.lgran ∧
      w.stream.recv = x.recv := by
  unfold State.saveRecord
  simp only [and_self]

/-- The cells of a save are the stream's tiles. -/
theorem State.saveRecord_mrf {i j : Nat} (hmrf : (s.coreOf (key / 2)).mrf.wf = true) (hj : j < 4096 * (tileRange x.tiles4 (key % 2 == 1)).2) :
    ((s.drained key x).saveRecord key i x).mrf.get j = (s.coreOf (key / 2)).mrf.get (4096 * (tileRange x.tiles4 (key % 2 == 1)).1 + j) := by
  have hcells : ((s.drained key x).coreOf (key / 2)).mrf = (s.coreOf (key / 2)).mrf := State.mrf_of_posture (s.drained_posture key x) _
  have hmove := Cells.get_moveCells hmrf (4096 * (tileRange x.tiles4 (key % 2 == 1)).1) 0 hj
  rw [Nat.zero_add, ← hcells] at hmove
  rw [← hcells]
  exact hmove

/-- The granules of a full save are the stream's, by its own numbers. -/
theorem State.saveRecord_grans {i j : Nat} (hfull : x.pre = 2) (hl : (x.lgran.map (fun e => e.1)).Pairwise (· < ·))
    (hspad : ((s.relAll key 3).acq key 3).mem.spad.wf = true) (hfe : ((s.relAll key 3).acq key 3).mem.fe.wf = true)
    {e : Nat × Nat} (he : e ∈ x.lgran) (hj : j < 65536) :
    ((s.drained key x).saveRecord key i x).grans.get (e.1 * 65536 + j) =
        ((s.relAll key 3).acq key 3).mem.spad.get (key / 2 * 2 ^ 20 + e.2 * 65536 + j) ∧
      ((s.drained key x).saveRecord key i x).fe.get (e.1 * 16384 + j / 4) =
        ((s.relAll key 3).acq key 3).mem.fe.get (key / 2 * 2 ^ 18 + e.2 * 16384 + j / 4) := by
  obtain ⟨hbytes, hbits⟩ := Prod.mk.inj (s.drained_scratch key x)
  constructor
  · have hblocks := Cells.get_blocks hl (fun e _ c hc => mem_moveCells hc) he hj
      (f := fun e => moveCells (s.drained key x).mem.spad (key / 2 * 2 ^ 20 + e.2 * 65536) 65536 (e.1 * 65536))
    have hgrans : ((s.drained key x).saveRecord key i x).grans = (s.drained key x).granBytes (key / 2) x.lgran := by
      rw [State.saveRecord]
      exact if_pos hfull
    rw [hgrans, ← hbytes]
    exact hblocks.trans (Cells.get_moveCells (hbytes ▸ hspad) _ _ hj)
  · have hblocks := Cells.get_blocks hl (fun e _ c hc => mem_moveCells hc) he (by omega : j / 4 < 16384)
      (f := fun e => moveCells (s.drained key x).mem.fe (key / 2 * 2 ^ 18 + e.2 * 16384) 16384 (e.1 * 16384))
    have hset : ((s.drained key x).saveRecord key i x).fe = (s.drained key x).granBits (key / 2) x.lgran := by
      rw [State.saveRecord]
      exact if_pos hfull
    rw [hset, ← hbits]
    exact hblocks.trans (Cells.get_moveCells (hbits ▸ hfe) _ _ (by omega))

end

end Sys2Proof.Machine
end

section
/-! A saved stream restored (R331, R335): what its place holds afterwards is what has been loaded. -/

namespace Sys2Proof.Machine

/-- A loaded stream with its granules, running. -/
def Stream.revive (x : Stream) (gs : Tbl Nat) (cycle : Nat) : Stream :=
  { x with lgran := gs, sliceAt := cycle, stopped := false, atDrain := false, mark := .none }

/-- What a stream still has in common with the loaded one that took its place, after traffic for it. -/
theorem Stream.fields_of_revive {x y : Stream} {gs : Tbl Nat} {cycle : Nat} (h : y.regs = (x.revive gs cycle).regs) :
    y.s = x.s ∧ y.p = x.p ∧ y.l = x.l ∧ y.c = x.c ∧ y.q = x.q ∧ y.z = x.z ∧ y.pc = x.pc ∧ y.fmode = x.fmode ∧ y.lc = x.lc ∧ y.ec = x.ec ∧
      y.rrb = x.rrb ∧ y.efr = x.efr ∧ y.tvec = x.tvec ∧ y.win = x.win ∧ y.lgran = gs ∧ y.stopped = false :=
  ⟨(congrArg Stream.s h :), (congrArg Stream.p h :), (congrArg Stream.l h :), (congrArg Stream.c h :), (congrArg Stream.q h :), (congrArg Stream.z h :),
    (congrArg Stream.pc h :), (congrArg Stream.fmode h :), (congrArg Stream.lc h :), (congrArg Stream.ec h :), (congrArg Stream.rrb h :),
    (congrArg Stream.efr h :), (congrArg Stream.tvec h :), (congrArg Stream.win h :), (congrArg Stream.lgran h :), (congrArg Stream.stopped h :)⟩

section
variable (s : State) (ctx base key : Nat) (v : Saved) (gs : Tbl Nat)

/-- The granules that a restored stream gets: those it kept, or free ones under the numbers of a full save (R331). -/
def State.restoreGrans : Tbl Nat := if v.full then (v.stream.lgran.map (fun e => e.1)).zip (s.freeGrans (key / 2)) else v.stream.lgran

/-- A core whose pinned lines have left the granules that are granted (R235). -/
def State.granted : State := if v.full then s.shrinkPins (key / 2) (gs.map (fun e => e.2)) else s

/-- The stream that takes its place again. -/
def State.revived : Stream := (s.loadStream base v.stream).revive gs (s.loadCore base key v gs).cycle.toNat

/-- The stream in its place, its core loaded, and its record taken from the context. -/
def State.reseated : State :=
  (((s.loadCore base key v gs).modCtx ctx (fun d => { d with saved := d.saved.filter (fun w => w.area != v.area) })).putStream key
    (s.revived base key v gs)).rekey (s.revived base key v gs).slot (savedKey ctx v.area) key

/-- The completions held back, the operations, the requests and the receives of a stream that is back (R330, R335 steps 3 to 6). -/
def State.resumed (x : Stream) : Option State :=
  let at' (t : TReq) : List (Nat × Nat) := match x.winPieces (key / 2) t.res t.kind.size .ewrite with | .ok ps => winKeys ps | .error _ => t.place
  let s := { s with treqs := mapIf (fun t => t.key == key) (fun t => { t with place := at' t }) s.treqs }
  let s := v.helds.foldl (fun (s : State) h => s.complete key h.1 h.2) s
  let again (o : Op) : Op := { o with key := key, core := key / 2, cut := false, started := false }
  let s := { s with ops := s.ops ++ v.ops.map again }
  let s := v.treqs.foldl (fun (s : State) t => s.reissue key x t) s
  (s.deliverAll key).repostAll key x.slot v.posts

end

theorem State.restore_eq (s : State) (ctx key : Nat) (v : Saved) :
    s.restore ctx key v =
      let base := s.areaBase ctx v.area
      let gs := s.restoreGrans key v
      let a := s.granted key v gs
      (a.reseated ctx base key v gs).resumed key v (a.revived base key v gs) := rfl

theorem State.resumed_posture {s t : State} {key : Nat} {v : Saved} {x : Stream} (h : s.resumed key v x = some t) : t.posture = s.posture := by
  unfold State.resumed at h
  refine (State.repostAll_posture h).trans ((State.deliverAll_posture ..).trans ?_)
  refine (foldl_keeps State.posture _ _ _ fun a q => a.setOut_posture _).trans ?_
  exact (foldl_keeps State.posture (fun (a : State) (e : Nat × List Byte) => a.complete key e.1 e.2) _ _ fun a e => a.complete_posture key e.1 e.2).trans rfl

/-- The place holds the stream that was loaded, and its core the cells. -/
theorem State.reseated_seat (s : State) (ctx base key : Nat) (v : Saved) (gs : Tbl Nat) :
    (s.reseated ctx base key v gs).stream key = some (s.revived base key v gs) ∧
      (s.reseated ctx base key v gs).coreOf (key / 2) = (s.loadCore base key v gs).coreOf (key / 2) := by
  let b := s.loadCore base key v gs
  let c := b.modCtx ctx (fun d => { d with saved := d.saved.filter (fun w => w.area != v.area) })
  have hcore : c.coreOf = b.coreOf := (congrArg State.coreOf (b.modCtx_offCtxs ctx _) :)
  refine ⟨c.stream_putStream_same key _, ?_⟩
  rw [← hcore]
  exact (congrArg (fun u : State => u.coreOf (key / 2)) (c.putStream_offStreams key (s.revived base key v gs)) :)

/-- What a restored stream's place and core hold at the end. -/
theorem State.restore_seat {s t : State} {ctx key : Nat} {v : Saved} (h : s.restore ctx key v = some t) :
    let base := s.areaBase ctx v.area
    let gs := s.restoreGrans key v
    let a := s.granted key v gs
    ∃ y, t.stream key = some y ∧ y.regs = (a.revived base key v gs).regs ∧
      (t.coreOf (key / 2)).mrf = ((a.loadCore base key v gs).coreOf (key / 2)).mrf := by
  intro base gs a
  obtain ⟨hstream, hcore⟩ := a.reseated_seat ctx base key v gs
  have hposture : t.posture = (a.reseated ctx base key v gs).posture := State.resumed_posture (s.restore_eq ctx key v ▸ h)
  have hregs := State.stream_of_posture hposture key
  rw [hstream, Option.map_some] at hregs
  obtain ⟨y, hy, hyregs⟩ := Option.map_eq_some_iff.mp hregs
  exact ⟨y, hy, hyregs, (State.mrf_of_posture hposture _).trans (congrArg Core.mrf hcore)⟩

/-- What a restored stream holds at the end is what was loaded from its area (R335). -/
theorem State.restore_loads {s t : State} {ctx key : Nat} {w : Saved} (h : s.restore ctx key w = some t) :
    let base := s.areaBase ctx w.area
    let gs := s.restoreGrans key w
    let a := s.granted key w gs
    let z := a.loadStream base w.stream
    ∃ y, t.stream key = some y ∧ y.s = z.s ∧ y.p = z.p ∧ y.l = z.l ∧ y.c = z.c ∧ y.q = z.q ∧ y.z = z.z ∧ y.pc = z.pc ∧ y.fmode = z.fmode ∧
      y.lc = z.lc ∧ y.ec = z.ec ∧ y.rrb = z.rrb ∧ y.efr = z.efr ∧ y.tvec = z.tvec ∧ y.win = z.win ∧ y.lgran = gs ∧ y.stopped = false ∧
      (t.coreOf (key / 2)).mrf = ((a.loadCore base key w gs).coreOf (key / 2)).mrf := by
  intro base gs a z
  obtain ⟨y, hy, hregs, hmrf⟩ := State.restore_seat h
  obtain ⟨hs, hp, hl, hc, hq, hz, hpc, hfmode, hlc, hec, hrrb, hefr, htvec, hwin, hlgran, hstopped⟩ := Stream.fields_of_revive hregs
  exact ⟨y, hy, hs, hp, hl, hc, hq, hz, hpc, hfmode, hlc, hec, hrrb, hefr, htvec, hwin, hlgran, hstopped, hmrf⟩

end Sys2Proof.Machine
end

section
/-! Requests, stops and the time limits of pre-emption (R116, R325-R331, R335), and asynchronous traps (R321-R323): when each acts and what it does. -/

namespace Sys2Proof.Machine

/-! Requests (R325, R326, R331). -/

/-- What a request makes of its stream. -/
def Stream.asked (x : Stream) (cycle : Nat) (full : Bool) : Stream :=
  { x with pre := if full = true ∨ x.pre = 2 then 2 else if 2 < x.pre then x.pre else 1, preSince := if x.pre = 0 then cycle else x.preSince }

theorem State.ask_eq {s : State} {key : Nat} {x : Stream} (hx : s.stream key = some x) (full : Bool) :
    s.ask key full = s.putStream key (x.asked s.cycle.toNat full) := by
  have hpre : (if full then 2 else max x.pre 1) = if full = true ∨ x.pre = 2 then 2 else if 2 < x.pre then x.pre else 1 := by
    cases full with
    | true => simp
    | false =>
      simp only [Bool.false_eq_true, if_false, false_or]
      split_ifs <;> omega
  rw [State.ask, State.modStream, hx]
  dsimp only
  rw [hpre, Stream.asked]

theorem exec_preemptionRequest_saved {s : State} {key : Nat} {w : Saved} (hw : s.savedOf key = some w) (full : Bool) :
    exec (.preemptionRequest key full) s = .next (if full then s.makeFull ((key - 1024) / 65536) w else s) := by
  change execPreemptionRequest key full s = _
  rw [execPreemptionRequest, hw]

theorem State.makeFull_full (s : State) (ctx : Nat) {w : Saved} (hw : w.full = true) : s.makeFull ctx w = s := by
  rw [State.makeFull, if_pos hw]

theorem exec_preemptionRequest_absent {s : State} {key : Nat} (hsaved : s.savedOf key = none) (hx : s.stream key = none) (full : Bool) :
    exec (.preemptionRequest key full) s = .next s := by
  change execPreemptionRequest key full s = _
  rw [execPreemptionRequest, hsaved, hx]

theorem exec_preemptionRequest_live {s : State} {key : Nat} {x : Stream} (hsaved : s.savedOf key = none) (hx : s.stream key = some x) (full : Bool) :
    exec (.preemptionRequest key full) s =
      .next (if x.pre = 0 ∧ (s.ctxAt x.ctx).freeArea = none then s.respond s.mgmt.lastSeq 4 else s.putStream key (x.asked s.cycle.toNat full)) := by
  change execPreemptionRequest key full s = _
  rw [execPreemptionRequest, hsaved, hx, ← State.ask_eq hx]
  dsimp only
  simp only [Bool.and_eq_true, decide_eq_true_eq, Option.isNone_iff_eq_none]

/-! Stops (R116, R289, R322, R327, R329). -/

theorem State.curKey_focus (s : State) (key : Nat) : (s.focus key).curKey = key := by
  unfold State.focus
  split
  next h =>
    simp only [Bool.and_eq_true, beq_iff_eq] at h
    exact h.2.symm
  next => rfl

theorem State.mayStop_iff (s : State) :
    s.mayStop = true ↔ s.curLive = true ∧ s.cur.pre ≠ 0 ∧ s.cur.stopped = false ∧ s.cur.ending = 0 ∧ s.cur.hold = none := by
  simp only [State.mayStop, Bool.and_eq_true, bne_iff_ne, Bool.not_eq_true', beq_iff_eq, Option.isNone_iff_eq_none, and_assoc]

theorem State.headerD_iff (s : State) :
    s.headerD = true ↔ ∃ w rest, s.fetchWord s.cur.pc.toNat = .word w rest ∧ isHeader w = true ∧ w.getLsbD 26 = true := by
  unfold State.headerD
  split
  next w rest hfetch =>
    simp only [Bool.and_eq_true]
    constructor
    · exact fun h => ⟨w, rest, hfetch, h⟩
    · rintro ⟨w', rest', heq, h⟩
      cases hfetch.symm.trans heq
      exact h
  next hfetch =>
    simp only [Bool.false_eq_true, false_iff]
    rintro ⟨w, rest, heq, -⟩
    exact hfetch w rest heq

/-- What R116 lists. -/
theorem State.atDrainPoint_iff (s : State) :
    s.atDrainPoint = true ↔ s.cur.land = [] ∧ s.cur.pend = [] ∧ s.cur.hold = none ∧ s.cur.winAgent ≠ 1 ∧ s.cur.winAgent ≠ 2 ∧
      (∀ c ∈ s.core.calls, c.key ≠ s.curKey) ∧ (∀ o ∈ s.ops, o.key = s.curKey → o.awaited = false) ∧
      (∀ q ∈ s.treqs, q.key = s.curKey → q.parked = true) ∧
      ∃ w rest, s.fetchWord s.cur.pc.toNat = .word w rest ∧ isHeader w = true ∧ w.getLsbD 26 = true := by
  rw [← State.headerD_iff]
  simp only [State.atDrainPoint, Op.drains, Bool.and_eq_true, List.isEmpty_iff, Option.isNone_iff_eq_none, bne_iff_ne, Bool.not_eq_true',
    List.any_eq_false, beq_iff_eq, not_and, Bool.not_eq_true, Bool.not_eq_false, and_assoc]

section
variable {key : Nat} {s : State}

theorem exec_preemptionStop_stays (h : (s.focus key).mayStop = true → (s.focus key).atDrainPoint = false ∧ (s.focus key).cur.compat = false) :
    exec (.preemptionStop key) s = .next (s.focus key) := by
  change execPreemptionStop key s = _
  unfold execPreemptionStop
  dsimp only
  split
  · rfl
  next hmay =>
    obtain ⟨hdrain, hcompat⟩ := h (by simpa using hmay)
    rw [hdrain, hcompat, Bool.or_false, if_neg Bool.false_ne_true]

theorem exec_preemptionStop_stops (h : (s.focus key).mayStop = true) (hwhere : (s.focus key).atDrainPoint = true ∨ (s.focus key).cur.compat = true) :
    exec (.preemptionStop key) s = .next ((s.focus key).stopCur (s.focus key).atDrainPoint) := by
  change execPreemptionStop key s = _
  unfold execPreemptionStop
  dsimp only
  rw [h, Bool.not_true, if_neg Bool.false_ne_true, if_pos (by rwa [Bool.or_eq_true])]

theorem exec_dpbExpiry_stays (h : (s.focus key).mayStop = true →
    (s.focus key).cur.compat = true ∨ (s.focus key).cycle.toNat ≤ (s.focus key).cur.preSince + (s.focus key).cur.dpb.toNat) :
    exec (.dpbExpiry key) s = .next (s.focus key) := by
  refine congrArg Host.Outcome.next (if_neg fun hall => ?_)
  simp only [Bool.and_eq_true, Bool.not_eq_true', decide_eq_true_eq] at hall
  obtain ⟨⟨hmay, hnative⟩, hlate⟩ := hall
  rcases h hmay with hcompat | hearly
  · rw [hnative] at hcompat
    cases hcompat
  · omega

theorem exec_dpbExpiry_stops (h : (s.focus key).mayStop = true) (hnative : (s.focus key).cur.compat = false)
    (hlate : (s.focus key).cur.preSince + (s.focus key).cur.dpb.toNat < (s.focus key).cycle.toNat) :
    exec (.dpbExpiry key) s = .next ((s.focus key).stopCur (s.focus key).atDrainPoint) :=
  congrArg Host.Outcome.next (if_pos (by simp only [h, hnative, Bool.not_false, Bool.and_true, Bool.true_and, decide_eq_true_eq]; exact hlate))

end

/-- A stop: the results have landed, the stream stands, its requests are withdrawn, and in compatibility mode what has not started is cut. -/
theorem State.stopCur_spec (s : State) (d : Bool) :
    let v := s.landAll
    let t := s.stopCur d
    t.cur = { v.cur with
        stopped := true, atDrain := d, stopAt := v.cycle.toNat, bundle := none, waitCyc := 0, fixed := 0, flushing := false, mark := .none } ∧
      t.treqs = v.treqs.map (fun q => if q.key == s.curKey && q.kind != .dep && !q.detach then { q with withdraw := true } else q) ∧
      t.ops = v.ops.map (fun o => if v.cur.compat && o.key == s.curKey && o.queued && !o.started then { o with cut := true } else o) ∧
      t.mem = v.mem ∧ t.front = v.front ∧ t.core = v.core ∧ t.outs = v.outs := by
  refine ⟨rfl, rfl, ?_, rfl, rfl, rfl, rfl⟩
  have hops : (s.stopCur d).ops = if s.landAll.cur.compat then
      mapIf (fun o => o.key == s.curKey && o.queued && !o.started) (fun o => { o with cut := true }) s.landAll.ops else s.landAll.ops := rfl
  rw [hops]
  cases s.landAll.cur.compat with
  | true => simp only [Bool.true_and, if_true]; rfl
  | false => simp

/-! DRAINLIM (R328, R329). -/

/-- An operation that still runs. -/
def Op.running (key : Nat) (o : Op) : Bool := o.key == key && o.queued && o.status.isNone && !o.cut

/-- The running operations of a stream cut. -/
def State.cutOps (s : State) (key : Nat) (compat : Bool) : State :=
  { s with ops := s.ops.map (fun o => if o.running key then { o with cut := true, status := if compat then some 8 else o.status } else o) }

theorem State.cutOps_eq (s : State) (key : Nat) (compat : Bool) :
    ({ s with ops := mapIf (Op.running key) (fun o => if compat then { o with cut := true, status := some 8 } else { o with cut := true }) s.ops } : State) =
      s.cutOps key compat := by
  unfold State.cutOps mapIf
  cases compat <;> rfl

/-- What a save waits for (R207, R230, R300, R327, R328). -/
theorem State.saveReady_iff (s : State) (key : Nat) (x : Stream) : s.saveReady key x = true ↔
    x.stopped = true ∧ x.land = [] ∧ x.pend = [] ∧ x.winAgent ≠ 1 ∧ x.winAgent ≠ 2 ∧ (∀ c ∈ (s.coreOf (key / 2)).calls, c.key ≠ key) ∧
      (∀ o ∈ s.ops, o.key = key → o.settled = true) ∧ ∀ q ∈ s.treqs, q.key = key → q.state = 4 ∨ (q.detach = true ∧ q.parked = true) := by
  simp only [State.saveReady, Bool.and_eq_true, List.isEmpty_iff, bne_iff_ne, Bool.not_eq_true', List.any_eq_false, List.all_eq_true, Bool.or_eq_true,
    beq_iff_eq, and_assoc, ne_eq, or_assoc]
  simp only [← imp_iff_not_or]

section
variable {s : State} {key : Nat}

theorem exec_drainlimExpiry_absent (hx : s.stream key = none) : exec (.drainlimExpiry key) s = .next s := by
  change execDrainlimExpiry key s = _
  rw [execDrainlimExpiry, hx]

theorem exec_contextSave_absent (hx : s.stream key = none) : exec (.contextSave key) s = .next s := by
  change execContextSave key s = _
  rw [execContextSave, hx]

variable {x : Stream} (hx : s.stream key = some x)
include hx

theorem exec_drainlimExpiry : exec (.drainlimExpiry key) s = .next
    (if x.stopped = true ∧ x.atDrain = false ∧ x.stopAt + (s.ctxAt x.ctx).drainlim.toNat ≤ s.cycle.toNat then
       if x.compat && !(s.ops.filter (Op.running key)).isEmpty then
         (s.cutOps key x.compat).asyncTrap key ((s.cutOps key x.compat).drainBound (s.ops.filter (Op.running key)))
       else s.cutOps key x.compat
     else s) := by
  have hdue : (!x.stopped || x.atDrain || decide (s.cycle.toNat < x.stopAt + (s.ctxAt x.ctx).drainlim.toNat)) = true ↔
      ¬(x.stopped = true ∧ x.atDrain = false ∧ x.stopAt + (s.ctxAt x.ctx).drainlim.toNat ≤ s.cycle.toNat) := by
    simp only [Bool.or_eq_true, Bool.not_eq_true', decide_eq_true_eq]
    rw [← Nat.not_le]
    cases x.stopped <;> cases x.atDrain <;> simp
  change execDrainlimExpiry key s = _
  rw [execDrainlimExpiry, hx]
  dsimp only
  rw [if_congr hdue rfl rfl, ite_not, ← State.cutOps_eq]
  rfl

/-! Saves (R327, R330). -/

theorem exec_contextSave_full (ha : (s.ctxAt x.ctx).freeArea = none) : exec (.contextSave key) s = .next s := by
  change execContextSave key s = _
  simp only [execContextSave, hx, ha]

theorem exec_contextSave {a : Nat} (ha : (s.ctxAt x.ctx).freeArea = some a) :
    exec (.contextSave key) s = .next (if s.saveReady key x then s.saveTo key a x else s) := by
  change execContextSave key s = _
  simp only [execContextSave, hx, ha]

end

/-! Restores (R335). -/

theorem headerOk_iff (h : List Word64) : headerOk h = true ↔
    wbits h 0 63 32 = 0x56415344 ∧ wbits h 0 31 16 = 1 ∧ wbits h 0 15 0 = 64 ∧ wbits h 1 63 48 = 64 ∧ wbits h 1 47 32 = 64 ∧
      wbits h 1 20 0 = 0 ∧ wbits h 2 63 32 ≤ Config.csasize ∧ wbits h 2 31 9 = 0 ∧ ∀ k, 3 ≤ k → k < 8 → wordAt h k = 0 := by
  simp only [headerOk, fld_eq_wbits, Bool.and_eq_true, beq_iff_eq, decide_eq_true_eq, List.all_eq_true, mem_upto, and_assoc, and_imp]
  tauto

theorem exec_contextRestore_absent {s : State} {ctx area : Nat} (key : Nat) (h : ∀ w ∈ (s.ctxAt ctx).saved, w.area ≠ area) :
    exec (.contextRestore ctx area key) s = .next s := by
  have hfind : (s.ctxAt ctx).saved.find? (fun v => v.area == area) = none := List.find?_eq_none.mpr fun w hw => by simpa using h w hw
  change execContextRestore ctx area key s = _
  rw [execContextRestore, hfind]

theorem exec_contextRestore {s : State} {ctx area : Nat} (key : Nat) {w : Saved}
    (hw : (s.ctxAt ctx).saved.find? (fun w => w.area == area) = some w) : exec (.contextRestore ctx area key) s = .next
    (if s.savedSeat w (key / 2) = some key ∧ (s.ctxAt ctx).weight w.stream.queue ≠ 0 ∧ s.winner ctx w.stream.queue = true then
       if headerOk (words64 (s.homeBytes ctx 0 (s.areaBase ctx area) 64)) then (s.rebase.restore ctx key w).getD s else s.refuseRestore ctx key w
     else s) := by
  have hmay : (s.savedSeat w (key / 2) ≠ some key || (s.ctxAt ctx).weight w.stream.queue = 0 || !s.winner ctx w.stream.queue) = true ↔
      ¬(s.savedSeat w (key / 2) = some key ∧ (s.ctxAt ctx).weight w.stream.queue ≠ 0 ∧ s.winner ctx w.stream.queue = true) := by
    simp only [Bool.or_eq_true, decide_eq_true_eq, Bool.not_eq_true', ← Bool.not_eq_true]
    tauto
  change execContextRestore ctx area key s = _
  rw [execContextRestore, hw]
  dsimp only
  rw [if_congr hmay rfl rfl, ite_not]
  simp only [Bool.not_eq_true', ite_not, ← Bool.not_eq_true]

/-! Asynchronous traps (R321-R323). -/

theorem State.takesAsync_iff {s : State} {f : TrapRec} {r : List TrapRec} (h : s.cur.async = f :: r) : s.takesAsync = true ↔
    s.curLive = true ∧ s.cur.handler = false ∧ s.cur.hold = none ∧ s.cur.halted = false ∧ s.cur.stopped = false ∧ s.cur.ending = 0 := by
  simp only [State.takesAsync, h, List.isEmpty_cons, Bool.not_false, Bool.and_true, Bool.and_eq_true, Bool.not_eq_true', Option.isNone_iff_eq_none,
    beq_iff_eq, and_assoc]

theorem exec_asyncTrapDelivery_none {key : Nat} {s : State} (h : (s.focus key).cur.async = []) : exec (.asyncTrapDelivery key) s = .next (s.focus key) := by
  change execAsyncTrapDelivery key s = _
  rw [execAsyncTrapDelivery, h]

theorem exec_asyncTrapDelivery {key : Nat} {s : State} {f : TrapRec} {r : List TrapRec} (h : (s.focus key).cur.async = f :: r) :
    exec (.asyncTrapDelivery key) s = .next
      (if (s.focus key).takesAsync then ({ s.focus key with cur := { (s.focus key).cur with async := r } }).enterTrap f (s.focus key).cur.pc
       else s.focus key) := by
  change execAsyncTrapDelivery key s = _
  rw [execAsyncTrapDelivery, h]

end Sys2Proof.Machine
end

section
/-! Pre-emption settled (R110, R116, R321-R335). -/

namespace Sys2Proof.Machine

theorem tileRange_eq (x : Stream) (key : Nat) :
    tileRange x.tiles4 (key % 2 == 1) = if x.tiles4 then (if key % 2 = 1 then (4, 4) else (0, 4)) else (0, 8) := by
  simp only [tileRange, beq_iff_eq]

/-- Settles O59: each clause by what its operation does; for a save and a restore, the sections of the area lie apart and are read back under the keys that
wrote them, and nothing that accompanies the save or the restore reaches a stream's registers or a core's cells. -/
theorem preemption : Obligations.Preemption := by
  unfold Obligations.Preemption
  intro s key ctx area full stays u v stop tiles ready
  have hkey : u.curKey = key := s.curKey_focus key
  have hmay : u.mayStop = true ↔ ready := u.mayStop_iff
  have hstop (d : Bool) : stop d (u.stopCur d) := u.stopCur_spec d
  have htiles (x : Stream) : tileRange x.tiles4 (key % 2 == 1) = tiles x := tileRange_eq x key
  refine ⟨?_, ?_, ?_, ?_, ?_, ?_, ?_, ?_, ?_, ?_, ?_, ?_, ?_, ?_, ?_, ?_, ?_⟩
  · rw [← hkey]
    exact u.atDrainPoint_iff
  · intro w hw hcase
    refine (exec_preemptionRequest_saved hw full).trans (congrArg _ ?_)
    rcases hcase with rfl | hfull
    · rfl
    · rw [State.makeFull_full _ _ hfull, ite_self]
  · exact fun w hw _ => exec_preemptionRequest_saved hw true
  · exact fun hsaved hx => exec_preemptionRequest_absent hsaved hx full
  · intro x hsaved hx noArea
    have hexec := exec_preemptionRequest_live hsaved hx full
    exact ⟨fun h => by rw [hexec, if_pos h], fun h => by rw [hexec, if_neg h, Stream.asked]⟩
  · intro hnot
    have hno : u.mayStop = true → False := fun h => hnot (hmay.mp h)
    exact ⟨exec_preemptionStop_stays fun h => (hno h).elim, exec_dpbExpiry_stays fun h => (hno h).elim⟩
  · exact fun _ hdrain hnative => exec_preemptionStop_stays fun _ => ⟨hdrain, hnative⟩
  · exact fun hready hwhere => ⟨_, exec_preemptionStop_stops (hmay.mpr hready) hwhere, hstop _⟩
  · exact fun _ hearly => exec_dpbExpiry_stays fun _ => hearly
  · exact fun hready hnative hlate => ⟨_, exec_dpbExpiry_stops (hmay.mpr hready) hnative hlate, hstop _⟩
  · exact fun hx => ⟨exec_drainlimExpiry_absent hx, exec_contextSave_absent hx⟩
  · intro x hx due run cutAll
    refine ⟨?_, ?_, ?_, ?_⟩
    · exact fun hnot => (exec_drainlimExpiry hx).trans (congrArg _ (if_neg hnot))
    · intro hdue hcase
      refine (exec_drainlimExpiry hx).trans (congrArg _ ((if_pos hdue).trans (if_neg fun hall => ?_)))
      simp only [Bool.and_eq_true, Bool.not_eq_true', List.isEmpty_eq_false_iff_exists_mem, List.mem_filter] at hall
      obtain ⟨hcompat, o, ho, hrun⟩ := hall
      rcases hcase with hnative | hnone
      · rw [hnative] at hcompat
        cases hcompat
      · exact Bool.false_ne_true ((hnone o ho).symm.trans hrun)
    · intro o rest hdue hcompat hcut
      have hcut' : s.ops.filter (Op.running key) = o :: rest := hcut
      refine ⟨((s.cutOps key x.compat).drainBound (o :: rest)).addr, fun va hva => ?_, ?_⟩
      · simp only [State.drainBound, List.head?_cons, Option.bind_some, hva]
      · refine (exec_drainlimExpiry hx).trans (congrArg _ ((if_pos hdue).trans ((if_pos ?_).trans ?_)))
        · rw [hcut', hcompat]
          rfl
        · rw [hcut']
          rfl
    · intro a settled
      have hready : s.saveReady key x = true ↔ settled := s.saveReady_iff key x
      refine ⟨fun hnot => ?_, fun i ha hsettled halone => ?_⟩
      · cases ha : (s.ctxAt x.ctx).freeArea with
        | none => exact exec_contextSave_full hx ha
        | some i =>
          refine (exec_contextSave hx ha).trans (congrArg _ (if_neg fun hsave => ?_))
          rcases hnot with hfull | hnot
          · cases hfull.symm.trans ha
          · exact hnot (hready.mp hsave)
      · obtain ⟨hgone, hkept, hwritten⟩ := s.saveTo_spec key x ha halone
        obtain ⟨harea, hcore, hfull, hpc, hs, hp, hl, hc, hq, hz, hwin, hasync, hlgran, hrecv⟩ := (s.drained key x).saveRecord_fields key i x
        refine ⟨s.saveTo key i x, (exec_contextSave hx ha).trans (congrArg _ (if_pos (hready.mpr hsettled))), hgone, _, hkept, harea, hcore, hfull, hpc, hs,
          hp, hl, hc, hq, hz, hwin, hasync, hlgran, hrecv, ?_, ?_, hwritten⟩
        · intro hmrf j hj
          rw [← htiles] at hj ⊢
          exact s.saveRecord_mrf key x hmrf hj
        · exact fun hpre hnames hspad hfe e he j hj => s.saveRecord_grans key x hpre hnames hspad hfe he hj
  · intro w drain gs base size z a y b hcanon hfits hctx halign hlo hhi
    subst hctx
    obtain ⟨hhbm, hspad, hfe, -⟩ := hcanon
    obtain ⟨hs, hp, hl, hc, hq, hz, hpc, hnpc, hhandler, hhalted, hwin⟩ := State.loadStream_reloads drain hhbm hfits halign hlo hhi
    obtain ⟨hfmode, hflags, hlc, hec, hrrb, hefr, hfewaitlim, hlatcnt, htvec, htrappc, htrapcause, htrapaddr⟩ :=
      State.loadStream_sys drain hhbm hfits halign hlo hhi
    refine ⟨hs, hp, hl, hc, hq, hz, hpc, hnpc, hhandler, hhalted, hfmode, hflags, hlc, hec, hrrb, hefr, hfewaitlim, hlatcnt, htvec, htrappc, htrapcause,
      htrapaddr, hwin, ?_, ?_⟩
    · intro hmrf i hi
      rw [← htiles] at hi ⊢
      exact State.loadCore_tiles drain hhbm hfits halign hlo hhi key gs hmrf hi
    · intro hfull hnames hlow e he i hi
      exact State.loadCore_grans drain hhbm hfits halign hlo hhi key ⟨hspad, hfe⟩ hfull hnames he (hlow e he).1 hi
  · exact fun w t ht => State.restore_loads ht
  · exact fun habsent => exec_contextRestore_absent key habsent
  · intro w hw may h good
    have hgood : headerOk h = true ↔ good := headerOk_iff h
    have hexec := exec_contextRestore key hw
    refine ⟨fun hnot => ?_, fun hmay hbad => ?_, fun hmay hok hnone => ?_, fun t hmay hok hsome => ?_⟩
    · exact hexec.trans (congrArg _ (if_neg hnot))
    · exact hexec.trans (congrArg _ ((if_pos hmay).trans (if_neg (hgood.not.mpr hbad))))
    · exact hexec.trans (congrArg _ ((if_pos hmay).trans ((if_pos (hgood.mpr hok)).trans (by rw [hnone]; rfl))))
    · exact hexec.trans (congrArg _ ((if_pos hmay).trans ((if_pos (hgood.mpr hok)).trans (by rw [hsome]; rfl))))
  · refine ⟨fun hnot => ?_, fun f r htakes hasync => ?_⟩
    · cases hasync : u.cur.async with
      | nil => exact exec_asyncTrapDelivery_none hasync
      | cons f r =>
        refine (exec_asyncTrapDelivery hasync).trans (congrArg _ (if_neg fun htakes => ?_))
        rcases hnot with hnone | hnot
        · rw [hasync] at hnone
          cases hnone
        · exact hnot ((State.takesAsync_iff hasync).mp htakes)
    · exact (exec_asyncTrapDelivery hasync).trans (congrArg _ (if_pos ((State.takesAsync_iff hasync).mpr htakes)))

end Sys2Proof.Machine
end

section
/-! Exact arithmetic and what a format holds as it is (R117, R127, R129): finite exact values as rational numbers, and the statement
`Obligations.NarrowingIsExact`. -/

namespace Sys2Proof.Machine

/-! Finite exact values as rational numbers. -/

theorem exRat_fin (s : Bool) (n d : Nat) (e : Int) : exRat (.fin s n d e) = (if s then -1 else 1) * ((n : ℚ) / d) * (2 : ℚ) ^ e := rfl

@[simp] theorem exRat_zero (s : Bool) : exRat (.zero s) = 0 := by
  simp [Ex.zero, exRat_fin]

theorem exRat_neg (x : Ex) : exRat x.neg = -exRat x := by
  cases x with
  | nan b => simp [Ex.neg, exRat]
  | inf s => simp [Ex.neg, exRat]
  | fin s n d e => cases s <;> simp [Ex.neg, exRat_fin]

/-- A finite value over a lesser exponent and a multiple of its denominator. -/
theorem exRat_rescale (s : Bool) (n : Nat) {d c : Nat} (hc : c ≠ 0) {e lo : Int} (hlo : lo ≤ e) :
    exRat (.fin s (n * c * 2 ^ (e - lo).toNat) (d * c) lo) = exRat (.fin s n d e) := by
  have hpow : (2 : ℚ) ^ e = 2 ^ (e - lo).toNat * 2 ^ lo := by
    rw [← zpow_natCast, ← zpow_add₀ two_ne_zero]
    congr 1
    omega
  have hc' : (c : ℚ) ≠ 0 := Nat.cast_ne_zero.mpr hc
  simp only [exRat_fin, hpow, Nat.cast_mul, Nat.cast_pow, Nat.cast_ofNat]
  rw [mul_right_comm (n : ℚ), mul_div_mul_right _ _ hc']
  ring

/-- Two finite values over one denominator and one exponent. -/
theorem exRat_sum (s : Bool) (a b d : Nat) (e : Int) : exRat (.fin s (a + b) d e) = exRat (.fin s a d e) + exRat (.fin s b d e) := by
  simp only [exRat_fin, Nat.cast_add]
  ring

theorem exRat_flip (s : Bool) (a d : Nat) (e : Int) : exRat (.fin (!s) a d e) = -exRat (.fin s a d e) := exRat_neg (.fin s a d e)

theorem exRat_difference (s : Bool) {a b : Nat} (h : b ≤ a) (d : Nat) (e : Int) :
    exRat (.fin s (a - b) d e) = exRat (.fin s a d e) - exRat (.fin s b d e) := by
  rw [eq_sub_iff_add_eq, ← exRat_sum, Nat.sub_add_cancel h]

/-! The exact operations (R127): a finite result of no flag that stands for a rational number. -/

/-- A result is finite, stands for a rational number, and sets no flag. -/
def ExactlyIs (r : Ex × Flags) (q : ℚ) : Prop := r.1.isFin = true ∧ exRat r.1 = q ∧ r.2 = 0

section
variable (m : RMode) (s t : Bool) (n k : Nat) {d c : Nat} (e f : Int)

theorem exAdd_exact (hd : d ≠ 0) (hc : c ≠ 0) : ExactlyIs (exAdd m (.fin s n d e) (.fin t k c f)) (exRat (.fin s n d e) + exRat (.fin t k c f)) := by
  obtain ⟨lo, hlo⟩ : ∃ lo, lo = min e f := ⟨_, rfl⟩
  obtain ⟨a, ha⟩ : ∃ a, a = n * c * 2 ^ (e - lo).toNat := ⟨_, rfl⟩
  obtain ⟨b, hb⟩ : ∃ b, b = k * d * 2 ^ (f - lo).toNat := ⟨_, rfl⟩
  have hx : exRat (.fin s n d e) = exRat (.fin s a (d * c) lo) := by
    rw [ha, exRat_rescale s n hc (hlo ▸ min_le_left e f)]
  have hy : exRat (.fin t k c f) = exRat (.fin t b (d * c) lo) := by
    rw [hb, Nat.mul_comm d c, exRat_rescale t k hd (hlo ▸ min_le_right e f)]
  have hsum : exAdd m (.fin s n d e) (.fin t k c f) = if s == t then (.fin s (a + b) (d * c) lo, 0) else if a = b then (.zero (m == .rd), 0)
      else if b < a then (.fin s (a - b) (d * c) lo, 0) else (.fin t (b - a) (d * c) lo, 0) := by
    subst ha hb hlo
    rfl
  rw [hsum, hx, hy]
  by_cases hst : s = t
  · subst hst
    rw [if_pos (beq_self_eq_true s)]
    exact ⟨rfl, exRat_sum s a b _ lo, rfl⟩
  · obtain rfl : t = !s := Bool.eq_not_of_ne (Ne.symm hst)
    rw [if_neg (by simp), exRat_flip, ← sub_eq_add_neg]
    rcases lt_trichotomy a b with hab | hab | hab
    · rw [if_neg hab.ne, if_neg hab.le.not_gt]
      exact ⟨rfl, by rw [exRat_flip, exRat_difference s hab.le, neg_sub], rfl⟩
    · rw [if_pos hab, hab, sub_self]
      exact ⟨rfl, exRat_zero _, rfl⟩
    · rw [if_neg hab.ne', if_pos hab]
      exact ⟨rfl, exRat_difference s hab.le _ lo, rfl⟩

theorem exRat_product : exRat (.fin (s != t) (n * k) (d * c) (e + f)) = exRat (.fin s n d e) * exRat (.fin t k c f) := by
  simp only [exRat_fin, zpow_add₀ (two_ne_zero (α := ℚ)), Nat.cast_mul, mul_div_mul_comm]
  cases s <;> cases t <;> simp <;> ring

theorem exMul_exact : ExactlyIs (exMul (.fin s n d e) (.fin t k c f)) (exRat (.fin s n d e) * exRat (.fin t k c f)) :=
  ⟨rfl, exRat_product s t n k e f, rfl⟩

theorem exRat_quotient : exRat (.fin (s != t) (n * c) (d * k) (e - f)) = exRat (.fin s n d e) / exRat (.fin t k c f) := by
  simp only [exRat_fin, zpow_sub₀ (two_ne_zero (α := ℚ)), Nat.cast_mul, mul_div_mul_comm]
  rw [div_eq_mul_inv ((n : ℚ) / d) (k / c), inv_div]
  cases s <;> cases t <;> simp

theorem exDiv_exact (hk : k ≠ 0) : ExactlyIs (exDiv (.fin s n d e) (.fin t k c f)) (exRat (.fin s n d e) / exRat (.fin t k c f)) := by
  have hquot : exDiv (.fin s n d e) (.fin t k c f) = (.fin (s != t) (n * c) (d * k) (e - f), 0) := if_neg hk
  exact hquot ▸ ⟨rfl, exRat_quotient s t n k e f, rfl⟩

/-- A fused sum adds the exact product, which is a finite value itself. -/
theorem exFma_exact (sub : Bool) (hd : d ≠ 0) (hc : c ≠ 0) (r : Bool) (j : Nat) {i : Nat} (g : Int) (hi : i ≠ 0) :
    ExactlyIs (exFma m (.fin r j i g) (.fin s n d e) (.fin t k c f) sub)
      (exRat (.fin r j i g) + (if sub then -1 else 1) * (exRat (.fin s n d e) * exRat (.fin t k c f))) := by
  have hadd (v : Bool) := exAdd_exact m r v j (n * k) g (e + f) hi (Nat.mul_ne_zero hd hc)
  cases sub with
  | false =>
    obtain ⟨hfin, hrat, hflags⟩ := hadd (s != t)
    refine ⟨hfin, hrat.trans ?_, (BitVec.zero_or ..).trans hflags⟩
    simp [exRat_product]
  | true =>
    obtain ⟨hfin, hrat, hflags⟩ := hadd !(s != t)
    refine ⟨hfin, hrat.trans ?_, (BitVec.zero_or ..).trans hflags⟩
    rw [exRat_flip, exRat_product]
    simp

end

theorem exRat_scale (s : Bool) (n d : Nat) (e g : Int) : exRat (exScale (.fin s n d e) g) = exRat (.fin s n d e) * (2 : ℚ) ^ g := by
  rw [exScale]
  split
  · next hn => simp [exRat_fin, hn]
  · simp only [exRat_fin, zpow_add₀ (two_ne_zero (α := ℚ)), mul_assoc]

/-! Values that a format holds as they are (R117, R127, R129). -/

/-- The exponent of the last place of a format's least values (R117). -/
def FF.floor (F : FF) : Int := 1 - (F.bias : Int) - F.mb

/-- A format holds n × 2^e as a significand: it has room for n, which lies at the least exponent or is normalised. -/
def FF.Holds (F : FF) (n : Nat) (e : Int) : Prop := n < 2 ^ (F.mb + 1) ∧ (e = F.floor ∨ F.floor ≤ e ∧ 2 ^ F.mb ≤ n)

theorem log2Q_one {n : Nat} (hn : n ≠ 0) : log2Q n 1 = n.log2 := by
  have hkept : (shiftQ n 1 (-(n.log2 : Int))).2 ≤ (shiftQ n 1 (-(n.log2 : Int))).1 := by
    by_cases hz : n.log2 = 0
    · simpa [shiftQ, hz] using Nat.one_le_iff_ne_zero.mpr hn
    · simpa [shiftQ, hz, Nat.shiftLeft_eq] using Nat.log2_self_le hn
  have hone : Nat.log2 1 = 0 := by decide
  simp only [log2Q, hone, Nat.cast_zero, sub_zero, if_pos hkept]

theorem shiftQ_zero (n d : Nat) : shiftQ n d 0 = (n, d) := rfl

theorem roundQ_one (m : RMode) (neg : Bool) (n : Nat) : roundQ m neg n 1 = (n, true) := by
  cases m <;> simp [roundQ, Nat.mod_one]

/-- Round keeps a significand that the format holds (R127). -/
theorem FF.roundMag_held {F : FF} {n : Nat} {e : Int} (h : F.Holds n e) (m : RMode) (neg : Bool) : F.roundMag m false neg n 1 e = (n, e, true) := by
  obtain ⟨hroom, hplace⟩ := h
  rw [FF.floor] at hplace
  by_cases hz : n = 0
  · have hpos : 0 < 2 ^ F.mb := Nat.two_pow_pos _
    have he : e = 1 - (F.bias : Int) - F.mb := hplace.resolve_right (by omega)
    rw [FF.roundMag, if_pos hz, hz, he]
  · have hlog : n.log2 ≤ F.mb := Nat.lt_succ_iff.mp ((Nat.log2_lt hz).mpr hroom)
    have hq : max ((n.log2 : Int) + e - F.mb) (1 - (F.bias : Int) - F.mb) = e := by
      rcases hplace with he | ⟨he, hfull⟩
      · omega
      · have hnormal : F.mb ≤ n.log2 := (Nat.le_log2 hz).mpr hfull
        omega
    have hnear : ¬ e - ((n.log2 : Int) + e) > F.mb + 4 := by omega
    simp only [FF.roundMag, if_neg hz, log2Q_one hz, Bool.false_eq_true, if_false, hq, if_neg hnear, sub_self, shiftQ_zero, roundQ_one]

theorem narrow_held {F : FF} {n : Nat} {e : Int} (h : F.Holds n e) (hmax : (e - F.floor).toNat * 2 ^ F.mb + n ≤ F.maxBits) (m : RMode) (sat neg : Bool) :
    narrow (.fp F) (.fin neg n 1 e) m sat = (signBit F neg + ((e - F.floor).toNat * 2 ^ F.mb + n), 0) := by
  rw [FF.floor] at hmax ⊢
  simp only [narrow, FF.roundMag_held h, if_neg hmax.not_gt]
  simp [flIf]

/-- Narrow gives back the magnitude encoding of a value up to +max. -/
theorem narrow_value_fin {F : FF} {mag : Nat} (hmax : mag ≤ F.maxBits) (m : RMode) (sat neg : Bool) :
    narrow (.fp F) (FF.value.fin F neg mag) m sat = (signBit F neg + mag, 0) := by
  have hpos : 0 < 2 ^ F.mb := Nat.two_pow_pos _
  have hfrac : mag % 2 ^ F.mb < 2 ^ F.mb := Nat.mod_lt _ hpos
  have hsplit : mag / 2 ^ F.mb * 2 ^ F.mb + mag % 2 ^ F.mb = mag := Nat.div_add_mod' ..
  have hdouble : 2 ^ (F.mb + 1) = 2 ^ F.mb + 2 ^ F.mb := by rw [pow_succ, mul_two]
  rw [FF.value.fin]
  by_cases hsub : mag / 2 ^ F.mb = 0
  · have hcode : (F.floor - F.floor).toNat * 2 ^ F.mb + mag % 2 ^ F.mb = mag := by simpa [hsub] using hsplit
    rw [if_pos hsub, ← FF.floor, narrow_held ⟨by omega, .inl rfl⟩ (hcode.trans_le hmax), hcode]
  · obtain ⟨x, hx⟩ := Nat.exists_eq_succ_of_ne_zero hsub
    have hexp : (mag / 2 ^ F.mb : Nat) - (F.bias : Int) - F.mb - F.floor = x := by
      rw [FF.floor, hx]
      push_cast
      ring
    have hcode : ((mag / 2 ^ F.mb : Nat) - (F.bias : Int) - F.mb - F.floor).toNat * 2 ^ F.mb + (2 ^ F.mb + mag % 2 ^ F.mb) = mag := by
      rw [hexp, Int.toNat_natCast, ← add_assoc, ← Nat.succ_mul, ← hx, hsplit]
    rw [if_neg hsub, narrow_held ⟨by omega, .inr ⟨by omega, by omega⟩⟩ (hcode.trans_le hmax), hcode]

/-- The encodings of finite FP32 values are those whose magnitude does not exceed +max. -/
theorem fp32_value_finite {b : Nat} (h : (fp32.value b).isFin = true) :
    b % 2 ^ 31 ≤ fp32.maxBits ∧ fp32.value b = FF.value.fin fp32 ((b >>> 31) % 2 == 1) (b % 2 ^ 31) := by
  have hcases : fp32.value b = if b % 2 ^ 31 == 0x7F800000 then .inf ((b >>> 31) % 2 == 1)
      else if b % 2 ^ 31 > 0x7F800000 then .nan ((b >>> 22) % 2 == 0) else FF.value.fin fp32 ((b >>> 31) % 2 == 1) (b % 2 ^ 31) := rfl
  rw [hcases] at h ⊢
  split_ifs at h ⊢ with hinf hnan
  · cases h
  · cases h
  · refine ⟨?_, rfl⟩
    have hne : b % 2 ^ 31 ≠ 0x7F800000 := fun he => hinf (beq_iff_eq.mpr he)
    change b % 2 ^ 31 ≤ 0x7F7FFFFF
    omega

theorem fp32_sign_magnitude (b : Word32) : signBit fp32 ((b.toNat >>> 31) % 2 == 1) + b.toNat % 2 ^ 31 = b.toNat := by
  have hb := b.isLt
  have hsign : b.toNat >>> 31 = b.toNat / 2 ^ 31 := Nat.shiftRight_eq_div_pow ..
  rw [hsign, signBit]
  split
  · next hneg =>
    have hone := beq_iff_eq.mp hneg
    change 2 ^ 31 + b.toNat % 2 ^ 31 = b.toNat
    omega
  · next hpos =>
    have hzero : b.toNat / 2 ^ 31 % 2 ≠ 1 := fun he => hpos (beq_iff_eq.mpr he)
    omega

/-- Settles O13: the exact operations one by one, and FP32 values narrowed into FP32. -/
theorem narrowingIsExact : Obligations.NarrowingIsExact := by
  unfold Obligations.NarrowingIsExact
  refine ⟨fun m s t r n k j d c i e f g hd hc hi => ⟨?_, ?_, fun hk => ?_, ?_, ?_, ?_⟩, fun b m sat h => ?_⟩
  · exact exAdd_exact m s t n k e f hd hc
  · exact exMul_exact s t n k e f
  · exact exDiv_exact s t n k e f hk
  · simpa [ExactlyIs] using exFma_exact m s t n k e f false hd hc r j g hi
  · simpa [ExactlyIs, sub_eq_add_neg] using exFma_exact m s t n k e f true hd hc r j g hi
  · exact exRat_scale s n d e g
  · obtain ⟨hmax, hvalue⟩ := fp32_value_finite h
    rw [hvalue, narrow_value_fin hmax, fp32_sign_magnitude]

end Sys2Proof.Machine
end

section
/-! Cells of elements (R121) and what is narrowed into one (R129): packed elements read back, merged flags, and the width of what Narrow returns. -/

namespace Sys2Proof.Machine

/-! Flags. -/

/-- A merged flag is a flag of one of the results (R161). -/
theorem getLsbD_merged {α : Type} (l : List (α × Flags)) (b : Nat) :
    (l.foldl (fun (a : Flags) e => a ||| e.2) 0).getLsbD b = true ↔ ∃ e ∈ l, e.2.getLsbD b = true := by
  have hfrom (a : Flags) : (l.foldl (fun (a : Flags) e => a ||| e.2) a).getLsbD b = true ↔ a.getLsbD b = true ∨ ∃ e ∈ l, e.2.getLsbD b = true := by
    induction l generalizing a with
    | nil => simp
    | cons e l ih => simp [ih, or_assoc]
  simpa using hfrom 0

/-! Packed cells (R121). -/

/-- The digits of a packed cell, the first one lowest. -/
def digits (w : Nat) (es : List Nat) : Nat := es.foldr (fun x acc => x % 2 ^ w + 2 ^ w * acc) 0

theorem digits_lt (w : Nat) (es : List Nat) : digits w es < 2 ^ (w * es.length) := by
  induction es with
  | nil => simp [digits]
  | cons x es ih =>
    have hx : x % 2 ^ w < 2 ^ w := Nat.mod_lt _ (Nat.two_pow_pos w)
    calc digits w (x :: es) = x % 2 ^ w + 2 ^ w * digits w es := rfl
      _ < 2 ^ w * (digits w es + 1) := by rw [Nat.mul_succ]; omega
      _ ≤ 2 ^ w * 2 ^ (w * es.length) := Nat.mul_le_mul_left _ ih
      _ = 2 ^ (w * (x :: es).length) := by rw [← pow_add, List.length_cons, Nat.mul_succ, Nat.add_comm]

theorem digit_digits (w : Nat) (es : List Nat) (k : Nat) : digits w es >>> (w * k) % 2 ^ w = es.getD k 0 % 2 ^ w := by
  induction es generalizing k with
  | nil => simp [digits]
  | cons x es ih =>
    have hcons : digits w (x :: es) = x % 2 ^ w + 2 ^ w * digits w es := rfl
    cases k with
    | zero => simp [hcons]
    | succ k =>
      have hrest : (x % 2 ^ w + 2 ^ w * digits w es) >>> w = digits w es := by
        rw [Nat.shiftRight_eq_div_pow, Nat.add_mul_div_left _ _ (Nat.two_pow_pos w), Nat.mod_div_self, Nat.zero_add]
      rw [hcons, Nat.mul_succ, Nat.add_comm (w * k), Nat.shiftRight_add, hrest, ih, List.getD_cons_succ]

section
variable (f : Fmt) (efr : BitVec 12)

theorem Fmt.cell_bits : Fmt.width f efr * Fmt.count f efr ≤ 32 := Nat.mul_div_le ..

theorem elem_lt (c : Word32) (k : Nat) : elem f efr c k < 2 ^ Fmt.width f efr := Nat.mod_lt _ (Nat.two_pow_pos _)

theorem elem_pack {es : List Nat} (hlen : es.length = Fmt.count f efr) (k : Nat) : elem f efr (pack f efr es) k = es.getD k 0 % 2 ^ Fmt.width f efr := by
  have hfits : digits (Fmt.width f efr) es < 2 ^ 32 :=
    (digits_lt _ es).trans_le (Nat.pow_le_pow_right two_pos (hlen ▸ Fmt.cell_bits f efr))
  have hcell : (pack f efr es).toNat = digits (Fmt.width f efr) es := (BitVec.toNat_ofNat ..).trans (Nat.mod_eq_of_lt hfits)
  rw [elem, hcell, digit_digits]

end

/-! What Narrow returns fits its destination (R117, R118, R129). -/

/-- +max, infinity and NaN of a format leave its sign bit clear. -/
def FF.Fits (F : FF) : Prop :=
  0 < F.width ∧ F.maxBits < 2 ^ (F.width - 1) ∧ (∀ i ∈ F.inf, i < 2 ^ (F.width - 1)) ∧ ∀ c ∈ F.nan, c < 2 ^ (F.width - 1)

theorem Fmt.ff_fits {f : Fmt} {F : FF} (h : Fmt.ff f = some F) : F.Fits := by
  cases f <;> cases h <;> simp [FF.Fits, fp32, bf16, fp16, e4m3, e5m2, e2m1]

theorem Fmt.width_of_ff {f : Fmt} {F : FF} (h : Fmt.ff f = some F) (efr : BitVec 12) : Fmt.width f efr = F.width := by
  cases f <;> cases h <;> rfl

theorem Fmt.val_of_ff {f : Fmt} {F : FF} (h : Fmt.ff f = some F) (efr : BitVec 12) (b : Nat) : Fmt.val f efr b = F.value b := by
  simp only [Fmt.val, h]

theorem signed_lt {F : FF} (hpos : 0 < F.width) (s : Bool) {n : Nat} (h : n < 2 ^ (F.width - 1)) : signBit F s + n < 2 ^ F.width := by
  have hdouble : 2 ^ F.width = 2 ^ (F.width - 1) + 2 ^ (F.width - 1) := by
    rw [← mul_two, ← pow_succ, Nat.sub_add_cancel hpos]
  cases s <;> simp only [signBit, Bool.false_eq_true, if_true, if_false] <;> omega

theorem unsigned_lt {F : FF} {n : Nat} (h : n < 2 ^ (F.width - 1)) : n < 2 ^ F.width :=
  h.trans_le (Nat.pow_le_pow_right two_pos (Nat.sub_le ..))

theorem narrow_fp_lt {F : FF} (h : F.Fits) (x : Ex) (m : RMode) (sat : Bool) : (narrow (.fp F) x m sat).1 < 2 ^ F.width := by
  obtain ⟨hpos, hmax, hinf, hnan⟩ := h
  cases x with
  | nan q =>
    cases hc : F.nan with
    | none => simp [narrow, hc]
    | some c => simpa [narrow, hc] using unsigned_lt (hnan c hc)
  | inf s =>
    simp only [narrow]
    split
    · exact signed_lt hpos s hmax
    · split
      · next i hi => exact signed_lt hpos s (hinf i hi)
      · next c _ hc => exact unsigned_lt (hnan c hc)
      · exact signed_lt hpos s hmax
  | fin s n d e =>
    simp only [narrow]
    split
    · split
      · exact signed_lt hpos s hmax
      · split
        · next i hi => exact signed_lt hpos s (hinf i hi)
        · next c _ hc => exact unsigned_lt (hnan c hc)
        · exact signed_lt hpos s hmax
    · next hin => exact signed_lt hpos s ((not_lt.mp hin).trans_lt hmax)

theorem intBits_lt (v : Int) (w : Nat) : intBits v w < 2 ^ w := by
  have hpos : (0 : Int) < 2 ^ w := by positivity
  have hlt := Int.emod_lt_of_pos v hpos
  have hnonneg := Int.emod_nonneg v hpos.ne'
  rw [intBits, Int.toNat_lt hnonneg]
  exact_mod_cast hlt

theorem narrow_int_lt (lo hi : Int) (w : Nat) (x : Ex) (m : RMode) (sat : Bool) : (narrow (.int lo hi w) x m sat).1 < 2 ^ w := by
  cases x with
  | nan q => exact Nat.two_pow_pos w
  | inf s => exact intBits_lt _ w
  | fin s n d e =>
    simp only [narrow]
    split_ifs <;> dsimp only <;> apply intBits_lt

theorem toFmt_lt (f : Fmt) (efr : BitVec 12) (x : Ex) (m : RMode) (sat : Bool) : (toFmt f efr x m sat).1 < 2 ^ Fmt.width f efr := by
  cases hF : Fmt.ff f with
  | some F =>
    rw [Fmt.width_of_ff hF]
    simpa [toFmt, Fmt.nt, hF] using narrow_fp_lt (Fmt.ff_fits hF) x m sat
  | none =>
    cases f <;> cases hF
    · exact narrow_int_lt _ _ _ x m sat
    · exact narrow_int_lt _ _ _ x m sat

/-- A result of an arithmetic instruction fits its element (R121, R122, R129). -/
theorem arith_lt (f : Fmt) (efr : BitVec 12) (x : Ex) (m : RMode) (sat : Bool) : (arith f efr x m sat).1 < 2 ^ Fmt.width f efr := by
  unfold arith
  split
  · change _ < 2 ^ 32
    dsimp only
    split_ifs <;> dsimp only <;> apply intBits_lt
  · exact toFmt_lt f efr x m sat

/-- An I32 result wraps, or clamps with OF (R122). -/
theorem arith_i32_ofInt (efr : BitVec 12) (v : Int) (m : RMode) (sat : Bool) : arith .i32 efr (.ofInt v) m sat =
    if sat then if 2 ^ 31 - 1 < v then (0x7FFFFFFF, flOF) else if v < -(2 ^ 31) then (0x80000000, flOF) else (intBits v 32, 0) else (intBits v 32, 0) := by
  have hvalue : ((if decide (v < 0) then -1 else 1) : Int) * ((v.natAbs / 1 : Nat) : Int) = v := by
    rcases lt_or_ge v 0 with hv | hv
    · rw [if_pos (decide_eq_true hv)]
      omega
    · rw [if_neg (by simpa using hv)]
      omega
  have hshift : shiftQ v.natAbs 1 0 = (v.natAbs, 1) := rfl
  simp only [arith, Ex.ofInt, hshift, hvalue]
  rfl

theorem ofNat_intBits (v : Int) : BitVec.ofNat 32 (intBits v 32) = BitVec.ofInt 32 v := by
  apply BitVec.eq_of_toNat_eq
  rw [BitVec.toNat_ofNat, Nat.mod_eq_of_lt (intBits_lt v 32), BitVec.toNat_ofInt]
  rfl

end Sys2Proof.Machine
end

section
/-! The order of exact values (R145, R165, R177): NaNs above every number, infinities beyond every finite value, and −0 below +0 where the order asks it. -/

namespace Sys2Proof.Machine

/-- An exact value that is well formed: its denominator is not zero. -/
def Ex.Proper : Ex → Prop
  | .fin _ _ d _ => d ≠ 0
  | _ => True

theorem FF.value_proper (F : FF) (b : Nat) : (F.value b).Proper := by
  have hfin (s : Bool) (mag : Nat) : (FF.value.fin F s mag).Proper := by
    unfold FF.value.fin
    dsimp only
    split <;> exact one_ne_zero
  unfold FF.value
  dsimp only
  split
  · split_ifs
    · trivial
    · trivial
    · exact hfin _ _
  · split_ifs
    · trivial
    · exact hfin _ _
  · exact hfin _ _

theorem Fmt.val_proper (f : Fmt) (efr : BitVec 12) (b : Nat) : (Fmt.val f efr b).Proper := by
  unfold Fmt.val
  split
  · exact FF.value_proper _ b
  · split <;> exact one_ne_zero

/-- What a comparison answers on two members of a linear order. -/
def Compares {κ : Type} [LT κ] (c : Int) (x y : κ) : Prop := c = -1 ∧ x < y ∨ c = 0 ∧ x = y ∨ c = 1 ∧ y < x

section
variable {κ : Type} [LinearOrder κ] {c : Int} {x y : κ} (h : Compares c x y)
include h

theorem Compares.neg_iff : c < 0 ↔ x < y := by
  rcases h with ⟨rfl, h⟩ | ⟨rfl, h⟩ | ⟨rfl, h⟩
  · simpa using h
  · simp [h]
  · simpa using h.le

theorem Compares.pos_iff : 0 < c ↔ y < x := by
  rcases h with ⟨rfl, h⟩ | ⟨rfl, h⟩ | ⟨rfl, h⟩
  · simpa using h.le
  · simp [h]
  · simpa using h

end

/-- The side of the number line that a value stands on: below it, on it, above it, or no number. -/
def Ex.side : Ex → ℤ
  | .nan _ => 2
  | .inf s => if s then -1 else 1
  | .fin _ _ _ _ => 0

/-- The place of a value among the numbers (R145); a NaN stands above them (R177). -/
def Ex.place (x : Ex) : ℤ ×ₗ ℚ := toLex (x.side, exRat x)

/-- The place where +0 stands above −0 (R145, R165). -/
def Ex.placeZ (x : Ex) : (ℤ ×ₗ ℚ) ×ₗ ℤ := toLex (x.place, if x.isZero && !x.isNeg then 1 else 0)

theorem place_lt_iff (x y : Ex) : x.place < y.place ↔ x.side < y.side ∨ x.side = y.side ∧ exRat x < exRat y := Prod.Lex.lt_iff

theorem placeZ_lt_iff (x y : Ex) : x.placeZ < y.placeZ ↔
    x.place < y.place ∨ x.place = y.place ∧ (if x.isZero && !x.isNeg then 1 else 0 : ℤ) < (if y.isZero && !y.isNeg then 1 else 0) := Prod.Lex.lt_iff

theorem Compares.of_sides {x y : Ex} {c : Int} (h : x.side < y.side ∧ c = -1 ∨ y.side < x.side ∧ c = 1) : Compares c x.place y.place := by
  rcases h with ⟨h, hc⟩ | ⟨h, hc⟩
  · exact .inl ⟨hc, (place_lt_iff x y).mpr (.inl h)⟩
  · exact .inr (.inr ⟨hc, (place_lt_iff y x).mpr (.inl h)⟩)

/-- Finite values compare as their numerators over a common denominator and exponent. -/
theorem exCmp_fin (s t : Bool) (n k : Nat) {d c : Nat} (e f : Int) (hd : d ≠ 0) (hc : c ≠ 0) :
    Compares (exCmp (.fin s n d e) (.fin t k c f)) (Ex.place (.fin s n d e)) (Ex.place (.fin t k c f)) := by
  obtain ⟨lo, hlo⟩ : ∃ lo, lo = min e f := ⟨_, rfl⟩
  obtain ⟨p, hp⟩ : ∃ p : Int, p = if s then -((n * c * 2 ^ (e - lo).toNat : Nat) : Int) else (n * c * 2 ^ (e - lo).toNat : Nat) := ⟨_, rfl⟩
  obtain ⟨q, hq⟩ : ∃ q : Int, q = if t then -((k * d * 2 ^ (f - lo).toNat : Nat) : Int) else (k * d * 2 ^ (f - lo).toNat : Nat) := ⟨_, rfl⟩
  have hcmp : exCmp (.fin s n d e) (.fin t k c f) = if p < q then -1 else if q < p then 1 else 0 := by
    subst hp hq hlo
    rfl
  have hunit : (0 : ℚ) < 2 ^ lo / (d * c : Nat) := by
    have : 0 < d * c := Nat.pos_of_ne_zero (Nat.mul_ne_zero hd hc)
    positivity
  have hx : exRat (.fin s n d e) = p * (2 ^ lo / (d * c : Nat)) := by
    rw [← exRat_rescale s n hc (hlo ▸ min_le_left e f : lo ≤ e), exRat_fin, hp]
    cases s <;> simp <;> ring
  have hy : exRat (.fin t k c f) = q * (2 ^ lo / (d * c : Nat)) := by
    rw [← exRat_rescale t k hd (hlo ▸ min_le_right e f : lo ≤ f), exRat_fin, hq, Nat.mul_comm d c]
    cases t <;> simp <;> ring
  have hplace (x y : Ex) (hside : x.side = y.side) (h : exRat x < exRat y) : x.place < y.place := (place_lt_iff x y).mpr (.inr ⟨hside, h⟩)
  rw [hcmp]
  rcases lt_trichotomy p q with h | h | h
  · rw [if_pos h]
    exact .inl ⟨rfl, hplace _ _ rfl (by rw [hx, hy]; exact mul_lt_mul_of_pos_right (Int.cast_lt.mpr h) hunit)⟩
  · rw [if_neg h.not_lt, if_neg h.not_gt]
    exact .inr (.inl ⟨rfl, by rw [Ex.place, Ex.place, hx, hy, h]; rfl⟩)
  · rw [if_neg h.le.not_gt, if_pos h]
    exact .inr (.inr ⟨rfl, hplace _ _ rfl (by rw [hx, hy]; exact mul_lt_mul_of_pos_right (Int.cast_lt.mpr h) hunit)⟩)

/-- Values that are no NaN compare as their places among the numbers. -/
theorem exCmp_compares {x y : Ex} (hx : x.Proper) (hy : y.Proper) (hnx : x.isNan = false) (hny : y.isNan = false) :
    Compares (exCmp x y) x.place y.place := by
  cases x with
  | nan q => cases hnx
  | inf s =>
    cases y with
    | nan q => cases hny
    | inf t =>
      by_cases hst : s = t
      · subst hst
        exact .inr (.inl ⟨by simp [exCmp], rfl⟩)
      · exact .of_sides (by cases s <;> cases t <;> simp_all [exCmp, Ex.side])
    | fin t k c f => exact .of_sides (by cases s <;> simp [exCmp, Ex.side])
  | fin s n d e =>
    cases y with
    | nan q => cases hny
    | inf t => exact .of_sides (by cases t <;> simp [exCmp, Ex.side])
    | fin t k c f => exact exCmp_fin s t n k e f hx hy

theorem isZero_of_place_eq {x y : Ex} (hy : y.Proper) (h : x.place = y.place) (hz : x.isZero = true) : y.isZero = true := by
  obtain ⟨hside, hrat⟩ := Prod.mk.inj (toLex.injective h)
  cases x with
  | nan q => cases hz
  | inf s => cases hz
  | fin s n d e =>
    cases y with
    | nan q => cases hside
    | inf t => cases t <;> cases hside
    | fin t k c f =>
      obtain rfl : n = 0 := by
        cases n with
        | zero => rfl
        | succ n => cases hz
      have hk : k = 0 := by
        have hc : (c : ℚ) ≠ 0 := Nat.cast_ne_zero.mpr hy
        have hp : (2 : ℚ) ^ f ≠ 0 := zpow_ne_zero _ two_ne_zero
        cases t <;> simpa [exRat_fin, hc, hp] using hrat.symm
      subst hk
      rfl

/-- Values that are no NaN compare in R165's order as their places in it. -/
theorem exCmpZ_compares {x y : Ex} (hx : x.Proper) (hy : y.Proper) (hnx : x.isNan = false) (hny : y.isNan = false) :
    Compares (exCmpZ x y) x.placeZ y.placeZ := by
  have heq (z : ℤ) (h : exCmp x y = z) : exCmpZ x y = if z = 0 && x.isZero && y.isZero then
      (if x.isNeg && !y.isNeg then -1 else if !x.isNeg && y.isNeg then 1 else 0) else z := by
    subst h
    rfl
  rcases exCmp_compares hx hy hnx hny with ⟨hc, h⟩ | ⟨hc, h⟩ | ⟨hc, h⟩
  · exact .inl ⟨heq _ hc, (placeZ_lt_iff x y).mpr (.inl h)⟩
  · have hzero : x.isZero = y.isZero := Bool.eq_iff_iff.mpr ⟨isZero_of_place_eq hy h, isZero_of_place_eq hx h.symm⟩
    rw [heq 0 hc, Compares, placeZ_lt_iff, placeZ_lt_iff, Ex.placeZ, Ex.placeZ, h, hzero]
    cases y.isZero <;> cases x.isNeg <;> cases y.isNeg <;> simp
  · exact .inr (.inr ⟨heq _ hc, (placeZ_lt_iff y x).mpr (.inl h)⟩)

/-- VARGMAX's order (R177) is that of the places, a NaN above every number. -/
theorem argBeats_iff {x y : Ex} (hx : x.Proper) (hy : y.Proper) : argBeats x y = true ↔ y.placeZ < x.placeZ := by
  have hnan {z : Ex} (h : z.isNan = true) : z.placeZ = toLex (toLex (2, 0), 0) := by
    cases z with
    | nan q => rfl
    | _ => cases h
  have hbelow {z : Ex} (h : z.isNan = false) : z.placeZ < toLex (toLex (2, 0), 0) := by
    have hside : z.side < 2 := by
      cases z with
      | nan q => cases h
      | inf s => cases s <;> decide
      | fin s n d e => exact two_pos
    exact (placeZ_lt_iff z (.nan false)).mpr (.inl ((place_lt_iff z (.nan false)).mpr (.inl hside)))
  cases hnx : x.isNan with
  | true =>
    cases hny : y.isNan with
    | true => simp [argBeats, hnx, hny, hnan]
    | false => simpa [argBeats, hnx, hny, hnan] using hbelow hny
  | false =>
    cases hny : y.isNan with
    | true => simpa [argBeats, hnx, hny, hnan hny] using (hbelow hnx).le
    | false => simpa [argBeats, hnx, hny] using (exCmpZ_compares hx hy hnx hny).pos_iff

end Sys2Proof.Machine
end

section
/-! The greatest or least of a list, as the reductions find it (R176, R177). -/

namespace Sys2Proof.Machine

section
variable {α κ : Type} [LinearOrder κ]

/-- An element of a list that is the first of the greatest by a key. -/
def FirstBest (key : α → κ) (l : List α) (r : α) : Prop :=
  ∃ pre post, l = pre ++ r :: post ∧ (∀ x ∈ pre, key x < key r) ∧ ∀ x ∈ post, key x ≤ key r

theorem FirstBest.le {key : α → κ} {l : List α} {r : α} (h : FirstBest key l r) : r ∈ l ∧ ∀ x ∈ l, key x ≤ key r := by
  obtain ⟨pre, post, rfl, hpre, hpost⟩ := h
  refine ⟨by simp, fun x hx => ?_⟩
  rcases List.mem_append.mp hx with hx | hx
  · exact (hpre x hx).le
  · rcases List.mem_cons.mp hx with rfl | hx
    · exact le_rfl
    · exact hpost x hx

/-- The fold of the reductions, which starts with the first element and takes a later one that is better. -/
def foldBest (better : α → α → Bool) (l : List α) (d : α) : α := l.foldl (fun b x => if better x b then x else b) (l.headD d)

/-- It finds the first of the best. -/
theorem firstBest_foldBest (key : α → κ) (better : α → α → Bool) {l : List α} (d : α) (hne : l ≠ [])
    (h : ∀ x ∈ l, ∀ y ∈ l, (better x y = true ↔ key y < key x)) : FirstBest key l (foldBest better l d) := by
  cases l with
  | nil => exact absurd rfl hne
  | cons a l =>
    have hstart : foldBest better (a :: l) d = l.foldl (fun b x => if better x b then x else b) a := by
      simp [foldBest]
    rw [hstart]
    clear hstart hne
    induction l using List.reverseRecOn with
    | nil => exact ⟨[], [], rfl, nofun, nofun⟩
    | append_singleton l x ih =>
      have hbest := ih fun x hx y hy => h x (List.mem_append_left [_] hx) y (List.mem_append_left [_] hy)
      obtain ⟨hmem, hall⟩ := hbest.le
      obtain ⟨pre, post, hsplit, hpre, hpost⟩ := hbest
      have hx := h x (by simp) _ (List.mem_append_left [x] hmem)
      rw [List.foldl_append, List.foldl_cons, List.foldl_nil]
      split
      · next hbetter => exact ⟨a :: l, [], rfl, fun y hy => (hall y hy).trans_lt (hx.mp hbetter), nofun⟩
      · next hworse =>
        refine ⟨pre, post ++ [x], by rw [← List.cons_append, hsplit, List.append_assoc, List.cons_append], hpre, fun y hy => ?_⟩
        rcases List.mem_append.mp hy with hy | hy
        · exact hpost y hy
        · exact List.mem_singleton.mp hy ▸ not_lt.mp (mt hx.mpr hworse)

/-- A value not above, or not below, by a comparison: what a maximum, or a minimum, allows every other. -/
def Within (max : Bool) (c : Int) : Prop :=
  match max with
  | true => c ≤ 0
  | false => 0 ≤ c

/-- The extreme of a list under a comparison that agrees with an order. -/
theorem foldBest_extreme (key : α → κ) (cmp : α → α → Int) (max : Bool) {l : List α} (d : α) (hne : l ≠ [])
    (h : ∀ x ∈ l, ∀ y ∈ l, Compares (cmp x y) (key x) (key y)) :
    let r := foldBest (fun x b => if max then decide (0 < cmp x b) else decide (cmp x b < 0)) l d
    r ∈ l ∧ ∀ x ∈ l, Within max (cmp x r) := by
  intro r
  cases max with
  | true =>
    have hbest : FirstBest key l r := firstBest_foldBest key _ d hne fun x hx y hy => by simpa using (h x hx y hy).pos_iff
    exact ⟨hbest.le.1, fun x hx => not_lt.mp (mt (h x hx r hbest.le.1).pos_iff.mp (hbest.le.2 x hx).not_gt)⟩
  | false =>
    have hbest : FirstBest (OrderDual.toDual ∘ key) l r :=
      firstBest_foldBest _ _ d hne fun x hx y hy => by simpa using (h x hx y hy).neg_iff
    exact ⟨hbest.le.1, fun x hx => not_lt.mp (mt (h x hx r hbest.le.1).neg_iff.mp (hbest.le.2 x hx).not_gt)⟩

end

end Sys2Proof.Machine
end

section
/-! The pairwise tree (R136, R175): the model's levels as the nodes of `treeNode`, with the flags of every addition. -/

namespace Sys2Proof.Machine

variable (add : Nat → Nat → Nat × Flags)

theorem treeLevel_cons (a b : Nat) (r : List Nat) :
    treeLevel add (a :: b :: r) = ((add a b).1 :: (treeLevel add r).1, (add a b).2 ||| (treeLevel add r).2) := rfl

theorem treeSum_succ (n : Nat) (l : List Nat) :
    treeSum add (n + 1) l = ((treeSum add n (treeLevel add l).1).1, (treeLevel add l).2 ||| (treeSum add n (treeLevel add l).1).2) := rfl

/-- One level over the nodes of a level below: its sums, and the flags of its additions. -/
theorem treeLevel_nodes (g : Nat → Nat) (n : Nat) :
    (treeLevel add ((List.range (2 * n)).map g)).1 = (List.range n).map (fun i => (add (g (2 * i)) (g (2 * i + 1))).1) ∧
    ∀ b, (treeLevel add ((List.range (2 * n)).map g)).2.getLsbD b = true ↔ ∃ i < n, (add (g (2 * i)) (g (2 * i + 1))).2.getLsbD b = true := by
  induction n generalizing g with
  | zero => simp [treeLevel]
  | succ n ih =>
    obtain ⟨hnodes, hflags⟩ := ih (fun i => g (i + 2))
    have hpair : (List.range (2 * (n + 1))).map g = g 0 :: g 1 :: (List.range (2 * n)).map (fun i => g (i + 2)) := by
      rw [Nat.mul_succ, List.range_succ_eq_map, List.range_succ_eq_map]
      simp [Function.comp_def]
    rw [hpair, treeLevel_cons]
    refine ⟨?_, fun b => ?_⟩
    · rw [List.range_succ_eq_map, List.map_cons, List.map_map, hnodes]
      rfl
    · rw [BitVec.getLsbD_or, Bool.or_eq_true, hflags b]
      constructor
      · rintro (h | ⟨i, hi, h⟩)
        · exact ⟨0, by omega, h⟩
        · exact ⟨i + 1, by omega, h⟩
      · rintro ⟨i, hi, h⟩
        cases i with
        | zero => exact .inl h
        | succ i => exact .inr ⟨i, by omega, h⟩

/-- The tree over a level's sums is the tree a level higher. -/
theorem treeNode_succ (g : Nat → Nat) (h i : Nat) :
    treeNode add (fun i => (add (g (2 * i)) (g (2 * i + 1))).1) h i = treeNode add g (h + 1) i := by
  induction h generalizing i with
  | zero => rfl
  | succ h ih =>
    rw [treeNode, ih, ih]
    rfl

/-- The whole tree: its root, and the flags of every addition below it. -/
theorem treeSum_nodes (g : Nat → Nat) (n : Nat) :
    (treeSum add n ((List.range (2 ^ n)).map g)).1 = treeNode add g n 0 ∧
    ∀ b, (treeSum add n ((List.range (2 ^ n)).map g)).2.getLsbD b = true ↔
      ∃ h i, h < n ∧ i < 2 ^ (n - 1 - h) ∧ (add (treeNode add g h (2 * i)) (treeNode add g h (2 * i + 1))).2.getLsbD b = true := by
  induction n generalizing g with
  | zero => simp [treeSum, treeNode]
  | succ n ih =>
    obtain ⟨hnodes, hlevel⟩ := treeLevel_nodes add g (2 ^ n)
    obtain ⟨hroot, hrest⟩ := ih fun i => (add (g (2 * i)) (g (2 * i + 1))).1
    rw [pow_succ', treeSum_succ, hnodes]
    refine ⟨hroot.trans (treeNode_succ ..), fun b => ?_⟩
    rw [BitVec.getLsbD_or, Bool.or_eq_true, hlevel b, hrest b]
    simp only [treeNode_succ]
    constructor
    · rintro (⟨i, hi, h⟩ | ⟨l, i, hl, hi, h⟩)
      · exact ⟨0, i, by omega, by simpa using hi, h⟩
      · exact ⟨l + 1, i, by omega, by rwa [show n + 1 - 1 - (l + 1) = n - 1 - l by omega], h⟩
    · rintro ⟨l, i, hl, hi, h⟩
      cases l with
      | zero => exact .inl ⟨i, by simpa using hi, h⟩
      | succ l => exact .inr ⟨l, i, by omega, by rwa [show n + 1 - 1 - (l + 1) = n - 1 - l by omega] at hi, h⟩

end Sys2Proof.Machine
end

section
/-! V-slot reductions (R136, R175-R177, R182): each form's reduction of the lanes of a source, and the statement `Obligations.VectorReduce`. -/

namespace Sys2Proof.Machine

/-! The lanes of a source. -/

theorem State.length_readSrc (s : State) (a : VSrc) : (s.readSrc a).length = 64 := by
  cases a with
  | line l => simp [State.readSrc, State.readLine, State.lineKeys, lineCells, upto_eq_range']
  | bc r => simp [State.readSrc]

theorem State.readSrc_eq (s : State) (a : VSrc) : s.readSrc a = (List.range 64).map (s.laneOf a) := by
  refine List.ext_getElem (by simp [s.length_readSrc a]) fun i hi _ => ?_
  rw [List.getElem_map, List.getElem_range, State.laneOf, List.getD_eq_getElem _ _ hi]

/-- The elements of one position in all lanes. -/
def State.column (s : State) (f : Fmt) (a : VSrc) (k : Nat) : List Nat := (List.range 64).map (fun l => s.elemAt f a l k)

theorem State.column_eq (s : State) (f : Fmt) (a : VSrc) (k : Nat) : (s.readSrc a).map (fun c => elem f s.cur.efr c k) = s.column f a k := by
  rw [s.readSrc_eq a, List.map_map]
  rfl

theorem State.column_ne_nil (s : State) (f : Fmt) (a : VSrc) (k : Nat) : s.column f a k ≠ [] :=
  List.ne_nil_of_length_pos (by simp [State.column])

theorem State.mem_column {s : State} {f : Fmt} {a : VSrc} {k p : Nat} : p ∈ s.column f a k ↔ ∃ l < 64, s.elemAt f a l k = p := by
  simp [State.column]

theorem State.vals_column (s : State) (f : Fmt) (a : VSrc) (k : Nat) :
    (s.column f a k).map (Fmt.val f s.cur.efr) = (List.range 64).map (fun l => s.valAt f a l k) := List.map_map

/-! Reductions into a register. -/

/-- The results of a reduction, one for each element position (R175, R176). -/
def State.reduced (s : State) (f : Fmt) (a : VSrc) (red : List Nat → Nat × Flags) : List (Nat × Flags) :=
  (upto 0 (Fmt.count f s.cur.efr)).map (fun k => red (s.column f a k))

theorem State.reduceElems_eq (s : State) (f : Fmt) (a : VSrc) (red : List Nat → Nat × Flags) : reduceElems f s.cur.efr red (s.readSrc a) =
    (redPlace f (pack f s.cur.efr ((s.reduced f a red).map (fun e => e.1))), (s.reduced f a red).foldl (fun a e => a ||| e.2) 0) := by
  simp only [reduceElems, s.column_eq, State.reduced]

section
variable {s : State} {i : Instr} {L : Nat} {d : SReg} {a : VSrc} (hpar : s.core.parity = [])
include hpar

theorem State.writes_vscalar {g : List Word32 → Word64 × Flags} (hexec : exec i s = finish s (s.vscalar L d a g)) :
    s.Writes i L (.s d.toNat (g (s.readSrc a)).1) (g (s.readSrc a)).2 := by
  rw [State.Writes, hexec, State.vscalar, s.sound_of_parity _ _ hpar]
  rfl

/-- A reduction of every element position: the cell of the results, and their flags (R175, R176). -/
theorem State.writes_reduceElems {f : Fmt} {red : List Nat → Nat × Flags} (hfits : ∀ k, (red (s.column f a k)).1 < 2 ^ Fmt.width f s.cur.efr)
    (hexec : exec i s = finish s (s.vscalar L d a (reduceElems f s.cur.efr red))) :
    ∃ (c : Word32) (fl : Flags), s.Writes i L (.s d.toNat (redPlace f c)) fl ∧
      (∀ k, k < Fmt.count f s.cur.efr → elem f s.cur.efr c k = (red (s.column f a k)).1) ∧
      ∀ b, fl.getLsbD b = true ↔ ∃ k, k < Fmt.count f s.cur.efr ∧ (red (s.column f a k)).2.getLsbD b = true := by
  have hwrites := s.writes_vscalar hpar hexec
  rw [s.reduceElems_eq] at hwrites
  refine ⟨_, _, hwrites, fun k hk => ?_, fun b => ?_⟩
  · rw [State.reduced, List.map_map, elem_pack f s.cur.efr (by simp [upto_eq_range']), getD_map_upto _ _ hk, Nat.zero_add, Function.comp_apply,
      Nat.mod_eq_of_lt (hfits k)]
  · rw [getLsbD_merged]
    simp [State.reduced]

end

/-! VREDADD (R175). -/

theorem State.writes_vredadd_tree {s : State} (hpar : s.core.parity = []) {f : Fmt} (hf : f.isFW = true) (sat : Bool) (d : SReg) (a : VSrc) :
    let e := s.cur.efr
    let add (p q : Nat) : Nat × Flags := s.oneRounding f sat (exAdd s.cur.rmv (Fmt.val f e p) (Fmt.val f e q))
    let node (k h i : Nat) : Nat := treeNode add (fun l => s.elemAt f a l k) h i
    ∃ (c : Word32) (fl : Flags), s.Writes (.vredadd f sat d a) 6 (.s d.toNat (c.setWidth 64)) fl ∧
      (∀ k, k < Fmt.count f e → elem f e c k = node k 6 0) ∧
      ∀ b, fl.getLsbD b = true ↔ ∃ k h i, k < Fmt.count f e ∧ h < 6 ∧ i < 2 ^ (5 - h) ∧ (add (node k h (2 * i)) (node k h (2 * i + 1))).2.getLsbD b = true := by
  intro e add node
  have hnot : f ≠ .i32 := fun h => by cases h ▸ hf
  have htree (k : Nat) := treeSum_nodes add (fun l => s.elemAt f a l k) 6
  have hexec : exec (.vredadd f sat d a) s = finish s (s.vscalar 6 d a (reduceElems f e (treeSum add 6))) := by
    change finish s (s.vscalar 6 d a (reduceElems f e fun bs => if f = .i32 then _ else treeSum add 6 bs)) = _
    simp only [if_neg hnot]
  have hfits (k : Nat) : (treeSum add 6 (s.column f a k)).1 < 2 ^ Fmt.width f e := (htree k).1.trans_lt (arith_lt ..)
  obtain ⟨c, fl, hwrites, helem, hflags⟩ := s.writes_reduceElems hpar hfits hexec
  rw [redPlace, if_neg hnot] at hwrites
  refine ⟨c, fl, hwrites, fun k hk => (helem k hk).trans (htree k).1, fun b => (hflags b).trans ?_⟩
  constructor
  · rintro ⟨k, hk, hb⟩
    obtain ⟨h, i, hh, hi, hb⟩ := ((htree k).2 b).mp hb
    exact ⟨k, h, i, hk, hh, hi, hb⟩
  · rintro ⟨k, h, i, hk, hh, hi, hb⟩
    exact ⟨k, hk, ((htree k).2 b).mpr ⟨h, i, hh, hi, hb⟩⟩

/-- The exact total of the lanes (R175). -/
def State.laneTotal (s : State) (a : VSrc) : Int := ((List.range 64).map (fun l => (s.laneOf a l).toInt)).sum

theorem reduceElems_i32 (efr : BitVec 12) (red : List Nat → Nat × Flags) (cells : List Word32) : reduceElems .i32 efr red cells =
    ((BitVec.ofNat 32 (red (cells.map BitVec.toNat)).1).signExtend 64, (red (cells.map BitVec.toNat)).2) := by
  have helem (c : Word32) : elem .i32 efr c 0 = c.toNat := by
    simp [elem, Fmt.width, Nat.mod_eq_of_lt c.isLt]
  have hcount : upto 0 (Fmt.count .i32 efr) = [0] := by
    simp [Fmt.count, Fmt.width, upto]
  have hpack (n : Nat) : pack .i32 efr [n] = BitVec.ofNat 32 n := by
    apply BitVec.eq_of_toNat_eq
    simp [pack, Fmt.width]
  have hcells : cells.map (fun c => elem .i32 efr c 0) = cells.map BitVec.toNat := List.map_congr_left fun c _ => helem c
  simp only [reduceElems, hcount, List.map_cons, List.map_nil, hcells, hpack, List.foldl_cons, List.foldl_nil]
  exact congrArg (Prod.mk _) (BitVec.zero_or ..)

theorem State.foldl_lanes (s : State) (a : VSrc) :
    ((s.readSrc a).map BitVec.toNat).foldl (fun (t : Int) b => t + (BitVec.ofNat 32 b).toInt) 0 = s.laneTotal a := by
  rw [List.foldl_map, s.readSrc_eq a, State.laneTotal, List.sum_eq_foldl, List.foldl_map, List.foldl_map]
  simp

theorem signExtend_ofInt {v : Int} (hlo : -(2 ^ 31) ≤ v) (hhi : v ≤ 2 ^ 31 - 1) : (BitVec.ofInt 32 v).signExtend 64 = BitVec.ofInt 64 v := by
  apply BitVec.eq_of_toInt_eq
  rw [BitVec.toInt_signExtend_of_le (by decide), BitVec.toInt_ofInt, BitVec.toInt_ofInt, Int.bmod_eq_of_le (by omega) (by omega),
    Int.bmod_eq_of_le (by omega) (by omega)]

section
variable {s : State} (hpar : s.core.parity = []) (d : SReg) (a : VSrc)
include hpar

theorem State.writes_vredadd_total {sat : Bool} {v : Nat} {fl : Flags} (h : arith .i32 s.cur.efr (.ofInt (s.laneTotal a)) .rne sat = (v, fl)) :
    s.Writes (.vredadd .i32 sat d a) 6 (.s d.toNat ((BitVec.ofNat 32 v).signExtend 64)) fl := by
  have hwrites := s.writes_vscalar (L := 6) (d := d) (a := a) (i := .vredadd .i32 sat d a) hpar rfl
  rwa [reduceElems_i32, if_pos rfl, s.foldl_lanes a, h] at hwrites

theorem State.writes_vredadd_wrapped : s.Writes (.vredadd .i32 false d a) 6 (.s d.toNat ((BitVec.ofInt 32 (s.laneTotal a)).signExtend 64)) := by
  rw [← ofNat_intBits]
  exact State.writes_vredadd_total hpar d a (arith_i32_ofInt ..)

theorem State.writes_vredadd_clamped : s.Writes (.vredadd .i32 true d a) 6
    (.s d.toNat (if 2 ^ 31 - 1 < s.laneTotal a then 0x7FFFFFFF else if s.laneTotal a < -(2 ^ 31) then 0xFFFFFFFF80000000 else BitVec.ofInt 64 (s.laneTotal a)))
    (flIf (decide (2 ^ 31 - 1 < s.laneTotal a) || decide (s.laneTotal a < -(2 ^ 31))) flOF) := by
  have hclamps := arith_i32_ofInt s.cur.efr (s.laneTotal a) .rne true
  by_cases hhi : 2 ^ 31 - 1 < s.laneTotal a
  · rw [if_pos hhi, decide_eq_true hhi]
    exact State.writes_vredadd_total hpar d a (hclamps.trans (if_pos hhi))
  · have hbelow := hclamps.trans (if_neg hhi)
    rw [if_neg hhi, decide_eq_false hhi, Bool.false_or]
    by_cases hlo : s.laneTotal a < -(2 ^ 31)
    · rw [if_pos hlo, decide_eq_true hlo]
      exact State.writes_vredadd_total hpar d a (hbelow.trans (if_pos hlo))
    · rw [if_neg hlo, decide_eq_false hlo, ← signExtend_ofInt (not_lt.mp hlo) (not_lt.mp hhi), ← ofNat_intBits]
      exact State.writes_vredadd_total hpar d a (hbelow.trans (if_neg hlo))

end

/-! VREDMAX and VREDMIN (R176). -/

theorem redExt_of_none {f : Fmt} (hf : Fmt.ff f = none) (efr : BitVec 12) (max : Bool) (bs : List Nat) : redExt f efr max bs =
    arith f efr (Fmt.val f efr (foldBest (fun x b =>
      if max then decide (0 < exCmp (Fmt.val f efr x) (Fmt.val f efr b)) else decide (exCmp (Fmt.val f efr x) (Fmt.val f efr b) < 0)) bs 0)) .rne false := by
  rw [redExt, hf]
  rfl

section
variable {f : Fmt} {F : FF} (hF : Fmt.ff f = some F) (efr : BitVec 12) (max : Bool) {bs : List Nat}
include hF

theorem redExt_of_nan (hnan : (bs.map (Fmt.val f efr)).any Ex.isNan = true) :
    redExt f efr max bs = (F.nan.getD 0, nvOf (bs.map (Fmt.val f efr)) ||| flNF) := by
  rw [redExt, hF]
  exact if_pos hnan

theorem redExt_of_number (hnum : ¬(bs.map (Fmt.val f efr)).any Ex.isNan = true) : redExt f efr max bs =
    let v := foldBest (fun x b => if max then decide (0 < exCmpZ (F.value x) (F.value b)) else decide (exCmpZ (F.value x) (F.value b) < 0)) bs 0
    (v, nfOf (F.value v)) := by
  rw [redExt, hF]
  exact if_neg hnum

end

section
variable (s : State) {f : Fmt} (max : Bool) (a : VSrc) (k : Nat)

/-- An integer position: the narrowed value of an extreme element. -/
theorem State.redExt_integer (hf : Fmt.ff f = none) : ∃ w, w < 64 ∧
    redExt f s.cur.efr max (s.column f a k) = arith f s.cur.efr (s.valAt f a w k) .rne false ∧
    ∀ m, m < 64 → Within max (exCmp (s.valAt f a m k) (s.valAt f a w k)) := by
  have hnum (p : Nat) : (Fmt.val f s.cur.efr p).isNan = false := by
    cases f <;> cases hf <;> rfl
  obtain ⟨hmem, hall⟩ := foldBest_extreme (fun p => (Fmt.val f s.cur.efr p).place) (fun x b => exCmp (Fmt.val f s.cur.efr x) (Fmt.val f s.cur.efr b)) max 0
    (s.column_ne_nil f a k) fun x _ y _ => exCmp_compares (Fmt.val_proper f _ x) (Fmt.val_proper f _ y) (hnum x) (hnum y)
  obtain ⟨w, hw, hbest⟩ := State.mem_column.mp hmem
  refine ⟨w, hw, ?_, fun m hm => ?_⟩
  · rw [redExt_of_none hf, State.valAt, hbest]
  · rw [State.valAt, State.valAt, hbest]
    exact hall _ (State.mem_column.mpr ⟨m, hm, rfl⟩)

section
variable {F : FF} (hF : Fmt.ff f = some F)
include hF

/-- A position with a NaN: the canonical NaN with NF, and NV for a signalling one. -/
theorem State.redExt_nan (hnan : (List.range 64).any (fun l => (s.valAt f a l k).isNan) = true) :
    redExt f s.cur.efr max (s.column f a k) = (F.nan.getD 0, nvOf ((List.range 64).map (fun l => s.valAt f a l k)) ||| flNF) := by
  have hany : ((s.column f a k).map (Fmt.val f s.cur.efr)).any Ex.isNan = true := by
    rwa [s.vals_column, List.any_map]
  rw [redExt_of_nan hF _ max hany, s.vals_column]

/-- A position without one: an extreme element with NF for an infinity. -/
theorem State.redExt_number (hnum : (List.range 64).any (fun l => (s.valAt f a l k).isNan) = false) : ∃ w, w < 64 ∧
    redExt f s.cur.efr max (s.column f a k) = (s.elemAt f a w k, nfOf (s.valAt f a w k)) ∧
    ∀ m, m < 64 → Within max (exCmpZ (s.valAt f a m k) (s.valAt f a w k)) := by
  have hany : ¬((s.column f a k).map (Fmt.val f s.cur.efr)).any Ex.isNan = true := by
    rw [s.vals_column, List.any_map]
    exact Bool.not_eq_true _ ▸ hnum
  have hcol (p : Nat) (hp : p ∈ s.column f a k) : (F.value p).isNan = false := by
    obtain ⟨l, hl, rfl⟩ := State.mem_column.mp hp
    rw [← Fmt.val_of_ff hF s.cur.efr]
    exact Bool.eq_false_iff.mpr (List.any_eq_false.mp hnum l (List.mem_range.mpr hl))
  obtain ⟨hmem, hall⟩ := foldBest_extreme (fun p => (F.value p).placeZ) (fun x b => exCmpZ (F.value x) (F.value b)) max 0 (s.column_ne_nil f a k)
    fun x hx y hy => exCmpZ_compares (F.value_proper x) (F.value_proper y) (hcol x hx) (hcol y hy)
  obtain ⟨w, hw, hbest⟩ := State.mem_column.mp hmem
  refine ⟨w, hw, ?_, fun m hm => ?_⟩
  · rw [redExt_of_number hF _ max hany, State.valAt, hbest, Fmt.val_of_ff hF]
  · rw [State.valAt, State.valAt, hbest, Fmt.val_of_ff hF, Fmt.val_of_ff hF]
    exact hall _ (State.mem_column.mpr ⟨m, hm, rfl⟩)

end

/-- What an extreme selects fits its element (R176). -/
theorem State.redExt_lt : (redExt f s.cur.efr max (s.column f a k)).1 < 2 ^ Fmt.width f s.cur.efr := by
  cases hF : Fmt.ff f with
  | none =>
    obtain ⟨w, -, h, -⟩ := s.redExt_integer max a k hF
    exact h ▸ arith_lt ..
  | some F =>
    cases hnan : (List.range 64).any (fun l => (s.valAt f a l k).isNan) with
    | true =>
      obtain ⟨-, -, -, hfits⟩ := Fmt.ff_fits hF
      rw [s.redExt_nan max a k hF hnan, Fmt.width_of_ff hF]
      cases hc : F.nan with
      | none => exact Nat.two_pow_pos _
      | some c => exact unsigned_lt (hfits c hc)
    | false =>
      obtain ⟨w, -, h, -⟩ := s.redExt_number max a k hF hnan
      exact h ▸ elem_lt ..

end

/-- A reduction to the extremes: the cell, and the flags, of the greatest or the least elements of the positions. -/
theorem State.writes_extreme {s : State} (hpar : s.core.parity = []) {i : Instr} {f : Fmt} (max : Bool) {d : SReg} {a : VSrc}
    (hexec : exec i s = finish s (s.vscalar 6 d a (reduceElems f s.cur.efr (redExt f s.cur.efr max)))) :
    let e := s.cur.efr
    let n := Fmt.count f e
    let x := s.valAt f a
    ∃ (c : Word32) (fl : Flags),
      s.Writes i 6 (.s d.toNat (if f = .i32 then c.signExtend 64 else c.setWidth 64)) fl ∧
      (Fmt.ff f = none → ∃ w : Nat → Nat,
        (∀ k, k < n → w k < 64 ∧ elem f e c k = (arith f e (x (w k) k) .rne false).1 ∧ ∀ m, m < 64 → Within max (exCmp (x m k) (x (w k) k))) ∧
        ∀ b, b < 7 → (fl.getLsbD b = true ↔ ∃ k, k < n ∧ (arith f e (x (w k) k) .rne false).2.getLsbD b = true)) ∧
      (Fmt.ff f ≠ none → ∀ b, b < 7 → (fl.getLsbD b = true ↔ ∃ k, k < n ∧
        (if (List.range 64).any (fun l => (x l k).isNan) then nvOf ((List.range 64).map (fun l => x l k)) ||| flNF
         else nfOf (Fmt.val f e (elem f e c k))).getLsbD b = true)) ∧
      ∀ F, Fmt.ff f = some F → ∀ k, k < n →
        if (List.range 64).any (fun l => (x l k).isNan) then elem f e c k = F.nan.getD 0
        else (∃ l, l < 64 ∧ elem f e c k = s.elemAt f a l k) ∧ ∀ l, l < 64 → Within max (exCmpZ (x l k) (Fmt.val f e (elem f e c k))) := by
  intro e n x
  obtain ⟨c, fl, hwrites, helem, hflags⟩ := s.writes_reduceElems hpar (s.redExt_lt max a) hexec
  refine ⟨c, fl, hwrites, fun hf => ?_, fun hf b _ => ?_, fun F hF k hk => ?_⟩
  · choose w hw hred hall using fun k => s.redExt_integer max a k hf
    refine ⟨w, fun k hk => ⟨hw k, ?_, hall k⟩, fun b _ => ?_⟩
    · rw [helem k hk, hred]
    · simpa only [hred] using hflags b
  · obtain ⟨F, hF⟩ := Option.ne_none_iff_exists'.mp hf
    rw [hflags b]
    refine exists_congr fun k => and_congr_right fun hk => ?_
    rw [helem k hk]
    cases hnan : (List.range 64).any (fun l => (x l k).isNan) with
    | true => rw [s.redExt_nan max a k hF hnan, if_pos rfl]
    | false =>
      obtain ⟨w, -, hred, -⟩ := s.redExt_number max a k hF hnan
      rw [hred]
      rfl
  · cases hnan : (List.range 64).any (fun l => (x l k).isNan) with
    | true => rw [if_pos rfl, helem k hk, s.redExt_nan max a k hF hnan]
    | false =>
      obtain ⟨w, hw, hred, hall⟩ := s.redExt_number max a k hF hnan
      rw [if_neg Bool.false_ne_true, helem k hk, hred]
      exact ⟨⟨w, hw, rfl⟩, hall⟩

/-! VARGMAX and VNFCHK (R177, R182). -/

theorem zip_upto_lanes {α : Type} (g : Nat → α) : (upto 0 64).zip ((List.range 64).map g) = (List.range 64).map (fun l => (l, g l)) := by
  rw [upto_eq_range', ← List.range_eq_range', List.zip_map_right, List.zip, List.zipWith_self, List.map_map]
  rfl

theorem argMax_eq (f : Fmt) (cells : List Word32) (hlen : cells.length = 64) : argMax f cells =
    let best := foldBest (fun e b : Nat × Word32 => argBeats (Fmt.val f 0 e.2.toNat) (Fmt.val f 0 b.2.toNat)) ((upto 0 64).zip cells) (0, 0)
    ((if (Fmt.val f 0 best.2.toNat).isNan then 0x7FC00000#32 else best.2) ++ BitVec.ofNat 32 best.1,
      nvOf (cells.map (fun c => Fmt.val f 0 c.toNat)) ||| nfOf (Fmt.val f 0 best.2.toNat)) := by
  cases cells with
  | nil => cases hlen
  | cons c cells => rfl

/-- The first of the best of a list indexed from 0: its index, and what stands before and after it. -/
theorem FirstBest.of_range {α κ : Type} [LinearOrder κ] {key : α → κ} {g : Nat → α} {n : Nat} {r : α} (h : FirstBest key ((List.range n).map g) r) :
    ∃ b, b < n ∧ r = g b ∧ (∀ l, l < n → key (g l) ≤ key r) ∧ ∀ l, l < b → key (g l) < key r := by
  obtain ⟨-, hall⟩ := h.le
  obtain ⟨pre, post, hsplit, hpre, -⟩ := h
  have hlen : n = pre.length + (post.length + 1) := by simpa using congrArg List.length hsplit
  have hat (l : Nat) (hl : l < n) : (pre ++ r :: post)[l]? = some (g l) := by
    rw [← hsplit]
    simp [hl]
  refine ⟨pre.length, by omega, ?_, fun l hl => hall _ (List.mem_map.mpr ⟨l, List.mem_range.mpr hl, rfl⟩), fun l hl => ?_⟩
  · simpa using hat pre.length (by omega)
  · have hl' := hat l (by omega)
    rw [List.getElem?_append_left hl] at hl'
    exact hpre _ (List.mem_of_getElem? hl')

theorem State.writes_vargmax {s : State} (hpar : s.core.parity = []) (f : Fmt) (d : SReg) (a : VSrc) :
    let v (l : Nat) : Ex := Fmt.val f 0 (s.laneOf a l).toNat
    ∃ b, b < 64 ∧ (∀ l, l < 64 → ¬argBeats (v l) (v b) = true) ∧ (∀ l, l < b → argBeats (v b) (v l) = true) ∧
      s.Writes (.vargmax f d a) 6 (.s d.toNat ((if (v b).isNan then 0x7FC00000#32 else s.laneOf a b) ++ BitVec.ofNat 32 b))
        (nvOf ((List.range 64).map v) ||| nfOf (v b)) := by
  intro v
  have hwrites := s.writes_vscalar (L := 6) (d := d) (a := a) (i := .vargmax f d a) hpar rfl
  have hbeats (i j : Nat) : argBeats (v i) (v j) = true ↔ (v j).placeZ < (v i).placeZ := argBeats_iff (Fmt.val_proper ..) (Fmt.val_proper ..)
  have hbest := firstBest_foldBest (l := (List.range 64).map (fun l => (l, s.laneOf a l))) (fun e => (Fmt.val f 0 e.2.toNat).placeZ)
    (fun e b => argBeats (Fmt.val f 0 e.2.toNat) (Fmt.val f 0 b.2.toNat)) (0, 0) (List.ne_nil_of_length_pos (by simp))
    fun x _ y _ => argBeats_iff (Fmt.val_proper ..) (Fmt.val_proper ..)
  obtain ⟨b, hb, heq, hall, hbefore⟩ := hbest.of_range
  rw [heq] at hall hbefore
  rw [argMax_eq f _ (s.length_readSrc a), s.readSrc_eq a, zip_upto_lanes, heq, List.map_map] at hwrites
  exact ⟨b, hb, fun l hl => mt (hbeats l b).mp (hall l hl).not_gt, fun l hl => (hbeats b l).mpr (hbefore l hl), hwrites⟩

/-- How many elements of the lanes are no finite numbers (R182). -/
def nonFiniteCount (f : Fmt) (efr : BitVec 12) (cells : List Word32) : Nat :=
  ((cells.map (elems f efr)).flatten.filter (fun b => !(Fmt.val f efr b).isFin)).length

theorem State.nonFiniteCount_lanes (s : State) (f : Fmt) (a : VSrc) : nonFiniteCount f s.cur.efr (s.readSrc a) =
    ((List.range 64).map (fun l => (List.range (Fmt.count f s.cur.efr)).countP (fun k => !(s.valAt f a l k).isFin))).sum := by
  rw [nonFiniteCount, ← List.countP_eq_length_filter, List.countP_flatten, s.readSrc_eq a, List.map_map, List.map_map]
  refine congrArg List.sum (List.map_congr_left fun l _ => ?_)
  rw [Function.comp_apply, Function.comp_apply, elems, List.countP_map, upto_eq_range', ← List.range_eq_range']
  rfl

theorem State.writes_vnfchk {s : State} (hpar : s.core.parity = []) (f : Fmt) (d : SReg) (a : VSrc) :
    let cnt := nonFiniteCount f s.cur.efr (s.readSrc a)
    s.Writes (.vnfchk f d a) 4 (.s d.toNat (BitVec.ofNat 64 cnt)) (flIf (cnt ≠ 0) flNF) :=
  s.writes_vscalar (g := fun cells => (BitVec.ofNat 64 (nonFiniteCount f s.cur.efr cells), flIf (nonFiniteCount f s.cur.efr cells ≠ 0) flNF)) hpar rfl

/-- Settles O24: the tree and the total, the two extremes, VARGMAX and VNFCHK. -/
theorem vectorReduce : Obligations.VectorReduce := by
  unfold Obligations.VectorReduce
  intro s f sat d a hpar e n x flagged
  refine ⟨fun hf => ?_, ?_, State.writes_extreme hpar true rfl, State.writes_extreme hpar false rfl, fun _ => ?_, ?_⟩
  · obtain ⟨c, fl, hwrites, hroot, hflags⟩ := State.writes_vredadd_tree hpar hf sat d a
    exact ⟨c, fl, hwrites, hroot, fun b _ => hflags b⟩
  · exact ⟨State.writes_vredadd_wrapped hpar d a, State.writes_vredadd_clamped hpar d a⟩
  · intro v above
    obtain ⟨b, hb, hgreatest, hlowest, hwrites⟩ := State.writes_vargmax hpar f d a
    have habove (i j : Nat) : above i j ↔ argBeats (v i) (v j) = true := by
      cases hi : (v i).isNan <;> cases hj : (v j).isNan <;> simp [above, argBeats, hi, hj]
    exact ⟨b, hb, fun l hl => mt (habove l b).mp (hgreatest l hl), fun l hl => (habove b l).mpr (hlowest l hl), hwrites⟩
  · have hwrites := State.writes_vnfchk hpar f d a
    rwa [s.nonFiniteCount_lanes] at hwrites

end Sys2Proof.Machine
end

section
/-! The S slot's integers (R139-R141): words as the numbers they stand for, the model's results over those numbers as operations on words, and the
statements `Obligations.IntegerArithmetic`, `Obligations.Compare` and `Obligations.SelectPredicates`. -/

namespace Sys2Proof.Machine

/-! Words as numbers. -/

/-- The number that a word stands for by its signedness (R139). -/
def wordInt {n : Nat} (u : Bool) (v : BitVec n) : Int := if u then v.toNat else v.toInt

theorem intArg_wide (u : Bool) (v : Word64) : intArg u false v = wordInt u v := rfl

theorem intArg_narrow (u : Bool) (v : Word64) : intArg u true v = wordInt u (lo32 v) := rfl

theorem intRes_wide (u : Bool) (r : Int) : intRes u false r = BitVec.ofInt 64 r := rfl

theorem intRes_narrow (u : Bool) (r : Int) : intRes u true r = ext32 u (BitVec.ofInt 32 r) := rfl

section
variable {n : Nat} (u : Bool) (x y : BitVec n)

@[simp] theorem ofInt_wordInt : BitVec.ofInt n (wordInt u x) = x := by
  cases u with
  | false => exact BitVec.ofInt_toInt
  | true => simp [wordInt]

theorem wordInt_eq_zero_iff : wordInt u x = 0 ↔ x = 0 := by
  cases u with
  | false => exact ⟨fun h => BitVec.eq_of_toInt_eq (h.trans BitVec.toInt_zero.symm), fun h => h ▸ BitVec.toInt_zero⟩
  | true => exact Int.natCast_eq_zero.trans (BitVec.toNat_inj (y := 0))

theorem wordInt_le_iff : wordInt u x ≤ wordInt u y ↔ (if u then x.ule y else x.sle y) = true := by
  cases u <;> simp [wordInt, BitVec.ule_eq_decide, BitVec.sle_eq_decide]

/-! Sums and products modulo 2^n. -/

theorem ofInt_add_wordInt : BitVec.ofInt n (wordInt u x + wordInt u y) = x + y := by
  rw [BitVec.ofInt_add, ofInt_wordInt, ofInt_wordInt]

theorem ofInt_sub_wordInt : BitVec.ofInt n (wordInt u x - wordInt u y) = x - y := by
  rw [Int.sub_eq_add_neg, BitVec.ofInt_add, BitVec.ofInt_neg, ofInt_wordInt, ofInt_wordInt, BitVec.sub_eq_add_neg]

theorem ofInt_mul_wordInt : BitVec.ofInt n (wordInt u x * wordInt u y) = x * y := by
  rw [BitVec.ofInt_mul, ofInt_wordInt, ofInt_wordInt]

/-- The high half of a number's double word. -/
theorem extractHigh_ofInt (m : Int) : (BitVec.ofInt (2 * n) m).extractLsb' n n = BitVec.ofInt n (m / 2 ^ n) := by
  have hne : (2 : Int) ^ n ≠ 0 := by positivity
  have hdouble : ((2 ^ (2 * n) : Nat) : Int) = 2 ^ n * 2 ^ n := by push_cast; ring
  obtain ⟨k, hk⟩ := Int.eq_ofNat_of_zero_le (Int.emod_nonneg m (mul_ne_zero hne hne))
  have hhigh : m / 2 ^ n = (k / 2 ^ n : Nat) + 2 ^ n * (m / (2 ^ n * 2 ^ n)) := by
    conv_lhs => rw [← Int.emod_add_mul_ediv m (2 ^ n * 2 ^ n), hk, mul_assoc, Int.add_mul_ediv_left _ _ hne]
    push_cast
    rfl
  refine BitVec.eq_of_toNat_eq ?_
  rw [BitVec.extractLsb'_toNat, BitVec.toNat_ofInt, BitVec.toNat_ofInt, Nat.shiftRight_eq_div_pow, hdouble, hk, hhigh, Nat.cast_pow, Nat.cast_ofNat,
    Int.add_mul_emod_self_left]
  rfl

theorem ofInt_mulh_unsigned : BitVec.ofInt n (wordInt true x * wordInt true y / 2 ^ n) = BitVec.ofNat n (x.toNat * y.toNat / 2 ^ n) := by
  rw [← BitVec.ofInt_natCast]
  push_cast
  rfl

theorem ofInt_mulh_signed : BitVec.ofInt n (wordInt false x * wordInt false y / 2 ^ n) =
    (x.signExtend (2 * n) * y.signExtend (2 * n)).extractLsb' n n := by
  rw [← extractHigh_ofInt, BitVec.ofInt_mul]
  rfl

/-! Quotients and remainders. -/

theorem ofInt_tdiv_wordInt : BitVec.ofInt n ((wordInt u x).tdiv (wordInt u y)) = if u then x / y else x.sdiv y := by
  cases u with
  | false => exact BitVec.eq_of_toInt_eq ((BitVec.toInt_ofInt _).trans (BitVec.toInt_sdiv x y).symm)
  | true =>
    rw [if_pos rfl, ← ofInt_wordInt true (x / y)]
    exact congrArg (BitVec.ofInt n) (Int.ofNat_tdiv ..).symm

theorem ofInt_tmod_wordInt : BitVec.ofInt n ((wordInt u x).tmod (wordInt u y)) = if u then x % y else x.srem y := by
  cases u with
  | false =>
    rw [if_neg Bool.false_ne_true, ← ofInt_wordInt false (x.srem y)]
    exact congrArg (BitVec.ofInt n) (BitVec.toInt_srem x y).symm
  | true =>
    rw [if_pos rfl, ← ofInt_wordInt true (x % y)]
    exact congrArg (BitVec.ofInt n) (Int.ofNat_tmod ..).symm

/-- The quotient with R139's answer to a zero divisor. -/
theorem ofInt_div_wordInt : BitVec.ofInt n (if wordInt u y = 0 then 2 ^ n - 1 else (wordInt u x).tdiv (wordInt u y)) =
    if y = 0 then BitVec.allOnes n else if u then x / y else x.sdiv y := by
  have hones : BitVec.ofInt n (2 ^ n - 1) = BitVec.allOnes n := by
    rw [← ofInt_wordInt true (BitVec.allOnes n), wordInt, if_pos rfl, BitVec.toNat_allOnes, Nat.cast_sub Nat.one_le_two_pow, Nat.cast_pow]
    rfl
  rw [apply_ite (BitVec.ofInt n), hones, ofInt_tdiv_wordInt]
  simp only [wordInt_eq_zero_iff]

/-- The remainder with R139's answer to a zero divisor. -/
theorem ofInt_intRem_wordInt : BitVec.ofInt n (intRem (wordInt u x) (wordInt u y)) = if y = 0 then x else if u then x % y else x.srem y := by
  rw [intRem, apply_ite (BitVec.ofInt n), ofInt_wordInt, ← Int.tmod_def, ofInt_tmod_wordInt]
  simp only [wordInt_eq_zero_iff]

/-! Shifts, minimum and maximum. -/

theorem ofInt_shl_wordInt (k : Nat) : BitVec.ofInt n (wordInt u x * 2 ^ k) = x <<< k := by
  have htwo : BitVec.ofInt n (2 ^ k) = BitVec.twoPow n k := by
    refine BitVec.eq_of_toNat_eq ?_
    rw [BitVec.toNat_ofInt, BitVec.toNat_twoPow]
    rfl
  rw [BitVec.ofInt_mul, ofInt_wordInt, htwo, BitVec.shiftLeft_eq_mul_twoPow]

theorem ofInt_shr_wordInt (k : Nat) : BitVec.ofInt n (wordInt u x / 2 ^ k) = if u then x >>> k else x.sshiftRight k := by
  cases u with
  | false =>
    rw [if_neg Bool.false_ne_true, BitVec.sshiftRight_eq, Int.shiftRight_eq_div_pow]
    rfl
  | true =>
    rw [if_pos rfl, ← ofInt_wordInt true (x >>> k)]
    simp [wordInt, Nat.shiftRight_eq_div_pow]

theorem ofInt_min_wordInt : BitVec.ofInt n (if wordInt u x ≤ wordInt u y then wordInt u x else wordInt u y) =
    if (if u then x.ule y else x.sle y) then x else y := by
  rw [apply_ite (BitVec.ofInt n), ofInt_wordInt, ofInt_wordInt]
  simp only [wordInt_le_iff]

theorem ofInt_max_wordInt : BitVec.ofInt n (if wordInt u y ≤ wordInt u x then wordInt u x else wordInt u y) =
    if (if u then y.ule x else y.sle x) then x else y := by
  rw [apply_ite (BitVec.ofInt n), ofInt_wordInt, ofInt_wordInt]
  simp only [wordInt_le_iff]

/-- The conditions of CMP over numbers are those over words (R140). -/
theorem condHolds_wordInt (c : Cond) :
    condHolds c (wordInt false x) (wordInt false y) (wordInt true x).toNat (wordInt true y).toNat = cmpHolds c x y := by
  cases c with
  | eq => exact Bool.eq_iff_iff.mpr (beq_iff_eq.trans (BitVec.toNat_inj.trans beq_iff_eq.symm))
  | ne => exact Bool.eq_iff_iff.mpr (bne_iff_ne.trans (BitVec.toNat_inj.not.trans bne_iff_ne.symm))
  | lt => rfl
  | ge => exact (decide_eq_decide.mpr Int.not_lt.symm).trans decide_not
  | ltu => rfl
  | geu => exact (decide_eq_decide.mpr Nat.not_lt.symm).trans decide_not
  | le => rfl
  | leu => rfl

end

/-! What the integer instructions leave on its way. -/

section
variable {s : State} {i : Instr} {L : Nat} {u : Bool} {d : SReg} {a b : SOp}

theorem State.writes_int64 {f : Int → Int → Int} {v : Word64} (hexec : exec i s = .next (s.intOp L u false d a b f))
    (h : BitVec.ofInt 64 (f (wordInt u (s.cur.readOp a)) (wordInt u (s.cur.readOp b))) = v) : s.Writes i L (.s d.toNat v) := by
  rw [State.intOp, intArg_wide, intArg_wide, intRes_wide, h] at hexec
  exact hexec

theorem State.writes_int32 {f : Int → Int → Int} {v : Word32} (hexec : exec i s = .next (s.intOp L u true d a b f))
    (h : BitVec.ofInt 32 (f (wordInt u (lo32 (s.cur.readOp a))) (wordInt u (lo32 (s.cur.readOp b)))) = v) :
    s.Writes i L (.s d.toNat (ext32 u v)) := by
  rw [State.intOp, intArg_narrow, intArg_narrow, intRes_narrow, h] at hexec
  exact hexec

theorem State.writes_bit64 {f : Word64 → Word64 → Word64} (hexec : exec i s = .next (s.bitOp u false d a b f)) :
    s.Writes i 1 (.s d.toNat (f (s.cur.readOp a) (s.cur.readOp b))) := by
  rw [State.bitOp, intRes_wide, BitVec.ofInt_toInt] at hexec
  exact hexec

theorem State.writes_bit32 {f : Word64 → Word64 → Word64} {v : Word32} (hexec : exec i s = .next (s.bitOp u true d a b f))
    (h : lo32 (f (s.cur.readOp a) (s.cur.readOp b)) = v) : s.Writes i 1 (.s d.toNat (ext32 u v)) := by
  have hlow (w : Word64) : BitVec.ofInt 32 w.toInt = lo32 w := BitVec.signExtend_eq_setWidth_of_le w (by decide)
  rw [State.bitOp, intRes_narrow, hlow, h] at hexec
  exact hexec

end

/-- Settles O9: each form by its number modulo 2^W. -/
theorem integerArithmetic : Obligations.IntegerArithmetic := by
  unfold Obligations.IntegerArithmetic
  refine ⟨fun s u d a b => ?_, fun s d a b => ?_, fun s u d a b => ?_⟩
  · exact ⟨State.writes_int64 rfl (ofInt_add_wordInt ..), State.writes_int32 rfl (ofInt_add_wordInt ..),
      State.writes_int64 rfl (ofInt_sub_wordInt ..), State.writes_int32 rfl (ofInt_sub_wordInt ..),
      State.writes_int64 rfl (ofInt_mul_wordInt ..), State.writes_int32 rfl (ofInt_mul_wordInt ..),
      State.writes_int64 rfl (ofInt_mulh_unsigned ..), State.writes_int32 rfl (ofInt_mulh_unsigned ..),
      State.writes_int64 rfl (ofInt_mulh_signed ..), State.writes_int32 rfl (ofInt_mulh_signed ..)⟩
  · exact ⟨State.writes_int64 rfl (ofInt_div_wordInt false ..), State.writes_int64 rfl (ofInt_div_wordInt true ..),
      State.writes_int32 rfl (ofInt_div_wordInt false ..), State.writes_int32 rfl (ofInt_div_wordInt true ..),
      State.writes_int64 rfl (ofInt_intRem_wordInt false ..), State.writes_int64 rfl (ofInt_intRem_wordInt true ..),
      State.writes_int32 rfl (ofInt_intRem_wordInt false ..), State.writes_int32 rfl (ofInt_intRem_wordInt true ..)⟩
  · exact ⟨State.writes_bit64 rfl, State.writes_bit32 rfl BitVec.setWidth_and, State.writes_bit64 rfl, State.writes_bit32 rfl BitVec.setWidth_or,
      State.writes_bit64 rfl, State.writes_bit32 rfl BitVec.setWidth_xor,
      State.writes_int64 rfl (ofInt_shl_wordInt ..), State.writes_int32 rfl (ofInt_shl_wordInt ..),
      State.writes_int64 rfl (ofInt_shr_wordInt ..), State.writes_int32 rfl (ofInt_shr_wordInt ..),
      State.writes_int64 rfl (ofInt_min_wordInt ..), State.writes_int32 rfl (ofInt_min_wordInt ..),
      State.writes_int64 rfl (ofInt_max_wordInt ..), State.writes_int32 rfl (ofInt_max_wordInt ..)⟩

/-- CMP at either width. -/
theorem State.writes_cmp (s : State) (c : Cond) (w : Bool) (t : Dst) (a b : SOp) :
    s.Writes (.cmp c w t a b) 1 (dstTgt t
      (if w then cmpHolds c (lo32 (s.cur.readOp a)) (lo32 (s.cur.readOp b)) else cmpHolds c (s.cur.readOp a) (s.cur.readOp b))) := by
  cases w with
  | false => exact condHolds_wordInt (s.cur.readOp a) (s.cur.readOp b) c ▸ rfl
  | true => exact condHolds_wordInt (lo32 (s.cur.readOp a)) (lo32 (s.cur.readOp b)) c ▸ rfl

/-- Settles O10: by the target that a destination names. -/
theorem compare : Obligations.Compare := by
  unfold Obligations.Compare
  intro s c r p a b
  exact ⟨s.writes_cmp c false (.reg r) a b, s.writes_cmp c true (.reg r) a b, s.writes_cmp c false (.pred p) a b, s.writes_cmp c true (.pred p) a b,
    fun _ => rfl⟩

theorem State.writes_plog (s : State) (f : PFun) (r p q : PReg) :
    s.Writes (.plog f r p q) 1 (.p r.toNat (plogFn f (s.cur.readP p) (s.cur.readP q))) := rfl

theorem plogFn_xor_self (a : Bool) : plogFn .xor a a = false := bne_self_eq_false a

theorem plogFn_xnor (a b : Bool) : plogFn .xnor a b = !(a ^^ b) := by cases a <;> cases b <;> rfl

/-- Settles O11, function by function. -/
theorem selectPredicates : Obligations.SelectPredicates := by
  unfold Obligations.SelectPredicates
  intro s p q r d a b
  exact ⟨rfl, s.writes_plog .and r p q, s.writes_plog .or r p q, s.writes_plog .xor r p q, s.writes_plog .andn r p q, s.writes_plog .orn r p q,
    s.writes_plog .nand r p q, s.writes_plog .nor r p q, plogFn_xnor _ _ ▸ s.writes_plog .xnor r p q, s.writes_plog .andn 3 0 3,
    plogFn_xor_self (s.cur.readP 3) ▸ s.writes_plog .xor 3 3 3⟩

end Sys2Proof.Machine
end

section
/-! Constants, bits and line indexes of the S slot (R102, R142-R144, R160): the field of BFX, the counts of BITC, and the statement
`Obligations.ConstantsBitsIndexes`. -/

namespace Sys2Proof.Machine

/-! The field of BFX (R143). -/

/-- The lowest bit that a selector names. -/
def bfxLo (sel : Word64) : Nat := sel.toNat % 64

/-- The length that a selector names, cut at bit 63. -/
def bfxLen (sel : Word64) : Nat := min (sel.toNat / 64 % 128) (64 - bfxLo sel)

/-- The bits that BFX takes. -/
def bfxField (v sel : Word64) : BitVec (bfxLen sel) := v.extractLsb' (bfxLo sel) (bfxLen sel)

theorem bfx_cases (sx : Bool) (v sel : Word64) : bfx sx v sel =
    if bfxLen sel = 0 then 0
    else if sx && (bfxField v sel).toNat.testBit (bfxLen sel - 1) then BitVec.ofInt 64 (((bfxField v sel).toNat : Int) - 2 ^ bfxLen sel)
    else BitVec.ofNat 64 (bfxField v sel).toNat := by
  simp only [bfxField, BitVec.extractLsb'_toNat, bfxLen, bfxLo, ← Nat.shiftRight_eq_div_pow sel.toNat 6]
  rfl

theorem bfx_empty (sx : Bool) (v : Word64) {sel : Word64} (h : bfxLen sel = 0) : bfx sx v sel = 0 := by
  rw [bfx_cases, if_pos h]

/-- A field that is not empty is extended. -/
theorem bfx_field (sx : Bool) (v : Word64) {sel : Word64} (h : bfxLen sel ≠ 0) :
    bfx sx v sel = if sx then (bfxField v sel).signExtend 64 else (bfxField v sel).setWidth 64 := by
  have hmsb : (bfxField v sel).toNat.testBit (bfxLen sel - 1) = (bfxField v sel).msb := (BitVec.msb_eq_getLsbD_last _).symm
  rw [bfx_cases, if_neg h, hmsb]
  cases sx with
  | false => exact BitVec.ofNat_toNat ..
  | true =>
    rw [if_pos rfl, BitVec.signExtend, BitVec.toInt_eq_msb_cond]
    cases (bfxField v sel).msb <;> simp

theorem getLsbD_bfx_unsigned (v sel : Word64) {i : Nat} (hi : i < 64) :
    (bfx false v sel).getLsbD i = (decide (i < bfxLen sel) && v.getLsbD (bfxLo sel + i)) := by
  by_cases h : bfxLen sel = 0
  · simp [bfx_empty _ _ h, h]
  · rw [bfx_field _ _ h, bfxField]
    simp [hi]

theorem getLsbD_bfx_signed (v sel : Word64) {i : Nat} (hi : i < 64) :
    (bfx true v sel).getLsbD i = (decide (0 < bfxLen sel) && v.getLsbD (bfxLo sel + min i (bfxLen sel - 1))) := by
  by_cases h : bfxLen sel = 0
  · simp [bfx_empty _ _ h, h]
  · rw [bfx_field _ _ h, bfxField, if_pos rfl, BitVec.getLsbD_signExtend, BitVec.msb_eq_getLsbD_last]
    by_cases hil : i < bfxLen sel
    · simp [hi, hil, Nat.pos_of_ne_zero h, Nat.min_eq_left (Nat.le_sub_one_of_lt hil)]
    · have hlast : min i (bfxLen sel - 1) = bfxLen sel - 1 := by omega
      simp [hi, hil, Nat.pos_of_ne_zero h, hlast]

/-! The counts of BITC (R143). -/

/-- How many of the first bits of a sequence are false, and that a true one ends them. -/
theorem leadingFalse (g : Nat → Bool) (n : Nat) :
    let k := (((List.range n).map g).takeWhile (fun b => !b)).length
    k ≤ n ∧ (∀ i, i < k → g i = false) ∧ (k < n → g k = true) := by
  intro k
  have hk : k = ((List.range n).map g).findIdx (fun b => b) := by
    simp only [k, List.takeWhile_eq_take_findIdx_not, Bool.not_not, List.length_take, List.findIdx_le_length, min_eq_left]
  have hle : k ≤ n := hk ▸ List.findIdx_le_length.trans (by simp)
  refine ⟨hle, fun i hi => ?_, fun hlt => ?_⟩
  · rw [hk] at hi
    simpa only [List.getElem_map, List.getElem_range] using List.not_of_lt_findIdx hi
  · have hend := List.findIdx_getElem (p := fun b => b) (xs := (List.range n).map g) (w := by simpa [← hk] using hlt)
    simpa [← hk] using hend

theorem map_upto_zero {α : Type} (g : Nat → α) (n : Nat) : (upto 0 n).map g = (List.range n).map g := by
  rw [upto_eq_range', ← List.range_eq_range']

theorem reverse_map_range {α : Type} (g : Nat → α) (n : Nat) : ((List.range n).map g).reverse = (List.range n).map (fun i => g (n - 1 - i)) :=
  List.ext_getElem (by simp) fun i _ _ => by simp

theorem bitCount_ctz (w : Bool) (v : Word64) :
    bitCount .ctz w v ≤ intW w ∧ (∀ i, i < bitCount .ctz w v → v.getLsbD i = false) ∧
      (bitCount .ctz w v < intW w → v.getLsbD (bitCount .ctz w v) = true) := by
  rw [bitCount, map_upto_zero]
  exact leadingFalse v.getLsbD (intW w)

theorem bitCount_clz (w : Bool) (v : Word64) :
    bitCount .clz w v ≤ intW w ∧ (∀ i, intW w - bitCount .clz w v ≤ i → i < intW w → v.getLsbD i = false) ∧
      (bitCount .clz w v < intW w → v.getLsbD (intW w - 1 - bitCount .clz w v) = true) := by
  rw [bitCount, map_upto_zero, reverse_map_range]
  obtain ⟨hle, hfalse, hend⟩ := leadingFalse (fun i => v.getLsbD (intW w - 1 - i)) (intW w)
  refine ⟨hle, fun i hlo hhi => ?_, hend⟩
  have hback : intW w - 1 - (intW w - 1 - i) = i := by omega
  exact hback ▸ hfalse (intW w - 1 - i) (by omega)

theorem bitCount_popc (w : Bool) (v : Word64) : bitCount .popc w v = (List.range (intW w)).countP (fun i => v.getLsbD i) := by
  rw [bitCount, map_upto_zero, ← List.countP_eq_length_filter, List.countP_map]
  rfl

/-! Line indexes (R102, R144). -/

/-- One step of each register l0 to l3. -/
def State.lineSteps (s : State) : List Land := (List.range 4).map (fun i => ⟨s.cur.pos + 1, s.slotRank, s.cur.pos, .l i (lixStep (s.cur.l.get i)), 0⟩)

/-- LIXSTEP.ALL leaves them all on their way. -/
theorem exec_lixstepAll (s : State) : exec .lixstepAll s = .next { s with cur := { s.cur with land := s.cur.land ++ s.lineSteps } } := by
  have hsteps : (upto 0 4).foldl (fun t i => t.out 1 (.l i (lixStep (s.cur.l.get i)))) s =
      { s with cur := { s.cur with land := s.cur.land ++ s.lineSteps } } := by
    simp [upto, State.out, State.lineSteps, List.range_succ]
  exact congrArg Host.Outcome.next hsteps

/-- Settles O12, form by form. -/
theorem constantsBitsIndexes : Obligations.ConstantsBitsIndexes := by
  unfold Obligations.ConstantsBitsIndexes
  refine ⟨fun s w k d v a b => ?_, fun s l a b => ⟨rfl, rfl, exec_lixstepAll s⟩⟩
  intro x y lo len W
  exact ⟨rfl, rfl, rfl, ⟨bfx false x y, rfl, fun i hi => getLsbD_bfx_unsigned x y hi⟩, ⟨bfx true x y, rfl, fun i hi => getLsbD_bfx_signed x y hi⟩,
    ⟨bitCount .clz w x, rfl, bitCount_clz w x⟩, ⟨bitCount .ctz w x, rfl, bitCount_ctz w x⟩, bitCount_popc w x ▸ rfl, rfl⟩

end Sys2Proof.Machine
end

section
/-! FP32 in the S slot (R145-R147): what FMINMAX selects, what FCMP holds, and the statement `Obligations.ScalarFloat`. -/

namespace Sys2Proof.Machine

theorem nvOf_single (x : Ex) : nvOf [x] = flIf x.isSig flNV := by
  simp [nvOf]

theorem nvOf_pair (x y : Ex) : nvOf [x, y] = flIf (x.isSig || y.isSig) flNV := by
  simp [nvOf]

/-! The lesser and the greater (R145). -/

section
variable {F : FF} {a b : Nat} (nan : Nat) (max : Bool)

theorem minMaxBits_nan (h : ((F.value a).isNan || (F.value b).isNan) = true) :
    minMaxBits F nan max a b = (nan, flIf ((F.value a).isSig || (F.value b).isSig) flNV ||| flNF) := by
  rw [← nvOf_pair]
  exact if_pos h

/-- The one of two that is chosen where neither is a NaN. -/
def minMaxPick (F : FF) (max : Bool) (a b : Nat) : Nat :=
  if max then (if exCmpZ (F.value a) (F.value b) < 0 then b else a) else (if 0 < exCmpZ (F.value a) (F.value b) then b else a)

theorem minMaxPick_mem (F : FF) (a b : Nat) : minMaxPick F max a b = a ∨ minMaxPick F max a b = b := by
  unfold minMaxPick
  split_ifs <;> simp

theorem minMaxBits_number (h : ((F.value a).isNan || (F.value b).isNan) = false) :
    minMaxBits F nan max a b = (minMaxPick F max a b, flIf (!(F.value (minMaxPick F max a b)).isFin) flNF) :=
  if_neg (Bool.eq_false_iff.mp h)

/-- What is chosen is no less, or no greater, than both. -/
theorem minMaxPick_extreme (h : ((F.value a).isNan || (F.value b).isNan) = false) :
    Within (!max) (exCmpZ (F.value (minMaxPick F max a b)) (F.value a)) ∧ Within (!max) (exCmpZ (F.value (minMaxPick F max a b)) (F.value b)) := by
  obtain ⟨ha, hb⟩ := Bool.or_eq_false_iff.mp h
  have hcmp {x y : Nat} (hx : (F.value x).isNan = false) (hy : (F.value y).isNan = false) :=
    exCmpZ_compares (F.value_proper x) (F.value_proper y) hx hy
  cases max with
  | false =>
    have hle {x y : Nat} (hx : (F.value x).isNan = false) (hy : (F.value y).isNan = false) (hxy : (F.value x).placeZ ≤ (F.value y).placeZ) :
        exCmpZ (F.value x) (F.value y) ≤ 0 := not_lt.mp (mt (hcmp hx hy).pos_iff.mp hxy.not_gt)
    by_cases hab : 0 < exCmpZ (F.value a) (F.value b)
    · rw [minMaxPick, if_neg Bool.false_ne_true, if_pos hab]
      exact ⟨hle hb ha ((hcmp ha hb).pos_iff.mp hab).le, hle hb hb le_rfl⟩
    · rw [minMaxPick, if_neg Bool.false_ne_true, if_neg hab]
      exact ⟨hle ha ha le_rfl, not_lt.mp hab⟩
  | true =>
    have hge {x y : Nat} (hx : (F.value x).isNan = false) (hy : (F.value y).isNan = false) (hxy : (F.value y).placeZ ≤ (F.value x).placeZ) :
        0 ≤ exCmpZ (F.value x) (F.value y) := not_lt.mp (mt (hcmp hx hy).neg_iff.mp hxy.not_gt)
    by_cases hab : exCmpZ (F.value a) (F.value b) < 0
    · rw [minMaxPick, if_pos rfl, if_pos hab]
      exact ⟨hge hb ha ((hcmp ha hb).neg_iff.mp hab).le, hge hb hb le_rfl⟩
    · rw [minMaxPick, if_pos rfl, if_neg hab]
      exact ⟨hge ha ha le_rfl, not_lt.mp hab⟩

end

section
variable {s : State} (max : Bool) (d : SReg) {a b : SReg}

theorem State.writes_fminmax (s : State) (a b : SReg) : let z := minMaxBits fp32 0x7FC00000 max (s.cur.low32 a).toNat (s.cur.low32 b).toNat
    s.Writes (.fminmax max d a b) 4 (.s d.toNat (BitVec.ofNat 64 z.1)) z.2 := rfl

theorem State.writes_fminmax_nan (h : ((s.cur.fp a).isNan || (s.cur.fp b).isNan) = true) :
    s.Writes (.fminmax max d a b) 4 (.s d.toNat (BitVec.ofNat 64 0x7FC00000)) (flIf ((s.cur.fp a).isSig || (s.cur.fp b).isSig) flNV ||| flNF) := by
  have hwrites := s.writes_fminmax max d a b
  rwa [minMaxBits_nan _ max h] at hwrites

/-- FMINMAX of two numbers writes one of its operands, which is extreme. -/
theorem State.writes_fminmax_number (h : ((s.cur.fp a).isNan || (s.cur.fp b).isNan) = false) : ∃ z, (z = a ∨ z = b) ∧
    Within (!max) (exCmpZ (s.cur.fp z) (s.cur.fp a)) ∧ Within (!max) (exCmpZ (s.cur.fp z) (s.cur.fp b)) ∧
    s.Writes (.fminmax max d a b) 4 (.s d.toNat (BitVec.ofNat 64 (s.cur.low32 z).toNat)) (flIf (!(s.cur.fp z).isFin) flNF) := by
  have hwrites := s.writes_fminmax max d a b
  rw [minMaxBits_number _ max h] at hwrites
  obtain ⟨hza, hzb⟩ := minMaxPick_extreme max h
  rcases minMaxPick_mem max fp32 (s.cur.low32 a).toNat (s.cur.low32 b).toNat with hz | hz
  · rw [hz] at hza hzb hwrites
    exact ⟨a, .inl rfl, hza, hzb, hwrites⟩
  · rw [hz] at hza hzb hwrites
    exact ⟨b, .inr rfl, hza, hzb, hwrites⟩

end

/-! Comparing and converting (R146, R147). -/

theorem State.writes_fcmp (s : State) (c : FCond) (t : Dst) (a b : SReg) :
    s.Writes (.fcmp c t a b) 4 (dstTgt t (fcondHolds c (s.cur.fp a) (s.cur.fp b))) (flIf ((s.cur.fp a).isSig || (s.cur.fp b).isSig) flNV) :=
  nvOf_pair (s.cur.fp a) (s.cur.fp b) ▸ rfl

theorem styBits_eq (t : STy) (n : Nat) : styBits t n = if t = .i32 then (BitVec.ofNat 32 n).signExtend 64 else BitVec.ofNat 64 n := by
  cases t <;> rfl

theorem State.writes_fcvt (s : State) (td ts : STy) (sat : Bool) (d a : SReg) :
    let x := styValue ts (s.cur.readS a)
    let z := narrow (styNT td) x s.cur.rms sat
    s.Writes (.fcvt td ts sat d a) 4 (.s d.toNat (if td = .i32 then (BitVec.ofNat 32 z.1).signExtend 64 else BitVec.ofNat 64 z.1))
      (z.2 ||| flIf x.isSig flNV) := by
  intro x z
  rw [← styBits_eq, ← nvOf_single]
  rfl

/-- Settles O14, form by form. -/
theorem scalarFloat : Obligations.ScalarFloat := by
  unfold Obligations.ScalarFloat
  intro s sat d a b q c ts td v one puts nan low
  refine ⟨rfl, rfl, rfl, rfl, rfl, fun h => ⟨State.writes_fminmax_nan false d h, State.writes_fminmax_nan true d h⟩,
    fun h => ⟨State.writes_fminmax_number false d h, State.writes_fminmax_number true d h⟩, ?_, s.writes_fcvt td ts sat d a⟩
  cases c <;> exact ⟨s.writes_fcmp _ (.reg d) a b, s.writes_fcmp _ (.pred q) a b⟩

end Sys2Proof.Machine
end

section
/-! System registers and FLAGOP (R5, R104, R151, R153): what SWR leaves in a register and SRD reads of it, and the statement
`Obligations.SystemRegisters`. -/

namespace Sys2Proof.Machine

/-! Registers narrower than a word (R104). -/

/-- What a register of n bits keeps of a word. -/
theorem setWidth_setWidth_word (n : Nat) (v : Word64) : (v.setWidth n).setWidth 64 = v &&& BitVec.ofNat 64 (2 ^ n - 1) := by
  refine BitVec.eq_of_getLsbD_eq fun i hi => ?_
  simp only [BitVec.getLsbD_setWidth, BitVec.getLsbD_and, BitVec.getLsbD_ofNat, Nat.testBit_two_pow_sub_one, hi, decide_true, Bool.true_and,
    Bool.and_comm]

/-- A code address: 56 bits, of which bits 1:0 are zero. -/
theorem codeAddr_word (v : Word64) : ((v &&& ~~~3).setWidth 56).setWidth 64 = v &&& 0x00FFFFFFFFFFFFFC := by
  rw [setWidth_setWidth_word, BitVec.and_assoc]
  rfl

theorem flagMask_eq (v : Word64) : flagMask v = v.setWidth 7 := (BitVec.setWidth_eq_extractLsb' (by decide)).symm

/-! What SWR leaves (R104, R151). -/

section
variable (s : State) (x : Stream) (v : Word64)

theorem Stream.writeSys_readOnly {r : SysReg}
    (h : r ∈ [SysReg.stkptr, .stkbase, .stklim, .dpb, .cycle, .wid, .vrank, .ctxid, .heat, .spwbase, .csasize]) : x.writeSys r v = x := by
  simp only [List.mem_cons, List.not_mem_nil, or_false] at h
  rcases h with rfl | rfl | rfl | rfl | rfl | rfl | rfl | rfl | rfl | rfl | rfl <;> rfl

/-- A write of one register is not seen in another, but for the layout of TRAPINFO, which goes by TRAPCAUSE. -/
theorem State.readSys_writeSys_other {r r' : SysReg} (h : r ≠ r') (hinfo : ¬(r = .trapcause ∧ r' = .trapinfo)) :
    s.readSys (x.writeSys r v) r' = s.readSys x r' := by
  cases r with
  | trapcause =>
    cases r' with
    | trapcause => exact absurd rfl h
    | trapinfo => exact absurd ⟨rfl, rfl⟩ hinfo
    | _ => rfl
  | _ => cases r' <;> trivial

end

/-- TRAPINFO as it reads under a cause. -/
theorem State.readSys_trapinfo (s : State) {x : Stream} {m : Word64} (h : infoMask x.trapcause x.trapinfo = m) :
    s.readSys x .trapinfo = x.trapinfo &&& m := congrArg (x.trapinfo &&& ·) h

section
variable {c : Byte} (v : Word64)

theorem infoMask_slotFault (h : c ∈ [(0x01 : Byte), 0x02, 0x03]) : infoMask c v = 0xFFFFFFFF00000FFF := by
  simp only [List.mem_cons, List.not_mem_nil, or_false] at h
  rcases h with rfl | rfl | rfl <;> rfl

theorem infoMask_access (h : c ∈ [(0x05 : Byte), 0x06, 0x07, 0x08]) : infoMask c v = 0x1FFFF := by
  simp only [List.mem_cons, List.not_mem_nil, or_false] at h
  rcases h with rfl | rfl | rfl | rfl <;> rfl

theorem infoMask_whole (h : c ∈ [(0x04 : Byte), 0x0D, 0x0E, 0x0F, 0x10, 0x11, 0x12, 0x14]) : infoMask c v = BitVec.allOnes 64 := by
  simp only [List.mem_cons, List.not_mem_nil, or_false] at h
  rcases h with rfl | rfl | rfl | rfl | rfl | rfl | rfl | rfl <;> rfl

end

/-! FLAGOP (R153). -/

/-- RDCLR returns FLAGS and clears what it returned. -/
theorem exec_flagopRdclr (s : State) (d : SReg) (a : SOp) : exec (.flagopRdclr d a) s = .next { s with cur := { s.cur with land := s.cur.land ++
    [⟨s.cur.pos + 2, s.slotRank, s.cur.pos, .s d.toNat (s.cur.flags.setWidth 64), 0⟩] ++
    [⟨s.cur.pos + 2, s.slotRank, s.cur.pos, .flagClr ((s.cur.readOp a).setWidth 7 &&& s.cur.flags), 0⟩] } } :=
  flagMask_eq (s.cur.readOp a) ▸ rfl

/-- Settles O16, form by form and register by register. -/
theorem systemRegisters : Obligations.SystemRegisters := by
  unfold Obligations.SystemRegisters
  refine ⟨fun s d p r a => ?_, fun s x v r r' => ?_⟩
  · have hmask := flagMask_eq (s.cur.readOp a)
    exact ⟨rfl, rfl, hmask ▸ rfl, hmask ▸ rfl, hmask ▸ rfl, exec_flagopRdclr s d a⟩
  · have hoff : (x.writeSys r v).offSys = x.offSys := foldl_writeSys_offSys [(r, v)] x
    refine ⟨x.writeSys_readOnly v, setWidth_setWidth_word 8 v, setWidth_setWidth_word 7 v, setWidth_setWidth_word 32 v, setWidth_setWidth_word 32 v,
      setWidth_setWidth_word 2 v, setWidth_setWidth_word 12 v, setWidth_setWidth_word 32 v, rfl, codeAddr_word v, codeAddr_word v,
      setWidth_setWidth_word 8 v, rfl, rfl, fun h => s.readSys_trapinfo (infoMask_slotFault _ h), fun h => s.readSys_trapinfo (infoMask_access _ h),
      fun h => s.readSys_trapinfo (by rw [h]; rfl), fun h => (s.readSys_trapinfo (infoMask_whole _ h)).trans BitVec.and_allOnes,
      s.readSys_writeSys_other x v, (congrArg Stream.slot hoff :), (congrArg Stream.s hoff :), (congrArg Stream.p hoff :), (congrArg Stream.pc hoff :)⟩

end Sys2Proof.Machine
end

section
/-! The end of a task's issue and the fields of work identities (R30, R156-R158): the boundary after a TEND or CATCH, and the statement
`Obligations.TaskControl`. -/

namespace Sys2Proof.Machine

/-! What a landing leaves of its stream (R108). -/

/-- What the end of a bundle goes by in its stream: its rank's slot, the hold, the trap that waits, single steps, and whether its issue ends. -/
def Stream.closing (x : Stream) : Nat × Option Hold × Option TrapRec × Bool × Nat := (x.slot, x.hold, x.btrap, x.stepOne, x.ending)

theorem Stream.apply_closing (x : Stream) (m : Cells 32) (t : Tgt) : (x.apply m t).1.closing = x.closing := by
  cases t with
  | s r v => simp only [Stream.apply, Stream.writeS]; split <;> rfl
  | p r v => simp only [Stream.apply, Stream.writeP]; split <;> rfl
  | sys r v => cases r <;> rfl
  | _ => rfl

theorem applyAll_closing (l : List Tgt) (x : Stream) (m : Cells 32) : (applyAll x m l).1.closing = x.closing := by
  induction l generalizing x m with
  | nil => rfl
  | cons t r ih => rw [applyAll, ih, Stream.apply_closing]

theorem srdAll_closing (rd : SysReg → Word64) (l : List Land) (x : Stream) : (srdAll rd l x).closing = x.closing := by
  induction l generalizing x with
  | nil => rfl
  | cons e r ih =>
    rw [srdAll, ih]
    split
    · split
      · rfl
      · rw [Stream.writeS]
        split <;> rfl
    · rfl

theorem State.serveTakes_closing (s : State) (w : Land → Bool) : (s.serveTakes w).cur.closing = s.cur.closing :=
  foldl_keeps (fun t : State => t.cur.closing) State.serveOne _ _ fun a e => by
    obtain ⟨u, hu, -, hserve⟩ := a.serveOne_offCtxs e
    rw [hserve]
    exact (congrArg (fun t : State => t.cur.closing) hu :)

theorem State.landAt_closing (s : State) (pos : Nat) : (s.landAt pos).cur.closing = s.cur.closing := by
  unfold State.landAt
  exact (srdAll_closing ..).trans ((applyAll_closing ..).trans (s.serveTakes_closing _))

theorem State.boundary_closing (s : State) : s.boundary.cur.closing = s.cur.closing :=
  State.landAt_closing _ _

theorem State.boundary_curLive (s : State) : s.boundary.curLive = s.curLive :=
  (congrArg State.curLive (State.landAt_offLanding { s with cur := { s.cur with pos := s.cur.pos + 1 } } (s.cur.pos + 1)) :)

theorem State.landAll_closing (s : State) : s.landAll.cur.closing = s.cur.closing :=
  foldl_keeps (fun t : State => t.cur.closing) _ _ _ fun a i => a.landAt_closing (a.cur.pos + i)

/-! The boundary after the end of a task's issue (R154, R156, R157, R287). -/

theorem State.softBoundary_none {s : State} (h : s.cur.btrap = none) : s.softBoundary = s := by
  simp [State.softBoundary, h]

theorem State.putStream_cur {s : State} (hlive : s.curLive = true) : s.putStream s.curKey s.cur = s := by
  rw [State.putStream, hlive, beq_self_eq_true, Bool.and_self, if_pos rfl, ← hlive]

theorem execBklockHoldEnd_unheld {s : State} (hlive : s.curLive = true) (h : s.cur.hold = none) : execBklockHoldEnd s.curKey s = .next s := by
  simp [execBklockHoldEnd, State.modStream, State.stream_cur s hlive, h, State.putStream_cur hlive]

/-- The focused stream at its next bundle: what was due has landed, and a hold has one bundle fewer left. -/
def State.passBoundary (s : State) : State :=
  let u := s.boundary
  { u with view := none, cur := { u.cur with
      pc := u.cur.npc, bundle := none, waitCyc := 0, fixed := 0, mark := .none, skipBp := false,
      hold := u.cur.hold.map (fun (h : Hold) => { h with left := h.left - 1 }) } }

/-- After the rank's first CATCH its buckets are disarmed. -/
def State.disarmCaught (s : State) : State := if s.cur.ending = 2 then s.disarm s.cur.slot else s

/-- The end of a bundle whose hold has been seen to. -/
def State.closeBundle (s : State) : State :=
  let v := (if s.cur.ending ≠ 0 then s.landAll else s).disarmCaught.softBoundary
  if v.curLive && v.cur.stepOne then v.haltCur else v

theorem State.endBundle_of_holdEnd {s t : State} (h : execBklockHoldEnd s.passBoundary.curKey s.passBoundary = .next t) : s.endBundle = t.closeBundle := by
  have ht : _ = t := Host.Outcome.next.inj h
  subst ht
  rfl

theorem State.disarmCaught_cur (s : State) : s.disarmCaught.cur = s.cur := by
  unfold State.disarmCaught
  split <;> rfl

/-- Where the stream's issue has ended, what is on its way lands, and a CATCH disarms. -/
theorem State.closeBundle_ending {s : State} (hbtrap : s.cur.btrap = none) (hstep : s.cur.stepOne = false) (hending : s.cur.ending ≠ 0) :
    s.closeBundle = if s.cur.ending = 2 then s.landAll.disarm s.cur.slot else s.landAll := by
  have hland : s.landAll.cur.closing = s.cur.closing := s.landAll_closing
  simp only [Stream.closing, Prod.mk.injEq] at hland
  obtain ⟨hslot, -, hbtrap', hstep', hending'⟩ := hland
  rw [← s.landAll.disarmCaught_cur] at hbtrap' hstep'
  rw [State.closeBundle, if_pos hending, State.softBoundary_none (hbtrap'.trans hbtrap), hstep'.trans hstep, Bool.and_false,
    if_neg Bool.false_ne_true, State.disarmCaught, hending', hslot]

section
variable {s : State} (hhold : s.cur.hold = none)
include hhold

theorem State.passBoundary_closing : s.passBoundary.cur.closing = s.cur.closing := by
  have hpass : s.passBoundary.cur.closing = (s.boundary.cur.closing.1,
      s.boundary.cur.closing.2.1.map (fun (h : Hold) => { h with left := h.left - 1 }), s.boundary.cur.closing.2.2) := rfl
  rw [hpass, State.boundary_closing]
  simp [Stream.closing, hhold]

/-- The boundary without a hold. -/
theorem State.passBoundary_unheld :
    let u := s.boundary
    s.passBoundary = { u with view := none, cur := { u.cur with
      pc := u.cur.npc, bundle := none, waitCyc := 0, fixed := 0, mark := .none, skipBp := false } } := by
  have hnone : s.boundary.cur.hold = none := (congrArg (fun c => c.2.1) s.boundary_closing).trans hhold
  have hkeep : s.boundary.cur.hold.map (fun (h : Hold) => { h with left := h.left - 1 }) = s.boundary.cur.hold := by rw [hnone, Option.map_none]
  unfold State.passBoundary
  dsimp only
  rw [hkeep]

/-- The boundary after a bundle that ends the stream's issue, where no hold, trap or debugger stands. -/
theorem State.endBundle_ending (hlive : s.curLive = true) (hbtrap : s.cur.btrap = none) (hstep : s.cur.stepOne = false) (hending : s.cur.ending ≠ 0) :
    s.endBundle = if s.cur.ending = 2 then s.passBoundary.landAll.disarm s.cur.slot else s.passBoundary.landAll := by
  have hpass := State.passBoundary_closing hhold
  simp only [Stream.closing, Prod.mk.injEq] at hpass
  obtain ⟨hslot, hnone, htrap, hone, hend⟩ := hpass
  have hlive' : s.passBoundary.curLive = true := s.boundary_curLive.trans hlive
  rw [State.endBundle_of_holdEnd (execBklockHoldEnd_unheld hlive' (hnone.trans hhold)),
    State.closeBundle_ending (htrap.trans hbtrap) (hone.trans hstep) (hend.trans_ne hending), hslot, hend]

end

/-! CATCH (R157). -/

section
variable {s : State} (hsl : s.cur.sl = true)
include hsl

theorem taskCatch_first (h : (s.rank s.cur.slot).caughtExec = false) :
    let u := s.putRank s.cur.slot { s.rank s.cur.slot with caughtExec := true }
    exec .taskCatch s = .next { u with cur := { u.cur with ending := 2 } } := by
  change execCatch s = _
  simp [execCatch, hsl, h]

theorem taskCatch_again (h : (s.rank s.cur.slot).caughtExec = true) : exec .taskCatch s = .next { s with cur := { s.cur with ending := 1 } } := by
  change execCatch s = _
  simp [execCatch, hsl, h]

end

theorem taskCatch_traps {s : State} (hsl : s.cur.sl = false) : s.Traps .taskCatch (s.illop 0x13) := by
  change execCatch s = _
  simp [execCatch, hsl]

/-! Work identities (R30). -/

theorem widthSum_eq_foldl (w : BitVec 42) (k : Nat) : widthSum w k = (List.range (k + 1)).foldl (fun t i => t + widthOf w i) 0 := by
  rw [widthSum, map_upto_zero, List.sum_eq_foldl, List.foldl_map]

theorem widField_eq (w : BitVec 42) (k : Nat) (v : Word64) :
    widField w k v = BitVec.ofNat 64 (v.toNat >>> (64 - widthSum w k) % 2 ^ widthOf w k) := by
  rw [widField, Nat.shiftRight_eq_div_pow]

theorem widPrefix_eq (w : BitVec 42) (k : Nat) (v : Word64) : widPrefix w k v = (v >>> (64 - widthSum w k)) <<< (64 - widthSum w k) := by
  refine BitVec.eq_of_toNat_eq ?_
  rw [widPrefix, BitVec.toNat_ofNat, BitVec.toNat_shiftLeft, BitVec.toNat_ushiftRight, Nat.shiftLeft_eq, Nat.shiftRight_eq_div_pow]

/-- Settles O18, form by form. -/
theorem taskControl : Obligations.TaskControl := by
  unfold Obligations.TaskControl
  refine ⟨fun s => ⟨rfl, fun hsl h => ⟨taskCatch_first hsl h, ?_⟩, taskCatch_again, fun hlive hhold hbtrap hstep hending => ?_,
    taskCatch_traps, rfl, rfl⟩, fun s k d a _ => ?_⟩
  · exact congrArg Rank.caughtExec (State.rank_putRank_same s s.cur.slot { s.rank s.cur.slot with caughtExec := true })
  · intro u e
    have he : s.passBoundary = e := State.passBoundary_unheld hhold
    rw [State.endBundle_ending hhold hlive hbtrap hstep hending, he]
  · intro w lo x
    have hlo : 64 - widthSum s.cur.widths k.toNat = lo := congrArg (64 - ·) (widthSum_eq_foldl ..)
    have hfield := widField_eq s.cur.widths k.toNat x
    have hkept := widPrefix_eq s.cur.widths k.toNat x
    rw [hlo] at hfield hkept
    exact ⟨hfield ▸ rfl, hkept ▸ rfl, rfl⟩

end Sys2Proof.Machine
end

section
/-! Lines that the V slot writes (R80, R121, R161): a function over the lanes of its sources, and cells made of elements. -/

namespace Sys2Proof.Machine

/-! Cells of elements (R121). -/

/-- A cell of one result for each element position, and the merged flags. -/
def packElems (f : Fmt) (efr : BitVec 12) (r : Nat → Nat × Flags) : Word32 × Flags :=
  let es := (List.range (Fmt.count f efr)).map r
  (pack f efr (es.map (fun e => e.1)), es.foldl (fun a e => a ||| e.2) 0)

section
variable (f : Fmt) (efr : BitVec 12)

theorem elemwise_eq (op : List Nat → Nat × Flags) (cs : List Word32) :
    elemwise f efr op cs = packElems f efr (fun k => op (cs.map (fun c => elem f efr c k))) := by
  simp only [elemwise, packElems, map_upto_zero]

theorem toNat_pack_lt {es : List Nat} (hlen : es.length = Fmt.count f efr) : (pack f efr es).toNat < 2 ^ (Fmt.width f efr * Fmt.count f efr) :=
  calc (pack f efr es).toNat ≤ digits (Fmt.width f efr) es := (BitVec.toNat_ofNat ..).trans_le (Nat.mod_le ..)
    _ < 2 ^ (Fmt.width f efr * Fmt.count f efr) := hlen ▸ digits_lt ..

variable (r : Nat → Nat × Flags)

theorem elem_packElems {k : Nat} (hfits : (r k).1 < 2 ^ Fmt.width f efr) (hk : k < Fmt.count f efr) :
    elem f efr (packElems f efr r).1 k = (r k).1 := by
  rw [packElems, elem_pack f efr (by simp)]
  simp [hk, Nat.mod_eq_of_lt hfits]

theorem toNat_packElems_lt : (packElems f efr r).1.toNat < 2 ^ (Fmt.width f efr * Fmt.count f efr) :=
  toNat_pack_lt f efr (by simp)

theorem getLsbD_packElems_flags (b : Nat) :
    (packElems f efr r).2.getLsbD b = true ↔ ∃ k, k < Fmt.count f efr ∧ (r k).2.getLsbD b = true := by
  rw [packElems, getLsbD_merged]
  simp

end

/-! Lines of cells and of elements (R161). -/

theorem lanes_readSrc (s : State) (srcs : List VSrc) :
    lanes (srcs.map s.readSrc) = (List.range 64).map (fun l => srcs.map (fun a => s.laneOf a l)) := by
  simp only [lanes, map_upto_zero, List.map_map]
  rfl

section
variable {s : State} {i : Instr} {L : Nat} {d : Line}

/-- Cells that are moved as they are set no flag. -/
theorem State.writesLanes_cells {v : Nat → Word32} (hexec : exec i s = .next (s.outLine L d ((List.range 64).map v) 0)) :
    s.WritesLanes i L d (fun l => (v l, 0)) :=
  ⟨_, 0, hexec, by simp, fun l hl => by simp [hl], fun b _ => by simp⟩

/-- A line whose lanes are cells of elements is written element by element. -/
theorem State.writesElems_of_writesLanes {f : Fmt} {g : Nat → Nat → Nat × Flags}
    (h : s.WritesLanes i L d (fun l => packElems f s.cur.efr (g l))) (hfits : ∀ l k, (g l k).1 < 2 ^ Fmt.width f s.cur.efr) :
    s.WritesElems i L f d g := by
  obtain ⟨vs, fl, hwrites, hlen, hcells, hflags⟩ := h
  refine ⟨vs, fl, hwrites, hlen, fun l k hl hk => ?_, fun l hl => ?_, fun b hb => (hflags b hb).trans ?_⟩
  · rw [hcells l hl, elem_packElems f _ _ (hfits l k) hk]
  · rw [hcells l hl]
    exact toNat_packElems_lt ..
  · simp only [getLsbD_packElems_flags]
    exact exists_congr fun l => exists_and_left.symm

section
variable (hpar : s.core.parity = [])
include hpar

/-- A function over the lanes of some sources, whichever of their cells are checked (R342). -/
theorem State.writesLanes_mapLanes {keys : List Nat} {lines : List (List Word32)} {F : List Word32 → Word32 × Flags} {g : Nat → Word32 × Flags}
    (hexec : exec i s = finish s (s.sound keys (.ok (s.outLine L d (mapLanes lines F).1 (mapLanes lines F).2)))) (srcs : List VSrc)
    (hlines : lines = srcs.map s.readSrc) (hlane : ∀ l, F (srcs.map (fun a => s.laneOf a l)) = g l) : s.WritesLanes i L d g := by
  rw [s.sound_of_parity _ _ hpar] at hexec
  have hresults : (lanes lines).map F = (List.range 64).map g := by
    rw [hlines, lanes_readSrc, List.map_map]
    exact List.map_congr_left fun l _ => hlane l
  simp only [mapLanes, hresults, finish_ok] at hexec
  refine ⟨_, _, hexec, by simp, fun l hl => by simp [hl], fun b _ => ?_⟩
  rw [getLsbD_merged]
  simp

theorem State.writesLanes_vline {srcs : List VSrc} {readD : Bool} {F : List Word32 → Word32 × Flags} {g : Nat → Word32 × Flags}
    (hexec : exec i s = finish s (s.vline L d srcs readD F))
    (hlane : ∀ l, F ((srcs ++ if readD then [VSrc.line d] else []).map (fun a => s.laneOf a l)) = g l) : s.WritesLanes i L d g :=
  State.writesLanes_mapLanes hpar hexec _ rfl hlane

theorem State.writesElems_vline {srcs : List VSrc} {readD : Bool} {f : Fmt} {op : List Nat → Nat × Flags} {g : Nat → Nat → Nat × Flags}
    (hexec : exec i s = finish s (s.vline L d srcs readD (elemwise f s.cur.efr op)))
    (helem : ∀ l k, op ((srcs ++ if readD then [VSrc.line d] else []).map (fun a => s.elemAt f a l k)) = g l k)
    (hfits : ∀ l k, (g l k).1 < 2 ^ Fmt.width f s.cur.efr) : s.WritesElems i L f d g := by
  refine State.writesElems_of_writesLanes (State.writesLanes_vline hpar hexec fun l => ?_) hfits
  rw [elemwise_eq]
  refine congrArg (packElems f s.cur.efr) (funext fun k => ?_)
  rw [List.map_map]
  exact helem l k

/-- Elements that are each rounded once (R161). -/
theorem State.writesElems_rounded {srcs : List VSrc} {readD : Bool} {f : Fmt} {sat : Bool} {op : List Nat → Nat × Flags} {z : Nat → Nat → Ex × Flags}
    (hexec : exec i s = finish s (s.vline L d srcs readD (elemwise f s.cur.efr op)))
    (helem : ∀ l k, op ((srcs ++ if readD then [VSrc.line d] else []).map (fun a => s.elemAt f a l k)) = s.oneRounding f sat (z l k)) :
    s.WritesElems i L f d (fun l k => s.oneRounding f sat (z l k)) :=
  State.writesElems_vline hpar hexec helem fun _ _ => arith_lt ..

end

end

end Sys2Proof.Machine
end

section
/-! Arithmetic of the V slot (R164, R165): the statement `Obligations.VectorArithmetic`. -/

namespace Sys2Proof.Machine

/-- VABS and VNEG: one operand, with NV for a signalling one (R165). -/
theorem State.writes_vsign {s : State} (hpar : s.core.parity = []) {i : Instr} {f : Fmt} {sat : Bool} {d : Line} {a : VSrc} {op : Ex → Ex}
    (hexec : exec i s = finish s (s.vsign f sat d a op)) :
    s.WritesElems i 2 f d (fun l k => s.oneRounding f sat (op (s.valAt f a l k), flIf (s.valAt f a l k).isSig flNV)) :=
  State.writesElems_rounded hpar hexec fun _ _ => nvOf_single _ ▸ rfl

/-- Settles O20, form by form. -/
theorem vectorArithmetic : Obligations.VectorArithmetic := by
  unfold Obligations.VectorArithmetic
  intro s f sat d a b hpar x y w m
  have hrounded {i : Instr} {op : Ex → Ex → Ex × Flags} (hexec : exec i s = finish s (s.varith f sat d a b op)) :
      s.WritesElems i 4 f d (fun l k => s.oneRounding f sat (op (x l k) (y l k))) :=
    State.writesElems_rounded hpar hexec fun _ _ => rfl
  have hfused {i : Instr} {sub : Bool} (hexec : exec i s = finish s (s.vfused f sat sub d a b)) :
      s.WritesElems i 4 f d (fun l k => s.oneRounding f sat (exFma m (w l k) (x l k) (y l k) sub)) :=
    State.writesElems_rounded hpar hexec fun _ _ => rfl
  exact ⟨hrounded rfl, hrounded (op := fun x y => exAdd m x y.neg) rfl, hrounded rfl, hfused rfl, hfused rfl,
    State.writes_vsign hpar rfl, State.writes_vsign hpar rfl⟩

end Sys2Proof.Machine
end

section
/-! Selecting, comparing and moving bits in the V slot (R165-R168): the lesser and the greater element, the shifts of an I32 cell, and the statement
`Obligations.VectorSelectBits`. -/

namespace Sys2Proof.Machine

/-! The lesser and the greater element (R165). -/

section
variable {f : Fmt} (efr : BitVec 12) (max : Bool) (a b : Nat)

/-- Floats: the canonical NaN where an operand is one, else the chosen operand. -/
theorem minMaxElem_of_ff {F : FF} (hF : Fmt.ff f = some F) :
    minMaxElem f efr max a b =
      let x := Fmt.val f efr a
      let y := Fmt.val f efr b
      let v := if max then (if exCmpZ x y < 0 then b else a) else (if 0 < exCmpZ x y then b else a)
      if x.isNan || y.isNan then (F.nan.getD 0, flIf (x.isSig || y.isSig) flNV ||| flNF) else (v, flIf (!(F.value v).isFin) flNF) := by
  have hbits : minMaxElem f efr max a b = minMaxBits F (F.nan.getD 0) max a b := by
    simp only [minMaxElem, hF]
  simp only [hbits, Fmt.val_of_ff hF]
  split
  · next hnan => exact minMaxBits_nan _ max hnan
  · next hnum => exact minMaxBits_number _ max (Bool.eq_false_iff.mpr hnum)

/-- Integers: the chosen operand, narrowed. -/
theorem minMaxElem_of_none (hf : Fmt.ff f = none) :
    minMaxElem f efr max a b =
      let c := exCmp (Fmt.val f efr a) (Fmt.val f efr b)
      arith f efr (if max then (if c < 0 then Fmt.val f efr b else Fmt.val f efr a) else (if 0 < c then Fmt.val f efr b else Fmt.val f efr a)) .rne false := by
  simp only [minMaxElem, hf]
  simp only [apply_ite (Fmt.val f efr)]

theorem Fmt.nan_lt {F : FF} (hF : Fmt.ff f = some F) {n : Nat} (hn : n < 2 ^ Fmt.width f efr) : F.nan.getD n < 2 ^ Fmt.width f efr := by
  obtain ⟨-, -, -, hnan⟩ := Fmt.ff_fits hF
  cases hc : F.nan with
  | none => exact hn
  | some c => exact Fmt.width_of_ff hF efr ▸ unsigned_lt (hnan c hc)

variable {a b} in
theorem minMaxElem_lt (ha : a < 2 ^ Fmt.width f efr) (hb : b < 2 ^ Fmt.width f efr) : (minMaxElem f efr max a b).1 < 2 ^ Fmt.width f efr := by
  cases hF : Fmt.ff f with
  | none => exact minMaxElem_of_none efr max a b hF ▸ arith_lt ..
  | some F =>
    rw [minMaxElem_of_ff efr max a b hF]
    dsimp only
    split_ifs
    · exact Fmt.nan_lt efr hF (Nat.two_pow_pos _)
    all_goals assumption

end

/-! Shifts of an I32 cell (R168). -/

/-- An integer scaled by a power of two, as I32 takes it. -/
theorem arith_i32_exScale (efr : BitVec 12) (v : Int) (n : Nat) (m : RMode) (sat : Bool) :
    arith .i32 efr (exScale (.ofInt v) n) m sat = arith .i32 efr (.ofInt (v * 2 ^ n)) m sat := by
  have hfin (neg : Bool) (k : Nat) (e : Int) :
      arith .i32 efr (.fin neg k 1 e) m sat =
        arith .i32 efr (.ofInt ((if neg then -1 else 1) * ((shiftQ k 1 e).1 / (shiftQ k 1 e).2 : Nat))) m sat := by
    rw [arith_i32_ofInt]
    rfl
  by_cases hv : v = 0
  · subst hv
    rw [Int.zero_mul]
    rfl
  · have hscale : exScale (.ofInt v) n = .fin (decide (v < 0)) v.natAbs 1 n := by
      simp [exScale, Ex.ofInt, hv]
    have hshift : shiftQ v.natAbs 1 n = (v.natAbs * 2 ^ n, 1) := by
      simp [shiftQ, Nat.shiftLeft_eq]
    have hvalue : (if decide (v < 0) then -1 else 1) * (v.natAbs : Int) = v := by
      rw [Int.natCast_natAbs]
      by_cases hneg : v < 0
      · simp [hneg, abs_of_neg]
      · simp [hneg, abs_of_nonneg (not_lt.mp hneg)]
    rw [hscale, hfin, hshift, Nat.div_one, Nat.cast_mul, Nat.cast_pow, Nat.cast_ofNat, ← mul_assoc, hvalue]

section
variable {s : State} (hpar : s.core.parity = [])
include hpar

theorem State.writes_vminmax {i : Instr} {max : Bool} {f : Fmt} {d : Line} {a b : VSrc} {g : Nat → Nat → Nat × Flags}
    (hexec : exec i s = finish s (s.vminmax max f d a b))
    (helem : ∀ l k, minMaxElem f s.cur.efr max (s.elemAt f a l k) (s.elemAt f b l k) = g l k) : s.WritesElems i 2 f d g :=
  State.writesElems_vline hpar hexec helem fun l k => helem l k ▸ minMaxElem_lt _ max (elem_lt ..) (elem_lt ..)

/-- A compare writes all ones or zero (R167). -/
theorem State.writes_vcmp {i : Instr} {f : Fmt} {d : Line} {a b : VSrc} {c : FCond} (hexec : exec i s = finish s (s.vcmp f d a b c)) :
    s.WritesElems i 2 f d (fun l k => (if fcondHolds c (s.valAt f a l k) (s.valAt f b l k) then 2 ^ Fmt.width f s.cur.efr - 1 else 0,
      flIf ((s.valAt f a l k).isSig || (s.valAt f b l k).isSig) flNV)) := by
  refine State.writesElems_vline hpar hexec (fun _ _ => nvOf_pair _ _ ▸ rfl) fun l k => ?_
  have hpos : 0 < 2 ^ Fmt.width f s.cur.efr := Nat.two_pow_pos _
  dsimp only
  split
  · exact Nat.sub_one_lt hpos.ne'
  · exact hpos

/-- The mask of VSEL is its destination (R166). -/
theorem State.writes_vsel (f : Fmt) (d : Line) (a b : VSrc) :
    s.WritesElems (.vsel f d a b) 2 f d (fun l k => (if s.elemAt f (.line d) l k ≠ 0 then s.elemAt f a l k else s.elemAt f b l k, 0)) := by
  refine State.writesElems_vline hpar rfl (fun _ _ => rfl) fun l k => ?_
  dsimp only
  split <;> apply elem_lt

/-- A function of two cells without flags (R168). -/
theorem State.writes_vbits {i : Instr} {d : Line} {a b : VSrc} {op : Word32 → Word32 → Word32} (hexec : exec i s = finish s (s.vbits d a b op)) :
    s.WritesLanes i 2 d (fun l => (op (s.laneOf a l) (s.laneOf b l), 0)) :=
  State.writesLanes_vline hpar hexec fun _ => rfl

/-- VSHL narrows the exact product (R168). -/
theorem State.writes_vshl {sat : Bool} {d : Line} {a b : VSrc} {g : Nat → Word32 × Flags}
    (hlane : ∀ l, (arith .i32 s.cur.efr (.ofInt ((s.laneOf a l).toInt * 2 ^ ((s.laneOf b l).toNat % 64))) .rne sat).map (BitVec.ofNat 32) id = g l) :
    s.WritesLanes (.vshl sat d a b) 2 d g := by
  refine State.writesLanes_vline hpar rfl fun l => ?_
  have hscaled := arith_i32_exScale s.cur.efr (s.laneOf a l).toInt ((s.laneOf b l).toNat % 64) .rne sat
  rw [← hlane, ← hscaled]
  rfl

end

/-- Settles O21: the elements form by form, then the cells. -/
theorem vectorSelectBits : Obligations.VectorSelectBits := by
  unfold Obligations.VectorSelectBits
  refine ⟨fun s f d a b hpar => ?_, fun s d a b hpar => ?_⟩
  · intro x y ea eb un sig ones pick
    exact ⟨fun F hF => ⟨State.writes_vminmax hpar rfl fun _ _ => minMaxElem_of_ff _ false _ _ hF,
        State.writes_vminmax hpar rfl fun _ _ => minMaxElem_of_ff _ true _ _ hF⟩,
      fun hf => ⟨State.writes_vminmax hpar rfl fun _ _ => minMaxElem_of_none _ false _ _ hf,
        State.writes_vminmax hpar rfl fun _ _ => minMaxElem_of_none _ true _ _ hf⟩,
      State.writes_vcmp (c := .eq) hpar rfl, State.writes_vcmp (c := .lt) hpar rfl, State.writes_vcmp (c := .le) hpar rfl,
      State.writes_vcmp (c := .un) hpar rfl, State.writes_vsel hpar f d a b⟩
  · intro x y n wide
    have hcopy : s.WritesLanes (.vcpy d a) 2 d (fun l => (x l, 0)) := State.writesLanes_vline hpar rfl fun _ => rfl
    have hshr (right : Bool) : s.WritesLanes (.vshr right d a b) 2 d (fun l => (cellShr right (x l) (n l), 0)) :=
      State.writesLanes_vline hpar rfl fun _ => rfl
    have hshl (l : Nat) : BitVec.ofNat 32 (intBits (wide l) 32) = x l <<< n l := (ofNat_intBits _).trans (ofInt_shl_wordInt false (x l) (n l))
    have hnarrow (sat : Bool) (l : Nat) := arith_i32_ofInt s.cur.efr (wide l) .rne sat
    refine ⟨hcopy, State.writes_vbits hpar rfl, State.writes_vbits hpar rfl, State.writes_vbits hpar rfl, State.writes_vshl hpar fun l => ?_,
      State.writes_vshl hpar fun l => ?_, hshr false, hshr true⟩
    · rw [hnarrow, if_neg Bool.false_ne_true, Prod.map_apply, hshl, id]
    · rw [hnarrow, if_pos rfl]
      split_ifs
      · rfl
      · rfl
      · rw [Prod.map_apply, hshl, id]

end Sys2Proof.Machine
end

section
/-! Conversion and quantisation in the V slot (R169-R173): which lane element takes which conversion, and the statement `Obligations.VectorConvert`. -/

namespace Sys2Proof.Machine

/-! The elements of a converted cell (R169). -/

theorem elemW_lt (w : Nat) (c : Word32) (k : Nat) : elemW w c k < 2 ^ w := Nat.mod_lt _ (Nat.two_pow_pos w)

theorem elemW_packW {w : Nat} {es : List Nat} (hfits : w * es.length ≤ 32) (k : Nat) : elemW w (packW w es) k = es.getD k 0 % 2 ^ w := by
  have hcell : (packW w es).toNat = digits w es :=
    (BitVec.toNat_ofNat ..).trans (Nat.mod_eq_of_lt ((digits_lt w es).trans_le (Nat.pow_le_pow_right two_pos hfits)))
  rw [elemW, hcell, digit_digits]

theorem elemW_packW_map {w n k : Nat} (v : Nat → Nat) (hw : n * w ≤ 32) (hk : k < n) : elemW w (packW w ((upto 0 n).map v)) k = v k % 2 ^ w := by
  rw [map_upto_zero, elemW_packW (by simpa [Nat.mul_comm] using hw)]
  simp [hk]

/-- The entry of position i among those that stand from position o on, below n. -/
theorem find?_positions {α : Type} (c : Nat → α) {o n m i : Nat} (hi : i < n) :
    (((upto 0 m).map (fun k => (o + k, c k))).filter (fun e => decide (e.1 < n))).find? (fun e => e.1 == i) =
      if o ≤ i ∧ i < o + m then some (i, c (i - o)) else none := by
  cases hfind : (((upto 0 m).map (fun k => (o + k, c k))).filter (fun e => decide (e.1 < n))).find? (fun e => e.1 == i) with
  | some e =>
    obtain ⟨k, hk, rfl⟩ := List.mem_map.mp (List.mem_filter.mp (List.mem_of_find?_eq_some hfind)).1
    have hsame := List.find?_some hfind
    obtain rfl : o + k = i := beq_iff_eq.mp hsame
    obtain ⟨-, hk⟩ := mem_upto.mp hk
    rw [if_pos (by omega), Nat.add_sub_cancel_left]
  | none =>
    refine (if_neg fun ⟨hlo, hhi⟩ => ?_).symm
    have hmem : (i, c (i - o)) ∈ ((upto 0 m).map (fun k => (o + k, c k))).filter (fun e => decide (e.1 < n)) :=
      List.mem_filter.mpr ⟨List.mem_map.mpr ⟨i - o, mem_upto.mpr (by omega), by rw [Nat.add_sub_cancel' hlo]⟩, decide_eq_true hi⟩
    exact List.find?_eq_none.mp hfind _ hmem (beq_self_eq_true i)

section
variable {ws ns wd nd : Nat} (p : Nat) {conv : Option Nat → Nat × Flags} (a d : Word32) (hwd : nd * wd ≤ 32) (hconv : ∀ o, (conv o).1 < 2 ^ wd)
include hwd hconv

/-- A destination of at least as many elements takes the conversions from element p n_s on, and keeps the others. -/
theorem elemW_convCell_of_le (h : ns ≤ nd) {i : Nat} (hi : i < nd) : elemW wd (convCell ws ns wd nd p conv a d).1 i =
    if p * ns ≤ i ∧ i < p * ns + ns then (conv (some (elemW ws a (i - p * ns)))).1 else elemW wd d i := by
  rw [convCell, if_pos h]
  dsimp only
  rw [elemW_packW_map _ hwd hi, find?_positions (fun k => conv (some (elemW ws a k))) hi]
  split_ifs
  · exact Nat.mod_eq_of_lt (hconv _)
  · exact Nat.mod_eq_of_lt (elemW_lt ..)

/-- A destination of fewer elements takes the conversions of the source from element p n_d on. -/
theorem elemW_convCell_of_lt (h : nd < ns) {k : Nat} (hk : k < nd) : elemW wd (convCell ws ns wd nd p conv a d).1 k =
    (conv (if p * nd + k < ns then some (elemW ws a (p * nd + k)) else none)).1 := by
  rw [convCell, if_neg h.not_ge]
  dsimp only
  rw [List.map_map, elemW_packW_map _ hwd hk]
  exact Nat.mod_eq_of_lt (hconv _)

end

/-! The converting instructions (R170-R173). -/

section
variable {s : State} (hpar : s.core.parity = [])
include hpar

theorem State.writes_vcvt (f g : Fmt) (sat : Bool) (part : BitVec 3) (d : Line) (a : VSrc) :
    let e := s.cur.efr
    s.WritesLanes (.vcvt f g sat part d a) 4 d (fun l =>
      convCell (Fmt.width g e) (Fmt.count g e) (Fmt.width f e) (Fmt.count f e) part.toNat
        (fun o => ((toFmt f e (srcVal g e o) s.cur.rmv sat).1, (toFmt f e (srcVal g e o) s.cur.rmv sat).2 ||| flIf (srcVal g e o).isSig flNV))
        (s.laneOf a l) (s.laneOf (.line d) l)) := by
  simp only [← nvOf_single]
  exact State.writesLanes_vline hpar rfl fun _ => rfl

theorem State.writes_vqnt (f : Fmt) (sat : Bool) (sc : Scale) (d : Line) (a : VSrc) :
    let e := s.cur.efr
    s.WritesLanes (.vqnt f sat sc d a) 4 d (fun l =>
      convCell 32 1 (Fmt.width f e) (Fmt.count f e) (scalePart sc)
        (fun o => let q := exDiv (srcVal .f32 e o) (s.scale sc a); ((toFmt f e q.1 s.cur.rmv sat).1, q.2 ||| (toFmt f e q.1 s.cur.rmv sat).2))
        (s.laneOf a l) (s.laneOf (.line d) l)) :=
  State.writesLanes_vline hpar rfl fun _ => rfl

theorem State.writes_vqspt (sat : Bool) (sc : Scale) (d : Line) (a : VSrc) :
    s.WritesLanes (.vqspt sat sc d a) 4 d (fun l =>
      convCell 32 1 8 4 (scalePart sc)
        (fun o => let q := exDiv (srcVal .f32 0 o) (s.scale sc a); ((sptConv s.cur.rmv sat q.1).1, q.2 ||| (sptConv s.cur.rmv sat q.1).2))
        (s.laneOf a l) (s.laneOf (.line d) l)) :=
  State.writesLanes_vline hpar rfl fun _ => rfl

theorem State.writes_vdqnt (f : Fmt) (sat : Bool) (sc : Scale) (d : Line) (a : VSrc) :
    let e := s.cur.efr
    s.WritesLanes (.vdqnt f sat sc d a) 4 d (fun l =>
      convCell (Fmt.width f e) (Fmt.count f e) 32 1 (scalePart sc)
        (fun o => let q := exMul (srcVal f e o) (s.scale sc a);
          ((narrow (.fp fp32) q.1 s.cur.rmv sat).1, q.2 ||| (narrow (.fp fp32) q.1 s.cur.rmv sat).2))
        (s.laneOf a l) (s.laneOf (.line d) l)) := by
  intro e
  refine State.writesLanes_mapLanes (lines := [s.readSrc a, s.readLine d]) hpar
    (by change execVdqnt f sat sc d a s = _; rw [execVdqnt]) [a, .line d] rfl fun l => ?_
  refine congrFun (congrFun (congrArg (convCell _ _ _ _ _) (funext fun o => ?_)) _) _
  -- The product stays a variable, so that no narrowing is evaluated.
  generalize exMul (srcVal f e o) (s.scale sc a) = q
  rfl

theorem State.writes_vscalb (f : Fmt) (sat : Bool) (d : Line) (a b : VSrc) :
    s.WritesElems (.vscalb f sat d a b) 4 f d (fun l k =>
      s.oneRounding f sat (exScale (s.valAt f a l k) (s.laneOf b l).toInt, flIf (s.valAt f a l k).isSig flNV)) := by
  simp only [← nvOf_single]
  exact State.writesElems_of_writesLanes (State.writesLanes_vline hpar rfl fun _ => elemwise_eq ..) fun _ _ => arith_lt ..

end

/-- Settles O22: the lane rule, then the conversions form by form. -/
theorem vectorConvert : Obligations.VectorConvert := by
  unfold Obligations.VectorConvert
  refine ⟨fun ws ns wd nd p conv a d _ hwd _ _ hconv => ?_, fun s f g sat part sc d a b hpar => ?_⟩
  · exact ⟨fun h i hi => elemW_convCell_of_le p a d hwd hconv h hi, fun h k hk => elemW_convCell_of_lt p a d hwd hconv h hk⟩
  · intro e m src sigma p
    have hsrc (h : Fmt) (o : Option Nat) : srcVal h s.cur.efr o = src h o := by cases o <;> rfl
    have hspt (o : Option Nat) : srcVal .f32 0 o = src .f32 o := by cases o <;> rfl
    have hpart : scalePart sc = p := by cases sc <;> rfl
    have hcvt := State.writes_vcvt hpar f g sat part d a
    have hqnt := State.writes_vqnt hpar f sat sc d a
    have hqspt := State.writes_vqspt hpar sat sc d a
    have hdqnt := State.writes_vdqnt hpar f sat sc d a
    simp only [hsrc, hspt, hpart] at hcvt hqnt hqspt hdqnt
    exact ⟨hcvt, hqnt, hqspt, hdqnt, State.writes_vscalb hpar f sat d a b⟩

end Sys2Proof.Machine
end

section
/-! Functions, permutes, generators and dropout in the V slot (R174, R178-R181, R317), and the statement `Obligations.VectorFunctions`. -/

namespace Sys2Proof.Machine

/-! The functions (R174). -/

/-- The root and the logarithm of a negative number are invalid. -/
theorem VFun.apply_negative {g : VFun} (hg : g ∈ [VFun.rsq, .sqrt, .log2]) {k : Nat} (hk : k ≠ 0) (c : Nat) (e : Int) :
    g.apply (.fin true k c e) = (.nan false, flNV) := by
  simp only [List.mem_cons, List.not_mem_nil, or_false] at hg
  rcases hg with rfl | rfl | rfl <;> exact if_neg hk

section
variable {s : State} (hpar : s.core.parity = [])
include hpar

theorem State.writes_vfun {i : Instr} {g : VFun} {f : Fmt} {sat : Bool} {d : Line} {a : VSrc} (hexec : exec i s = finish s (s.vfun g f sat d a)) :
    s.WritesElems i 8 f d (fun l k => s.oneRounding f sat (g.apply (s.valAt f a l k))) :=
  State.writesElems_rounded hpar hexec fun _ _ => rfl

/-! Permutes (R178). -/

theorem State.writes_vrot (d : Line) (a : VSrc) (q : SReg) :
    s.WritesLanes (.vrot d a q) 3 d (fun l => (s.laneOf a ((l + (s.cur.readS q).toNat % 64) % 64), 0)) := by
  refine State.writesLanes_cells ?_
  have hcount : fld (s.cur.readS q) 5 0 = (s.cur.readS q).toNat % 64 := fld_low ..
  change execVrot d a q s = _
  rw [execVrot, s.sound_of_parity _ _ hpar, hcount, finish_ok, map_upto_zero]
  rfl

theorem State.writes_vshuf (d : Line) (a b : VSrc) : s.WritesLanes (.vshuf d a b) 3 d
    (fun l => (if (s.laneOf b l).getLsbD 31 then 0 else s.laneOf a ((s.laneOf b l).toNat % 64), 0)) := by
  refine State.writesLanes_cells ?_
  change execVshuf d a b s = _
  rw [execVshuf, s.sound_of_parity _ _ hpar, finish_ok, s.readSrc_eq b, List.map_map]
  rfl

end

theorem State.writes_viota (s : State) (d : Line) (q : SReg) :
    s.WritesLanes (.viota d q) 2 d (fun l => ((s.cur.readS q).setWidth 32 + BitVec.ofNat 32 l, 0)) := by
  refine State.writesLanes_cells ?_
  change execViota d q s = _
  rw [execViota, finish_ok, map_upto_zero]
  rfl

/-! Random numbers and dropout (R179-R181, R317). -/

section
variable {s : State} (d : Line) (q h : SReg)

/-- Word i of the stream register that a handle of the issuing rank names (R316). -/
def State.calicoWord (s : State) (h : SReg) (i : Nat) : Word64 := (s.rank s.cur.slot).calico.get (3 * ((s.cur.readS h).toNat % 65536) + i)

theorem exec_vrand : exec (.vrand d q h) s =
    finish s (if 64 ≤ (s.cur.readS h).toNat % 65536 ∨ (s.calicoWord h 2).getLsbD 63 = false then .trap (s.illop 0x13)
      else .ok (s.outLine 6 d ((List.range 64).map (fun l =>
        calico (s.calicoWord h 0) (s.calicoWord h 2 &&& 0xFFFFFFFF) (s.calicoWord h 1 + s.cur.readS q + BitVec.ofNat 64 l))) 0)) := by
  have hhandle : fld (s.cur.readS h) 15 0 = (s.cur.readS h).toNat % 65536 := fld_low ..
  change execVrand d q h s = _
  simp only [execVrand, hhandle, map_upto_zero, State.calicoWord, Bool.or_eq_true, decide_eq_true_eq, Bool.not_eq_true']
  rfl

theorem State.writes_vrand (hhandle : (s.cur.readS h).toNat % 65536 < 64) (hset : (s.calicoWord h 2).getLsbD 63 = true) :
    s.WritesLanes (.vrand d q h) 6 d (fun l =>
      (calico (s.calicoWord h 0) (s.calicoWord h 2 &&& 0xFFFFFFFF) (s.calicoWord h 1 + s.cur.readS q + BitVec.ofNat 64 l), 0)) := by
  refine State.writesLanes_cells ?_
  rw [exec_vrand, if_neg (by simp [hhandle, hset]), finish_ok]

theorem State.traps_vrand (hbad : 64 ≤ (s.cur.readS h).toNat % 65536 ∨ (s.calicoWord h 2).getLsbD 63 = false) :
    s.Traps (.vrand d q h) (s.illop 0x13) := by
  rw [State.Traps, exec_vrand, if_pos hbad, finish_trap]

end

theorem dropKeep_lt {f : Fmt} {efr : BitVec 12} {b : Nat} (hb : b < 2 ^ Fmt.width f efr) : (dropKeep f efr b).1 < 2 ^ Fmt.width f efr := by
  unfold dropKeep
  split
  · exact hb
  · next F hF =>
    dsimp only
    split
    · exact Fmt.nan_lt efr hF hb
    · exact hb

section
variable {s : State} (hpar : s.core.parity = [])
include hpar

theorem State.writes_vgumb (sat : Bool) (d : Line) (a : VSrc) :
    let gum (l : Nat) : Nat × Flags := narrow (.fp fp32) (exGumbel ((s.laneOf a l).toNat / 256)) s.cur.rmv sat
    s.WritesLanes (.vgumb sat d a) 8 d (fun l => (BitVec.ofNat 32 (gum l).1, (gum l).2)) := by
  intro gum
  refine State.writesLanes_vline hpar rfl fun l => ?_
  split
  next v fl h =>
    have hgum : gum l = (v, fl) := h
    rw [hgum]

theorem State.writes_vdrop (f : Fmt) (d : Line) (a : VSrc) (c : BitVec 4) :
    let t := (s.cur.c.get c.toNat).toNat
    let lim := if f = .f32 ∨ f = .i32 then t else t / 65536
    s.WritesElems (.vdrop f d a c) 6 f d (fun l k =>
      if s.elemAt f (.line d) l k < lim then dropKeep f s.cur.efr (s.elemAt f a l k) else (0, 0)) := by
  intro t lim
  have hlim : (if f = .f32 || f = .i32 then t else t / 65536) = lim := by
    simp only [Bool.or_eq_true, decide_eq_true_eq, lim]
  refine State.writesElems_vline hpar rfl (fun _ _ => hlim ▸ rfl) fun l k => ?_
  split
  · exact dropKeep_lt (elem_lt ..)
  · exact Nat.two_pow_pos _

end

/-- Settles O23: the functions and their table, then the permutes and generators. -/
theorem vectorFunctions : Obligations.VectorFunctions := by
  unfold Obligations.VectorFunctions
  refine ⟨fun s f sat d a hpar => ?_, fun s f d a b q h c hpar => ?_⟩
  · intro r gum
    refine ⟨State.writes_vfun hpar rfl, State.writes_vfun hpar rfl, State.writes_vfun hpar rfl, State.writes_vfun hpar rfl,
      State.writes_vfun hpar rfl, State.writes_vfun hpar rfl, State.writes_vfun hpar rfl, State.writes_vgumb hpar sat d a, fun n k c e hk _ => ?_⟩
    exact ⟨rfl, rfl, rfl, rfl, rfl, rfl, rfl, rfl, rfl, rfl, rfl, rfl, rfl, rfl, rfl, rfl, rfl, rfl,
      VFun.apply_negative (by decide) hk c e, VFun.apply_negative (by decide) hk c e, VFun.apply_negative (by decide) hk c e⟩
  · intro x n hd j t lim z mix bits
    exact ⟨State.writes_vrot hpar d a q, State.writes_vshuf hpar d a b, s.writes_viota d q, State.writes_vrand d q h, State.traps_vrand d q h,
      State.writes_vdrop hpar f d a c⟩

end Sys2Proof.Machine
end

section
/-! The K slot (R183-R187): accesses to the window, loaded elements as FP32, and the statement `Obligations.KSlot`. -/

namespace Sys2Proof.Machine

/-! Accesses to the window (R184, R288, R342). -/

theorem Stream.winAll_of_held {x : Stream} {core : Nat} (k : AKind) {l : List (Nat × Nat)}
    (h : ∀ r ∈ l, inWindow r.1 = true ∧ ∃ key, x.winKey core r.1 = .ok key) : ∃ ps, x.winAll core k l = .ok ps := by
  induction l with
  | nil => exact ⟨[], rfl⟩
  | cons r l ih =>
    obtain ⟨⟨hwin, key, hkey⟩, hrest⟩ := List.forall_mem_cons.mp h
    obtain ⟨ps, hps⟩ := ih hrest
    exact ⟨⟨r.1, r.2, .win key⟩ :: ps, by simp [Stream.winAll, hwin, hkey, hps]⟩

/-- Bytes in held granules have their pieces. -/
theorem Stream.winPieces_of_inGrans {x : Stream} {core a n : Nat} (k : AKind) (h : x.inGrans core a n) : ∃ ps, x.winPieces core a n k = .ok ps :=
  Stream.winAll_of_held k fun _ hr => h _ (mem_chunks_bounds hr).1 (mem_chunks_bounds hr).2

theorem Piece.bad_of_sound {m : MemSys} (h : m.bad = []) (p : Piece) : p.bad m = false := by
  unfold Piece.bad
  split
  · rw [h, List.any_nil]
  · rfl

section
variable {s : State} (hcalm : s.calm)
include hcalm

theorem State.sound_of_calm (ps : List Piece) : ps.any (fun p => p.bad s.mem) = false := by
  obtain ⟨-, hbad⟩ := hcalm
  simp [Piece.bad_of_sound hbad]

theorem State.bankHeld_of_calm (me : Nat) (ks : List (Nat × Nat)) : s.bankHeld me ks = false := by
  obtain ⟨hhold, -⟩ := hcalm
  refine List.any_eq_false.mpr fun e he => ?_
  simp [hhold e he]

end

section
variable {s : State} {a : Word64} {u n : Nat} {k : AKind} {f : List Piece → Res}

theorem State.kwin_misaligned (h : a.toNat % u ≠ 0) : s.kwin a u n k f = .trap { cause := 0x04, addr := a } := if_pos h

section
variable (halign : a.toNat % u = 0)
include halign

theorem State.kwin_notHeld {t : TrapRec} (h : s.cur.winPieces (s.curKey / 2) a.toNat n k = .error t) :
    s.kwin a u n k f = .trap { t with addr := a } := by
  rw [State.kwin, if_neg (not_not.mpr halign), h]

variable {ps : List Piece} (hps : s.cur.winPieces (s.curKey / 2) a.toNat n k = .ok ps)
include hps

theorem State.kwin_unsound (hk : k = .load) (hbad : ps.any (fun p => p.bad s.mem) = true) :
    s.kwin a u n k f = .trap { trap68 0x08 a.toNat 0xF k 0x21 with addr := a } := by
  subst hk
  simp only [State.kwin, halign, hps, hbad, ne_eq, not_true_eq_false, if_false, beq_self_eq_true, Bool.and_self, if_true]

theorem State.kwin_done (hsound : k = .load → ps.any (fun p => p.bad s.mem) = false) (hfree : s.bankHeld s.curKey (winKeys ps) = false) :
    s.kwin a u n k f = f ps := by
  have hgood : (k == .load && ps.any (fun p => p.bad s.mem)) = false := by
    by_cases hk : k = .load
    · rw [hsound hk, Bool.and_false]
    · rw [beq_false_of_ne hk, Bool.false_and]
  simp [State.kwin, halign, hps, hgood, hfree]

end

/-- What the checks of R184 make of an instruction that goes on with `done`. -/
theorem State.windowed_of_kwin {i : Instr} {done : List Piece → State} (hexec : exec i s = finish s (s.kwin a u n k (fun ps => .ok (done ps)))) :
    s.Windowed i a u n k done := by
  have htraps {t : TrapRec} (h : s.kwin a u n k (fun ps => .ok (done ps)) = .trap t) : s.Traps i t := by
    rw [State.Traps, hexec, h, finish_trap]
  have hdone {ps : List Piece} (h : s.kwin a u n k (fun ps => .ok (done ps)) = .ok (done ps)) : exec i s = .next (done ps) := by
    rw [hexec, h, finish_ok]
  refine ⟨fun h => htraps (State.kwin_misaligned h), fun t halign h => htraps (State.kwin_notHeld halign h),
    fun ps halign hps hk hbad => htraps (State.kwin_unsound halign hps hk hbad),
    fun ps halign hps hsound hfree => hdone (State.kwin_done halign hps hsound hfree), fun halign hgrans hcalm => ?_⟩
  obtain ⟨ps, hps⟩ := Stream.winPieces_of_inGrans k hgrans
  exact ⟨ps, hps, hdone (State.kwin_done halign hps (fun _ => State.sound_of_calm hcalm ps) (State.bankHeld_of_calm hcalm _ _))⟩

end

/-! Loaded elements (R184). -/

theorem kconv_eq (f : KFmt) (m : RMode) (b : Nat) : kconv f m b =
    (BitVec.ofNat 32 (narrow (.fp fp32) (loadedVal f b) m false).1, (narrow (.fp fp32) (loadedVal f b) m false).2 ||| nvOf [loadedVal f b]) := by
  unfold kconv
  -- The loaded value stays a variable, so that no narrowing is evaluated.
  extract_lets x
  have hx : x = loadedVal f b := by cases f <;> rfl
  exact hx ▸ rfl

section
variable (s : State) (z : BitVec 2) (a : SReg) (b : SOp)

theorem State.windowed_kld (f : KFmt) (c : BitVec 4) : s.Windowed (.kld f c a b) (s.kaddr (kSize f) a b) (kSize f) (kSize f) .load (fun ps =>
    let e := kconv f s.cur.rmk (leNat (winBytes s.vspad ps))
    s.out 4 (.c c.toNat e.1) e.2) := by
  refine State.windowed_of_kwin ?_
  change execKld f c a b s = _
  rw [execKld]

theorem State.windowed_kldz (bf : Bool) :
    let f : KFmt := if bf then .bf16 else .f32
    let lane (ps : List Piece) (i : Nat) := kconv f s.cur.rmk (byteElem (kSize f) i (winBytes s.vspad ps))
    s.Windowed (.kldz bf z a b) (s.kaddr (64 * kSize f) a b) (kSize f) (64 * kSize f) .load (fun ps =>
      s.out 4 (.z z.toNat ((List.range 64).map (fun i => (lane ps i).1))) ((List.range 64).foldl (fun t i => t ||| (lane ps i).2) 0)) := by
  intro f lane
  refine State.windowed_of_kwin ?_
  change execKldz bf z a b s = _
  simp only [execKldz, map_upto_zero, List.map_map, List.foldl_map]
  rfl

theorem State.windowed_kst (c : BitVec 4) :
    s.Windowed (.kst c a b) (s.kaddr 4 a b) 4 4 .store (fun ps => s.winStore ps (leBytes (s.cur.c.get c.toNat).toNat 4)) :=
  State.windowed_of_kwin rfl

theorem State.windowed_kstZ : s.Windowed (.kstZ z a b) (s.kaddr 256 a b) 4 256 .store (fun ps =>
    s.winStore ps ((List.range 64).map (fun i => leBytes (s.cur.z.get (z.toNat * 64 + i)).toNat 4)).flatten) := by
  refine State.windowed_of_kwin ?_
  change execKstZ z a b s = _
  rw [execKstZ, map_upto_zero]

/-! Moves between registers (R186). -/

theorem State.writes_kmovCFromZ (c : BitVec 4) :
    s.Writes (.kmovCFromZ c z b) 1 (.c c.toNat (s.cur.z.get (z.toNat * 64 + (s.cur.readOp b).toNat % 64))) := by
  have hlane : fld (s.cur.readOp b) 5 0 = (s.cur.readOp b).toNat % 64 := fld_low ..
  exact hlane ▸ rfl

theorem State.writes_kmovZFromC (c : BitVec 4) :
    s.Writes (.kmovZFromC z c b) 1 (.ze z.toNat ((s.cur.readOp b).toNat % 64) (s.cur.c.get c.toNat)) := by
  have hlane : fld (s.cur.readOp b) 5 0 = (s.cur.readOp b).toNat % 64 := fld_low ..
  exact hlane ▸ rfl

end

/-- Settles O29, form by form. -/
theorem kSlot : Obligations.KSlot := by
  unfold Obligations.KSlot
  intro s f bf c c2 z d a b adr conv zf u lane
  have hconv (g : KFmt) (l : List Byte) : kconv g s.cur.rmk (leNat l) = conv g l := kconv_eq ..
  have hld := s.windowed_kld a b f c
  have hldz := s.windowed_kldz z a b bf
  simp only [byteElem, hconv] at hld hldz
  exact ⟨hld, hldz, s.windowed_kst a b c, s.windowed_kstZ z a b, rfl, rfl, rfl, s.writes_kmovCFromZ z b c, s.writes_kmovZFromC z b c, rfl, rfl⟩

end Sys2Proof.Machine
end
